-- ==== Sys2Proof/Word.lean ====
section
/-! DEFINITION. The register word of the VYH2408 and its byte, the two widths every page and every bus of the
manual speaks in (R6: every register is 32 bits wide; R5: multi-byte fields go least significant byte first). -/
namespace Sys2Proof

/-- One register word (R6). -/
abbrev Word := BitVec 32

/-- One byte of a bus frame or of the flash. -/
abbrev Byte := BitVec 8

end Sys2Proof
end

