-- ==== Sys2Proof/Syntax.lean ====
section
/-! DEFINITION. The commands of the block: one constructor per row of the manual's table of operations and events. A
command carries what reaches the device from outside with it: the words of a host access, the bytes of a frame, a
measured value or a measured time. What the device already holds is never an operand. -/
namespace Sys2Proof

/-- The host ports through which a register is reached (R34 to R63, R443). -/
inductive HostPort where
  | spi | smb | jtag
  deriving DecidableEq, Repr

/-- What an SMBus write or read ended with: no packet error code, a right one or a wrong one (R50). -/
inductive Pec where
  | absent | good | bad
  deriving DecidableEq, Repr

/-- A PMBus transaction on a command code: a read, in which the host clocks a byte beyond the data or does not (R50), or a
write of data bytes in the order sent (R52). -/
inductive PmOp where
  | read (pec : Bool)
  | write (data : List Byte) (pec : Pec)
  deriving DecidableEq, Repr

/-- A target that answers ENTDAA, with its characteristics (R138, R139): provisioned identifier, BCR, DCR, the device
told it with SETMRL and it agreed. -/
structure Target where
  pid : Nat
  bcr : Nat
  dcr : Nat
  mrlOk : Bool
  deriving DecidableEq, Repr

/-- Whether a received frame holds a code error, or fails its CRC (R186, R192). -/
inductive FrameErr where
  | none | code | crc
  deriving DecidableEq, Repr

/-- The head of a frame received on the D lane: DEST, and for a frame of VC1 to VC3 its SRC and FN; the credit class in
which it arrived; how it is damaged; and whether it is the copy of the chord input (R192, R194, R212). -/
structure FrameHead where
  dest : Nat
  src : Nat
  fn : Nat
  clsB : Bool
  err : FrameErr
  chord : Bool
  deriving DecidableEq, Repr


/-- The commands. -/
inductive Instr where
  /-- `REG_WRITE` (R7). A host, JTAG or image write to a register field that has no row of its own sets the field according to its access code. -/
  | regWrite (p : HostPort) (pg off : Nat) (v : Word)
  /-- `STKY_CLEAR` (R26). A write of 1 to a sticky bit clears it unless its condition is present, and EVC counts the write under R27. -/
  | stkyClear (pg off : Nat) (mask coinc : Word)
  /-- `EVC_CLEAR` (R27). A write of 1 to EVC.CLR clears the page's event count. -/
  | evcClear (pg : Nat) (incs : Nat)
  /-- `FRC_FORCE` (R28). A write of 1 to an FRC bit acts as a real occurrence of the condition and sends a forced message with KIND 0x3F. -/
  | frcForce (pg : Nat) (mask : Word)
  /-- `LOCK_WRITE` (R29). A write to LCK closes lock groups or FRCLK until a reset that reopens them. -/
  | lockWrite (pg : Nat) (v : Word)
  /-- `PAGE_RESET` (R25). A write of 1 to CTRL.PRST resets the owning block's page as its chapter states. -/
  | pageReset (pg : Nat)
  /-- `RAIL_PAGE_RESET` (R92). Vn_CTRL.PRST turns the rail off immediately unless it is OFF or SAFE, then returns the rail page fields to reset. -/
  | railPageReset (n : Fin 8)
  /-- `HST_PAGE_RESET` (R62). HST_CTRL.PRST clears the host-port counters and settings once the frame or transaction in progress has ended. -/
  | hstPageReset
  /-- `CMD_ENGINE_RESET` (R170). A PRST of CMD, CTX or TAG completes every in-flight item FAILED CMDRESET to ORP, ends votes, resets tags and resets both buses. -/
  | cmdEngineReset
  /-- `CMP_PAGE_RESET` (R256). CMP_CTRL.PRST returns unlocked fields, clears HIT and STKY bits, and restarts comparator outputs on their start sides. -/
  | cmpPageReset
  /-- `TRP_PAGE_RESET` (R258). TRP_CTRL.PRST releases non-latched trips, cancels hiccup waits and restarts the source-line filters. -/
  | trpPageReset
  /-- `TLM_PAGE_RESET` (R308). TLM_CTRL.PRST empties both banks and restarts the base-sample count without moving the grid. -/
  | tlmPageReset
  /-- `CRB_PAGE_RESET` (R300). A CRB page reset empties the FIFO, the producer queues and the remote buffer without a FLUSH crumb. -/
  | crbPageReset
  /-- `THM_PAGE_RESET` (R314). A THM page reset abandons the round, reinstates excluded sensors and starts a new round at once. -/
  | thmPageReset
  /-- `FLT_PAGE_RESET` (R342). A FLT page reset clears FIRST, LAST, counters and the latch record, and keeps sticky bits, hold sets and safe states. -/
  | fltPageReset
  /-- `SPI_READ_SINGLE` (R43). An SPI single read frame returns wait bytes, STATUS, one word and RCRC. -/
  | spiReadSingle (cmd pg off hcrc : Byte) (waits : Nat)
  /-- `SPI_READ_BURST` (R43). An SPI burst read frame returns CNT + 1 words at rising offsets. -/
  | spiReadBurst (cmd pg off hcrc : Byte) (waits : Nat)
  /-- `SPI_READ_STREAM` (R44). An SPI stream read frame returns prefixed word slots from one fixed offset. -/
  | spiReadStream (cmd pg off hcrc : Byte) (waits : Nat)
  /-- `SPI_WRITE_SINGLE` (R41). An SPI single write frame writes one word if DCRC matches and returns STATUS and SCRC. -/
  | spiWriteSingle (cmd pg off hcrc : Byte) (data : List Byte) (dcrc : Byte)
  /-- `SPI_WRITE_BURST` (R41). An SPI burst write frame writes CNT + 1 words in rising offset order if DCRC matches. -/
  | spiWriteBurst (cmd pg off hcrc : Byte) (data : List Byte) (dcrc : Byte)
  /-- `SPI_FRAME_ABORT` (R42). SPI_CS_N rising before the last byte ends the frame with no write and sets SPI_ABORT and PREV_ABORT. -/
  | spiFrameAbort (hdr : List Byte) (words : Nat) (dcrcBad : Bool)
  /-- `SPI_STREAM_SLOT_FILL` (R45). A waiting stream slot sends 0xA5 and the word once the stream port has an item. -/
  | spiStreamSlotFill (waits : Nat)
  /-- `SPI_STRABN` (R45). After WAITMAX wait bytes without an item, the slot and every remaining slot are abandoned with 0x5A. -/
  | spiStrabn
  /-- `SMB_TIMEOUT` (R49). SMB_SCL held low for 25 ms to 35 ms resets the SMBus interface and counts TOCNT. -/
  | smbTimeout
  /-- `SMB_ALERT_RESPONSE` (R51). A read of the Alert Response Address is answered, and ALERT_N is released if the device wins arbitration. -/
  | smbAlertResponse (won pec : Bool)
  /-- `PMBUS_UNSUPPORTED` (R57). An unsupported command code is NACKed on write or read as 0xFF, and STATUS_CML bit 7 is set. -/
  | pmbusUnsupported (code : Byte) (rd : Option Nat)
  /-- `PAGE` (R52). The PMBus PAGE command reads or sets HST_PMBPAGE. -/
  | page (op : PmOp)
  /-- `OPERATION_ON` (R89). OPERATION 0x80 writes EN = 1 to the selected rail. -/
  | operationOn (op : PmOp)
  /-- `OPERATION_SOFT_OFF` (R89). OPERATION 0x40 writes SOFTOFF = 1 and EN = 0. -/
  | operationSoftOff (pec : Pec)
  /-- `OPERATION_IMMEDIATE_OFF` (R89). OPERATION 0x00 writes SOFTOFF = 0 and EN = 0. -/
  | operationImmediateOff (pec : Pec)
  /-- `ON_OFF_CONFIG` (R52). The read of ON_OFF_CONFIG returns the fixed value 0x18. -/
  | onOffConfig (op : PmOp)
  /-- `CLEAR_FAULTS` (R63). CLEAR_FAULTS writes 1 to the rail's fault sticky bits and clears HST_CML. -/
  | clearFaults (pec : Pec)
  /-- `WRITE_PROTECT` (R58). WRITE_PROTECT sets which PMBus and window writes are refused. -/
  | writeProtect (op : PmOp)
  /-- `CAPABILITY` (R52). The read of CAPABILITY returns the fixed value 0xD0. -/
  | capability (op : PmOp)
  /-- `VOUT_MODE` (R52). The read of VOUT_MODE returns 0x40 for DIRECT format. -/
  | voutMode (op : PmOp)
  /-- `VOUT_COMMAND` (R53). VOUT_COMMAND reads or writes Vn_TARGET.CODE in DIRECT format. -/
  | voutCommand (op : PmOp)
  /-- `VOUT_MAX` (R53). VOUT_MAX reads or writes Vn_VMAX.CODE. -/
  | voutMax (op : PmOp)
  /-- `VOUT_TRANSITION_RATE` (R55). VOUT_TRANSITION_RATE reads or writes Vn_SLEW.RATE in LINEAR11. -/
  | voutTransitionRate (op : PmOp)
  /-- `COEFFICIENTS` (R53). The COEFFICIENTS process call returns the DIRECT coefficients for a command code. -/
  | coefficients (code rw : Byte) (pec : Bool)
  /-- `VOUT_OV_FAULT_LIMIT` (R254). VOUT_OV_FAULT_LIMIT reads or writes the HI threshold of Cn. -/
  | voutOvFaultLimit (op : PmOp)
  /-- `VOUT_UV_FAULT_LIMIT` (R254). VOUT_UV_FAULT_LIMIT reads or writes the LO threshold of Cn. -/
  | voutUvFaultLimit (op : PmOp)
  /-- `IOUT_OC_FAULT_LIMIT` (R254). IOUT_OC_FAULT_LIMIT reads or writes TRP_ROCn.ROCLIM. -/
  | ioutOcFaultLimit (op : PmOp)
  /-- `OT_FAULT_LIMIT` (R319). OT_FAULT_LIMIT reads or writes the stage OT limit of the PAGE rail. -/
  | otFaultLimit (op : PmOp)
  /-- `VIN_OV_FAULT_LIMIT` (R254). VIN_OV_FAULT_LIMIT reads or writes the HI threshold of the rail's bus comparator. -/
  | vinOvFaultLimit (op : PmOp)
  /-- `VIN_UV_FAULT_LIMIT` (R254). VIN_UV_FAULT_LIMIT reads or writes the LO threshold of the rail's bus comparator. -/
  | vinUvFaultLimit (op : PmOp)
  /-- `STATUS_BYTE` (R343). STATUS_BYTE returns the rail's summary status bits. -/
  | statusByte (op : PmOp)
  /-- `STATUS_WORD` (R343). STATUS_WORD returns STATUS_BYTE together with the upper status byte. -/
  | statusWord (op : PmOp)
  /-- `STATUS_VOUT` (R343). STATUS_VOUT returns the rail's output-voltage fault bits. -/
  | statusVout (op : PmOp)
  /-- `STATUS_IOUT` (R343). STATUS_IOUT returns the rail's current fault bits. -/
  | statusIout (op : PmOp)
  /-- `STATUS_INPUT` (R343). STATUS_INPUT returns the input-bus fault bits. -/
  | statusInput (op : PmOp)
  /-- `STATUS_TEMPERATURE` (R343). STATUS_TEMPERATURE returns the stage temperature bits. -/
  | statusTemperature (op : PmOp)
  /-- `STATUS_CML` (R57). STATUS_CML returns HST_CML. -/
  | statusCml (op : PmOp)
  /-- `READ_VIN` (R287). READ_VIN returns the voltage of the rail's bus from the stable bank. -/
  | readVin (op : PmOp)
  /-- `READ_IIN` (R287). READ_IIN returns the input current of the rail's bus. -/
  | readIin (op : PmOp)
  /-- `READ_VOUT` (R287). READ_VOUT returns the rail voltage in DIRECT format. -/
  | readVout (op : PmOp)
  /-- `READ_IOUT` (R287). READ_IOUT returns the rail current in LINEAR11. -/
  | readIout (op : PmOp)
  /-- `READ_TEMPERATURE_1` (R287). READ_TEMPERATURE_1 returns the rail's hottest stage temperature. -/
  | readTemperature1 (op : PmOp)
  /-- `READ_TEMPERATURE_2` (R317). READ_TEMPERATURE_2 returns TJ. -/
  | readTemperature2 (op : PmOp)
  /-- `READ_POUT` (R287). READ_POUT returns the rail output power. -/
  | readPout (op : PmOp)
  /-- `PMBUS_REVISION` (R52). PMBUS_REVISION returns the fixed value 0x44. -/
  | pmbusRevision (op : PmOp)
  /-- `MFR_ID` (R52). MFR_ID returns 'OLMW'. -/
  | mfrId (op : PmOp)
  /-- `MFR_MODEL` (R52). MFR_MODEL returns 'VYH2408'. -/
  | mfrModel (op : PmOp)
  /-- `MFR_REVISION` (R52). MFR_REVISION returns 'B1'. -/
  | mfrRevision (op : PmOp)
  /-- `MFR_WINDOW_ADDR` (R60). MFR_WINDOW_ADDR reads or sets HST_WINADDR. -/
  | mfrWindowAddr (op : PmOp)
  /-- `MFR_WINDOW_DATA` (R60). MFR_WINDOW_DATA reads or writes the word at HST_WINADDR as an SPI single access. -/
  | mfrWindowData (op : PmOp)
  /-- `MFR_WINDOW_DATA_INC` (R60). MFR_WINDOW_DATA_INC makes the window access and then advances the offset by 4. -/
  | mfrWindowDataInc (op : PmOp)
  /-- `MFR_FLEET_REPORT` (R366). MFR_FLEET_REPORT returns the formed 96-byte fleet report. -/
  | mfrFleetReport (op : PmOp)
  /-- `WINDOW_SAMPLE` (R65). A window ADC sample reaches the engine, which updates the model, error, integrator, reference and decision quantity. -/
  | windowSample (n : Fin 8) (d : Int) (lag2 : Bool) (mism : Bool)
  /-- `PACEMISS` (R15). No pacing edge within 10 ns sends a PACEMISS fault naming the slice. -/
  | pacemiss (slice : Fin 9)
  /-- `RAIL_FIRE` (R76). The rail fires its next phase once all four firing conditions hold, with model correction and the on-time of the phase manager. -/
  | railFire (n : Fin 8) (sinceFire offFor lat : Nat)
  /-- `ON_TIME_END` (R77). A phase's on-time expires and its PWM goes low. -/
  | onTimeEnd (k : Fin 24)
  /-- `INTEGRATOR_RESET` (R75). A write of 1 to Vn_INTG.IRST sets y to 0. -/
  | integratorReset (n : Fin 8)
  /-- `RAIL_ENABLE` (R89). A 0 to 1 change of Vn_CTRL.EN in OFF enters PRECHECK, or reverses a soft turn-off. -/
  | railEnable (n : Fin 8)
  /-- `RAIL_DISABLE` (R91). A 1 to 0 change of EN starts a soft turn-off or an immediate off, chosen by SOFTOFF. -/
  | railDisable (n : Fin 8) (soft : Bool)
  /-- `PRECHECK_DONE` (R90). The precheck ends, and either the pre-bias search starts or the rail returns to OFF with RAMPFAIL. -/
  | precheckDone (n : Fin 8)
  /-- `PREBIAS_DONE` (R90). The pre-bias search ends, and the rail sets Vref and enters PROOF. -/
  | prebiasDone (n : Fin 8)
  /-- `PGOOD_RISE` (R94). The error stays in PGWIN for PGDLY, and power good rises. -/
  | pgoodRise (n : Fin 8) (heldUs : Nat)
  /-- `PGOOD_FALL` (R94). The error stays outside PGWIN for 1 µs, and power good falls. -/
  | pgoodFall (n : Fin 8) (heldNs : Nat)
  /-- `RAMPFAIL_PGTMO` (R90). PGTMO expires after RAMPDONE without power good, and RAMPFAIL is sent. -/
  | rampfailPgtmo (n : Fin 8) (us : Nat)
  /-- `SNSOPEN` (R67). The sense-open detector trips, sets SNSOPEN and sends its fault. -/
  | snsopen (n : Fin 8)
  /-- `ENGINE_SNAPSHOT` (R99). A write of 1 to En_CTRL.SNAP captures e, y, w, u and the time from one sample. -/
  | engineSnapshot (j : Fin 10)
  /-- `COMP_WORD_APPLY` (R82). An engine applies a received compensation word at the rail's next firing boundary. -/
  | compWordApply (j : Fin 10)
  /-- `ENGINE_TAKEOVER` (R96). A spare engine takes over the rail at a firing boundary with its shadowed state. -/
  | engineTakeover (n : Fin 8)
  /-- `CAL_START` (R103). A write of Pk_CTRL.CALSTART starts calibration of the port's slice, or sets REJ if the port is not in mid. -/
  | calStart (k : Fin 24)
  /-- `CAL_DONE` (R103). Calibration ends and stores OFS with CAL, or sets CALFAIL. -/
  | calDone (k : Fin 24) (mean : Int) (csrefOk : Bool)
  /-- `STGFLT_TRIP` (R105). TMONg low for 200 ns trips the group's stage-fault detector. -/
  | stgfltTrip (g : Fin 3) (ns : Nat)
  /-- `STGFLT_RELEASE` (R105). TMONg above 0.35 V for 1 µs releases the stage-fault detector. -/
  | stgfltRelease (g : Fin 3) (ns : Nat)
  /-- `PORT_ASSIGN` (R107). A write to Pk_ASSIGN changes the port's rail if the conditions hold, or sets REJ. -/
  | portAssign (k : Fin 24) (rail shpri : Nat)
  /-- `ORDER_COMMIT` (R110). Vn_ORDCTL.COMMIT validates the staging order and makes it active, or sets ORDERR. -/
  | orderCommit (n : Fin 8)
  /-- `ID_START` (R119). A write of Pk_CTRL.IDSTART hands an identification request to the maintenance arbiter. -/
  | idStart (k : Fin 24)
  /-- `ID_END` (R122). Identification ends with a CAUSE, writing LHAT and RHAT on CAUSE 0. -/
  | idEnd (dev : Nat) (k : Fin 24)
  /-- `SHARE_RISE` (R116). A sharing deviation beyond SHARELIM for 16 periods sets SHARE and sends SHAREERR. -/
  | shareRise (k : Fin 24) (periods : Nat)
  /-- `SHARE_FALL` (R116). The deviation stays within SHARELIM for 16 periods, and SHARE falls. -/
  | shareFall (k : Fin 24) (periods : Nat)
  /-- `AUTOSHED_WINDOW_END` (R127). An averaging window of 2^AVGK base samples ends and NTARGET is re-evaluated. -/
  | autoshedWindowEnd (n : Fin 8)
  /-- `I3C_BUS_UP` (R137). HST_I3CCFGb.EN going to 1 brings the bus up with RSTDAA, ENTDAA, admission and ENEC. -/
  | i3cBusUp (b : Fin 2) (targets : List Target)
  /-- `I3C_BUS_DISABLE` (R451). A write of EN = 0 abandons the transfer, releases the pins, frees addresses and departs every requester. -/
  | i3cBusDisable (b : Fin 2)
  /-- `I3C_BUS_RESET` (R140). HST_I3CCTLb.BUSRST resets the bus with RSTACT and RSTDAA, departs its requesters and brings it up again. -/
  | i3cBusReset (b : Fin 2)
  /-- `I3C_DAA` (R140). HST_I3CCTLb.DAA runs ENTDAA and admission on a bus that is up. -/
  | i3cDaa (b : Fin 2) (targets : List Target)
  /-- `I3C_HOT_JOIN` (R141). An acknowledged hot-join request runs ENTDAA and admission at the next idle slot. -/
  | i3cHotJoin (b : Fin 2) (targets : List Target)
  /-- `I3C_IBI` (R142). An in-band interrupt with its MDB sets the context's PENDING count. -/
  | i3cIbi (b : Fin 2) (da : Nat) (mdb : Byte)
  /-- `ITEM_READ` (R143). The device starts an item read for a context when PENDING, in-flight limit and free list allow. -/
  | itemRead (b : Fin 2)
  /-- `ITEM_RECEIVED` (R144). A returned item is checked for CRC and length, tagged, and checked for format, opcode, arguments and authentication. -/
  | itemReceived (b : Fin 2) (reply : Option (List Byte))
  /-- `ITEM_READ_RETRY` (R144). An item read answered with NACK is retried after 125 µs. -/
  | itemReadRetry (b : Fin 2)
  /-- `NOP` (R148). A NOP item completes DONE at once with the context number and free tags. -/
  | nop (t : Fin 128)
  /-- `VSET` (R159). A VSET item records the context's vote on the rail and reruns arbitration. -/
  | vset (t : Fin 128)
  /-- `VREL` (R159). A VREL item ends the context's vote on the rail. -/
  | vrel (t : Fin 128)
  /-- `PHREQ` (R132). A PHREQ item writes Vn_SHEDCFG.NREQ. -/
  | phreq (t : Fin 128)
  /-- `VQUERY` (R148). A VQUERY item completes DONE with WIN, RSTATE, PGOOD and the winning context. -/
  | vquery (t : Fin 128)
  /-- `TLMRD` (R148). A TLMRD item completes DONE with the rail voltage and current from the host view. -/
  | tlmrd (t : Fin 128)
  /-- `VSETA` (R149). An authenticated VSETA item records a vote bound only by VMAX. -/
  | vseta (t : Fin 128)
  /-- `AUWR` (R148). An authenticated AUWR item writes the AU fields of a register word. -/
  | auwr (t : Fin 128)
  /-- `RECORD_WRITE` (R162). The device writes a completion record to its requester and frees the tag on acknowledgement. -/
  | recordWrite (b : Fin 2) (ack : Bool)
  /-- `RECORD_RETRY` (R164). A NACKed record write is retried after 125 µs, and the requester departs when the retries are exhausted. -/
  | recordRetry (b : Fin 2) (ack : Bool)
  /-- `GETSTATUS_POLL` (R165). Every POLL ms the device sends GETSTATUS to each admitted requester. -/
  | getstatusPoll (b : Fin 2) (da : Nat) (reply : Option Word)
  /-- `OVF_VOTE_EXPIRE` (R154). The CTX_OVF hold time runs out, the vote ends and arbitration runs again. -/
  | ovfVoteExpire (n : Fin 8)
  /-- `CMD_FLUSH` (R169). CMD_FLUSH.GO completes every uncompleted item of the named context ABORTED_BY_FLUSH. -/
  | cmdFlush (ctx : Nat)
  /-- `FLUSHALL` (R169). CMD_CTRL.FLUSHALL flushes every context. -/
  | flushall
  /-- `ORP_POP` (R167). A write of 1 to ORP_POP.POP removes the head orphan record. -/
  | orpPop
  /-- `LNK_ENABLE` (R196). LNK_CTRL.EN enables the outputs and inputs; the master starts sending IDLE slots. -/
  | lnkEnable (en : Bool)
  /-- `LNK_INPUT_LOCK` (R196). The Lenulink inputs lock to the incoming stream. -/
  | lnkInputLock
  /-- `RING_OPEN` (R196). LNK_CTRL.OPEN on the master starts enumeration, or is refused under R198. -/
  | ringOpen
  /-- `ENUM_FRAME` (R196). An ENUM frame gives a device its ID, or returns to the master to set NDEV. -/
  | enumFrame (h : FrameHead) (id : Nat) (own : Bool)
  /-- `RING_MEASURE_DONE` (R200). Measurement of forwarding latency, chord offset and round trip ends, or fails with OPENFAIL. -/
  | ringMeasureDone (h : Option FrameHead) (id fwd : Nat) (chofs : Int) (rtt : Nat)
  /-- `SLOTMAP_FRAME` (R201). The broadcast of NDEV, slot map and hop table makes each device check its cascaded rails. -/
  | slotmapFrame (h : FrameHead) (ndev : Nat) (map : List Nat) (hops : List (Nat × Nat)) (bound : List (Nat × Nat × Nat))
  /-- `BIND_CHECK_FRAME` (R201). A VC1 binding check for a lent port is answered by the lender. -/
  | bindCheckFrame (h : FrameHead) (port orail : Nat) (confirm : Bool)
  /-- `OPEN_FRAME` (R196). The master's OPEN broadcast puts every device in RSTATE 4. -/
  | openFrame (h : FrameHead) (refused : Bool)
  /-- `CREDIT_FRAME` (R194). A credit frame returns credits for a VC and class to the upstream sender. -/
  | creditFrame (h : FrameHead) (vc cls count : Nat)
  /-- `TOKEN_DISPATCH` (R203). At the next owned slot, the owner sends a firing token and the PRELOAD for the next firing. -/
  | tokenDispatch (n : Fin 8)
  /-- `TOKEN` (R190). A received F-lane token is forwarded, consumed or acted on by firing the lent port. -/
  | token (devid rail port : Nat) (primBad chordBad : Bool) (age : Option Nat)
  /-- `PRELOAD` (R204). A PRELOAD frame stores the on-time of a lent port's next firing. -/
  | preload (h : FrameHead) (port ton : Nat)
  /-- `FIRED` (R205). A FIRED summary corrects the owner's model of the remote phase, or is discarded as LATE. -/
  | fired (h : FrameHead) (src port : Nat) (isamp : Int) (age late : Nat)
  /-- `MISSED` (R205). A MISSED summary ends the modelled high segment and counts MISS. -/
  | missed (h : FrameHead) (src port : Nat) (isamp : Int) (age late : Nat)
  /-- `HELD` (R205). A HELD summary ends the modelled high segment and counts MISS. -/
  | held (h : FrameHead) (src port : Nat) (isamp : Int) (age late : Nat)
  /-- `MID` (R192). A MID order puts a lent port in mid and clears its preload. -/
  | mid (h : FrameHead) (port : Nat)
  /-- `ID_RESULT_FRAME` (R206). A lender's VC1 slope result for identification of a lent port reaches the owner. -/
  | idResultFrame (h : FrameHead) (port : Nat) (num : Int) (den : Nat)
  /-- `FAULT_RELAY_FRAME` (R207). A lender's stage fault relayed on VC1 makes each owner take the class action as RSTGFLT. -/
  | faultRelayFrame (h : FrameHead) (group : Nat) (tripped : Bool)
  /-- `LENDTMO` (R207). A lent port without token or order for TMO µs goes to mid. -/
  | lendtmo (k : Fin 24) (us : Nat)
  /-- `PRIMARY_LOSS` (R213). Four invalid primary slots switch to the chord and declare the predecessor absent. -/
  | primaryLoss
  /-- `ABSENT_NOTICE` (R213). An ABSENT broadcast makes every owner drop remote members on the absent device. -/
  | absentNotice (h : FrameHead) (id : Nat)
  /-- `PRIMARY_RETURN` (R216). After 1,024 valid primary slots, the device goes back to the primary input. -/
  | primaryReturn
  /-- `RING_BREAK` (R217). Both inputs invalid for four slots make the device BROKEN, a source and sink, and send BREAK. -/
  | ringBreak
  /-- `BREAK_NOTICE` (R217). A BREAK broadcast sets BROKEN, mids lent ports and drops every remote member. -/
  | breakNotice (h : FrameHead) (id : Nat)
  /-- `COMPARATOR_ASSERT` (R220). A comparator side asserts and acts on its fixed paths, trip lines and fault messages. -/
  | comparatorAssert (c : Fin 56) (hi : Bool)
  /-- `COMPARATOR_DEASSERT` (R220). A comparator side deasserts. -/
  | comparatorDeassert (c : Fin 56) (hi : Bool)
  /-- `CMP_THRESHOLD_WRITE` (R224). A write to CMP_THRi moves the thresholds, or is refused with THRERR. -/
  | cmpThresholdWrite (j : Fin 28) (v : Word)
  /-- `CMP_MODE_WRITE` (R223). A write to CMP_MODE changes comparator modes, holding the outputs meanwhile. -/
  | cmpModeWrite (j : Fin 4) (v : Word)
  /-- `CROW_CLEAR` (R231). A write of 1 to TRP_STKY.CROWn clears the crowbar, or is refused while the HI side is asserted. -/
  | crowClear (n : Fin 8)
  /-- `PCLACT_EXPIRE` (R233). NPCL periods pass without a limited firing, and PCLACT falls. -/
  | pclactExpire (n : Fin 8)
  /-- `HICCUP_TRIGGER` (R236). NPCL limited windows or ROCLIM held for ROCDLY trigger a hiccup off or OCFAULT. -/
  | hiccupTrigger (n : Fin 8) (byRoc : Bool) (count : Nat)
  /-- `HICCUP_RESTART` (R237). HICT after a hiccup off, the device writes EN = 1 and restarts the rail. -/
  | hiccupRestart (n : Fin 8)
  /-- `HICCUP_COUNT_CLEAR` (R237). PGOOD held for HICT with no trigger sets HCNT to 0. -/
  | hiccupCountClear (n : Fin 8)
  /-- `UV_ARM` (R239). The rail in HOLD or SLEW for UVBLK µs sets UVARM. -/
  | uvArm (n : Fin 8)
  /-- `UV_FAULT` (R239). The LO side held for UVDLY while armed and PCLACT is 0 sends the UV fault. -/
  | uvFault (n : Fin 8)
  /-- `TRIP_LINE_ACTIVE` (R246). A source line's filtered level becomes active and trips its groups. -/
  | tripLineActive (l : Nat)
  /-- `TRIP_LINE_INACTIVE` (R246). A source line becomes inactive and releases non-latched groups. -/
  | tripLineInactive (l : Nat)
  /-- `TRIP_CLEAR` (R250). A write of 1 to TRP_STKY.TRIPg clears the trip, or is refused while a MAP line is active. -/
  | tripClear (g : Fin 12)
  /-- `AUX_ENABLE` (R266). AUX_CTRL.ENn going from 0 to 1 in OFF starts the channel's soft start. -/
  | auxEnable (n : Fin 4)
  /-- `AUX_DISABLE` (R266). ENn going from 1 to 0 takes both gates low at the next boundary. -/
  | auxDisable (n : Fin 4)
  /-- `AUX_CAPTURE` (R264). At the capture point, the compensator computes the duty and the working copies are loaded. -/
  | auxCapture (n : Fin 4) (vfb ns : Nat)
  /-- `AUX_PERIOD_BOUNDARY` (R261). A period boundary starts the gate schedule of a new period. -/
  | auxPeriodBoundary (n : Fin 4)
  /-- `AUX_DUTY_INSTANT` (R261). At the duty instant, XHGn falls if a low pulse is due. -/
  | auxDutyInstant (n : Fin 4)
  /-- `AUX_DEADTIME_END` (R261). A dead time ends, and the opposite gate rises. -/
  | auxDeadtimeEnd (n : Fin 4)
  /-- `AUX_RELOAD` (R264). AUX_CTRL.RLDn requests that the written values be taken at the next capture point. -/
  | auxReload (n : Fin 4)
  /-- `AUX_FORCE` (R276). A write to Xn_FORCE forces or releases the gates, or is refused with REJ. -/
  | auxForce (n : Fin 4) (v : Word)
  /-- `AUX_GOOD_RISE` (R267). In RUN, 16 µs with neither side of C42+n asserted raises GOODn. -/
  | auxGoodRise (n : Fin 4) (us : Nat)
  /-- `XUV` (R270). The LO side of C42+n held for UVDLY in RUN sends XUV. -/
  | xuv (n : Fin 4) (us : Nat)
  /-- `XOC` (R271). XOCN limited periods in a row turn the channel off, write ENn = 0 and send XOC. -/
  | xoc (n : Fin 4)
  /-- `FAN_PERIOD` (R277). A fan period starts with the duty captured before it. -/
  | fanPeriod
  /-- `FAN_TACH_EDGE` (R278). A filtered falling edge on FANTACH is stamped and updates PERIOD and RPM. -/
  | fanTachEdge
  /-- `FANSTALL` (R278). No tach edge for STALLT ms raises FANSTALL and its fault. -/
  | fanstall (ms : Nat)
  /-- `TLM_BASE_SAMPLE` (R281). A 4 µs base interval ends, giving every channel a base sample, Vin to the loop, and window ends and swaps. -/
  | tlmBaseSample (vin : Option (Vector Nat 2))
  /-- `TLM_SWAP` (R286). TLM_CTRL.SWAP forces a bank swap at the next base sample. -/
  | tlmSwap
  /-- `PKCALL` (R289). TLM_CTRL.PKCALL clears every TLM_PKC. -/
  | pkcall
  /-- `TLM_PEAK_CLEAR` (R289). TLM_PKCTL.CLR clears TLM_PKC of the selected channel. -/
  | tlmPeakClear
  /-- `TLM_PKR_READ` (R289). A complete read of TLM_PKR returns and clears the selected channel's peaks. -/
  | tlmPkrRead
  /-- `WINMON_READ` (R98). A read of Vn_WINMON clears MIN and MAX. -/
  | winmonRead (n : Fin 8)
  /-- `EN_LAT_READ` (R81). A read of En_LAT clears MAX. -/
  | enLatRead (j : Fin 10)
  /-- `CMD_TAGS_READ` (R179). A read of CMD_TAGS clears MINFREE. -/
  | cmdTagsRead
  /-- `FLT_LATCH_READ` (R345). A read of FLT_LATCH clears MAXDEPTH. -/
  | fltLatchRead
  /-- `DEV_TIMEL_READ` (R423). A read of DEV_TIMEL captures the high device-time bits into DEV_TIMEH. -/
  | devTimelRead
  /-- `CRUMB_MERGE` (R290). The merge stage takes the next crumb by producer order, adding TIME or LOST crumbs, into the packer. -/
  | crumbMerge
  /-- `PACK_TIMEOUT` (R294). PACKT after its first byte, the open word is closed into the FIFO. -/
  | packTimeout (us : Nat)
  /-- `CRB_DATA_READ` (R296). A read of CRB_DATA pops the head word, or returns the idle word or a wait. -/
  | crbDataRead (p : HostPort)
  /-- `CRB_FLUSH` (R298). CRB_CTRL.FLUSH empties the FIFO, cuts the partial crumb and emits a FLUSH crumb. -/
  | crbFlush (push slot : Bool)
  /-- `CRB_RSEL_WRITE` (R305). A write of CRB_RSEL empties the receive buffer and sends SYNC. -/
  | crbRselWrite (v : Word)
  /-- `CRB_RDATA_READ` (R305). A read of CRB_RDATA pops the receive buffer and advances RP. -/
  | crbRdataRead (p : HostPort)
  /-- `REQ` (R303). A remote accepts a REQ, frees words up to RP and answers DATA or RESYNC. -/
  | req (h : FrameHead) (rp fp nmax : Nat)
  /-- `SYNC` (R303). A remote answers SYNC with RESYNC. -/
  | sync (h : FrameHead) (nmax : Nat)
  /-- `DATA` (R305). The master appends a DATA frame with the expected FP, or counts it in DUPS. -/
  | data (h : FrameHead) (wp fp : Nat) (words : List Word)
  /-- `RESYNC` (R305). The master empties its buffer and sets RP and FP to the remote's RP. -/
  | resync (h : FrameHead) (wp rp : Nat)
  /-- `CRB_REQUEST` (R305). The master sends a REQ when buffer room allows, or every RPOLL µs. -/
  | crbRequest (us : Nat)
  /-- `CRB_REQ_TIMEOUT` (R306). A request unanswered for RTMO µs is sent again from the same FP. -/
  | crbReqTimeout (us : Nat)
  /-- `HK_ROUND_START` (R311). A round boundary starts the housekeeping conversions. -/
  | hkRoundStart
  /-- `HK_ROUND_END` (R312). The round evaluates validity, limits and rates, updates THM and issues compensation words. -/
  | hkRoundEnd (temps : Vector Int 6) (tmon : Vector Nat 3) (sup : Vector Nat 5) (refs : Vector Int 4)
  /-- `HK_ROUND_ABANDON` (R313). A round unfinished after 2 × PER is abandoned with HKMISS, and four in a row send HKLOST. -/
  | hkRoundAbandon
  /-- `FAULT_MESSAGE` (R332). The collector takes a message from its latch, checks it and applies its class action, sticky bit and reports. -/
  | faultMessage
  /-- `FAULT_RELEASE` (R340). A write of FLT_REL with GO releases a target, or is refused with RELREJ. -/
  | faultRelease (v : Word)
  /-- `CLASS_WRITE` (R334). A write to FSV_CLSi sets source classes, or is refused with CLSREJ. -/
  | classWrite (j : Fin 12) (v : Word)
  /-- `FAULT_FORCE` (R341). A write to FSV_FRCi sends a forced message of the source with FSV_FRCADDR. -/
  | faultForce (j : Fin 3) (v : Word)
  /-- `FLTREG` (R339). A failed parity check of the collector's state takes the DEVICE safe state and sets GRAVE. -/
  | fltreg
  /-- `RUNSVC` (R355). BKH_CTRL.RUNSVC starts the SVC program, or is refused while one runs. -/
  | runsvc
  /-- `PARK` (R361). BKH_CTRL.PARK raises a park request that runs DOWN. -/
  | park
  /-- `ABORT` (R355). BKH_CTRL.ABORT stops the running program at its step boundary. -/
  | abort
  /-- `END` (R350). The END step ends the program, showing RESULT and writing PROGFAIL on FAIL. -/
  | endStep
  /-- `ENABLE` (R352). The ENABLE step writes a rail, aux or SEQ enable, or a release. -/
  | enable
  /-- `WAITGOOD` (R350). The WAITGOOD step starts waiting for a target's good bit to equal WANT. -/
  | waitgood
  /-- `WAITGOOD_SATISFIED` (R354). The awaited good bit reaches WANT and the program moves on. -/
  | waitgoodSatisfied
  /-- `BKHTMO` (R354). A WAITGOOD times out, sets FF and sends BKHTMO. -/
  | bkhtmo
  /-- `DELAY` (R350). The DELAY step starts a wait of ARG units. -/
  | delay
  /-- `DELAY_END` (R354). A DELAY step's wait expires. -/
  | delayEnd
  /-- `CHECK` (R350). The CHECK step reads a register half and sets CF. -/
  | check
  /-- `BRFAULT` (R350). The BRFAULT step branches forward if its condition holds. -/
  | brfault
  /-- `REPORT` (R350). The REPORT step emits a BKH crumb and, with BB, a REPORT record. -/
  | report
  /-- `SEQ_INPUT_CHANGE` (R357). A filtered SEQ input changes level; a watched pin losing good sends SEQPG. -/
  | seqInputChange (j : Fin 16) (level : Bool)
  /-- `WAKE_EDGE` (R360). The HI side of C51 asserting wakes from PARKED or is counted in other states. -/
  | wakeEdge
  /-- `SLEEP_TIMEOUT` (R361). WAKE held low for SLEEPDLY ms raises a park request. -/
  | sleepTimeout
  /-- `MAINEN_RELEASE` (R361). After DOWN, once the records are committed or 5 ms pass, MAINEN is released and the device parks. -/
  | mainenRelease (late : Bool)
  /-- `BB_RECORD_WRITE` (R378). A queued black-box record starts its two-phase write into the log. -/
  | bbRecordWrite
  /-- `FLASH_PROGRAM_DONE` (R378). A page program ends and the record write takes its next step or commits. -/
  | flashProgramDone
  /-- `FLASH_ERASE_DONE` (R379). A sector erase ends, or fails verification and the sector is retired. -/
  | flashEraseDone (ok : Bool)
  /-- `FLEET_REPORT_FORM` (R368). A new fleet report is formed and signed after a read, a nonce write or a summary change. -/
  | fleetReportForm
  /-- `LOG_SCAN_DONE` (R367). The background log scan ends, voiding torn slots, and PART clears. -/
  | logScanDone
  /-- `NVM_PROGRAM` (R377). NVM_OP with OP 1 and GO programs the buffer into a page of the area. -/
  | nvmProgram (p : HostPort)
  /-- `NVM_ERASE` (R377). NVM_OP with OP 2 and GO erases every sector of the area. -/
  | nvmErase (p : HostPort)
  /-- `NVM_READ` (R377). NVM_OP with OP 3 and GO fills the buffer from a page. -/
  | nvmRead (p : HostPort)
  /-- `NVM_OP_DONE` (R377). A host flash operation ends and sets OPDONE. -/
  | nvmOpDone
  /-- `SCRUB` (R382). A scrub run reads one sector and counts corrected words. -/
  | scrub (sector : Fin 64) (corr : Nat) (words : List Nat)
  /-- `CTL_RECORD_WRITE` (R384). A control record is written into the control sectors. -/
  | ctlRecordWrite
  /-- `NVM_HOLD_END` (R381). The flash hold ends; pending commits, rewrites and erases resume. -/
  | nvmHoldEnd
  /-- `KEY_PROVISION` (R386). SEC_KPROG.GO burns a key slot, or is refused with PROVREJ. -/
  | keyProvision (slot : Fin 4)
  /-- `KEY_IMGAUTH` (R386). SEC_KPROG.IMGAUTH burns IMGKEY and the IMGAUTH flag. -/
  | keyImgauth (slot : Fin 4)
  /-- `PROV_CLOSE` (R386). SEC_KPROG.CLOSE burns PROVCLOSED. -/
  | provClose
  /-- `OTP_BURN_DONE` (R386). An OTP burn ends, clears the key registers and computes KCV. -/
  | otpBurnDone
  /-- `SEC_FAIL_DECAY` (R394). FCNT falls by 1 after DECAY × 100 ms without a failure. -/
  | secFailDecay
  /-- `SEC_HOLDOFF_END` (R394). The hold-off expires, and FCNT is set to 7. -/
  | secHoldoffEnd
  /-- `VKEEP_POWER_ON` (R415). VKEEP rising through its POR clears the always-on domain and the GRAVE latch, entering PARKED. -/
  | vkeepPowerOn
  /-- `SUPPLY_RISE` (R404). Core supplies rising to good in PARKED enter WAKING with MAINEN high. -/
  | supplyRise (j : Fin 4)
  /-- `SUPPLY_FALL` (R402). A core supply falling below its threshold puts the core in reset and returns to WAKING. -/
  | supplyFall (j : Fin 4)
  /-- `WAKING_SUPPLY_GOOD` (R404). All core supplies good for 100 µs start BOOT if RST_N is high. -/
  | wakingSupplyGood
  /-- `WAKING_TIMEOUT` (R404). 20 ms in WAKING without good supplies returns to PARKED and counts WAKEFAILS. -/
  | wakingTimeout
  /-- `RST_N_ASSERT` (R416). A low on RST_N for long enough resets the core. -/
  | rstNAssert (ns : Nat)
  /-- `RST_N_RELEASE` (R416). RST_N returning high starts BOOT 5 µs later. -/
  | rstNRelease
  /-- `SWRST` (R416). DEV_CTRL.SWRST resets the device while SWREN is 1. -/
  | swrst
  /-- `COLDNEXT` (R410). DEV_CTRL.COLDNEXT clears FASTOK so that the next BOOT is cold. -/
  | coldnext
  /-- `BOOT_START` (R412). BOOT begins, device time starts at 0 and the straps are read. -/
  | bootStart (a0 a1 : Vector Nat 8)
  /-- `BOOT_PHASE_A_END` (R412). The references settle; C52 to C55, the housekeeping round, SPI and JTAG open. -/
  | bootPhaseAEnd
  /-- `BOOT_PHASE_B_END` (R412). OTP, the trims, the control record and the repair map are read, or BOOT halts on an OTP error. -/
  | bootPhaseBEnd
  /-- `BOOT_PHASE_C_END` (R412). BIST ends and the raised ceilings are committed. -/
  | bootPhaseCEnd (fails : List (Nat × Nat)) (us : Nat)
  /-- `BOOT_PHASE_D_END` (R412). The images are validated, one is applied and the assigned slices are calibrated. -/
  | bootPhaseDEnd (means : Vector Int 24) (csref : Vector Bool 3)
  /-- `BOOT_END` (R412). Programs and log head are loaded, held writes applied, the BOOT record queued and the next state entered. -/
  | bootEnd (us : Nat)
  /-- `SHADOW_REQUEST` (R429). SHGAP after a shadow, the repair block requests SHADOW for the next eligible rail. -/
  | shadowRequest (n : Fin 8) (ms : Nat)
  /-- `MAINT_GRANT` (R437). The arbiter starts a waiting maintenance activity once nothing conflicts with it. -/
  | maintGrant
  /-- `SHADOW_START` (R430). A granted shadow starts at the rail's next firing boundary with a copy of the live state. -/
  | shadowStart
  /-- `SHADOW_PASS` (R430). 65,536 samples without a mismatch pass the shadow. -/
  | shadowPass
  /-- `RETEST_DONE` (R431). A retest ends and the unit becomes a spare or is retired. -/
  | retestDone (unit : Nat) (ok : Bool)
  /-- `BISTBG_RUN` (R428). Background BIST of units not in service is requested after BOOT and every BGP minutes. -/
  | bistbgRun (min : Nat)
  /-- `BGNOW` (R445). RPR_CTRL.BGNOW requests a BISTBG pass. -/
  | bgnow
  /-- `BISTBG_DONE` (R428). A background test of a unit ends and maps it out on failure. -/
  | bistbgDone (unit : Nat) (ok : Bool)
  /-- `RECAL_REQUEST` (R434). Every RECALP seconds a delay-line recalibration is requested. -/
  | recalRequest (secs : Nat)
  /-- `RECAL_DONE` (R434). Recalibration of a region ends and failing tap groups are mapped. -/
  | recalDone (region : Nat) (fails : List Nat)
  /-- `SLCMP_REQUEST` (R433). After each shadow, a slice compare of the rail is requested. -/
  | slcmpRequest
  /-- `SLCMP_DONE` (R433). A slice compare ends and swaps a mismatched slice. -/
  | slcmpDone (inst : Nat) (mism : Bool)
  /-- `REPAIR_MAP_WRITE` (R426). A new repair map is written into both copy sectors. -/
  | repairMapWrite
  /-- `FRZ_PIN_CHANGE` (R438). A filtered change of FRZ requests or withdraws a freeze at PINDEPTH. -/
  | frzPinChange (level : Bool)
  /-- `OBS` (R438). A write of RPR_FRZ.OBS requests or withdraws observe freeze. -/
  | obs (b : Bool)
  /-- `FULL` (R440). A write of 1 to RPR_FRZ.FULL starts full freeze. -/
  | full
  /-- `RECAP` (R442). RPR_FRZ.RECAP recaptures the cooling rack in observe freeze. -/
  | recap
  /-- `FREEZE_ALL_MID` (R440). Once every PWM is in mid, Lenulink turns off, the aux gates go low and the fan runs at FSAFE. -/
  | freezeAllMid
  /-- `FREEZE_HALT` (R440). Handshakes stop and the rack is captured, leaving only JTAG. -/
  | freezeHalt
  /-- `RACKDATA_READ` (R445). A read of RPR_RACKDATA returns a rack word and advances ADDR when INC is 1. -/
  | rackdataRead
  /-- `TAP_RESET` (R443). A TAP reset selects IDCODE. -/
  | tapReset
  /-- `EXTEST` (R443). EXTEST drives the pins from boundary scan only in full freeze or halted BOOT. -/
  | extest (bits : List Bool)
  /-- `SAMPLE_PRELOAD` (R443). SAMPLE/PRELOAD captures and loads the boundary scan register. -/
  | samplePreload (bits : List Bool)
  /-- `IDCODE` (R443). IDCODE returns 0x124089EF. -/
  | idcode
  /-- `REGACC` (R443). REGACC makes a register access through JTAG without read side effects. -/
  | regacc (wr : Bool) (pg off : Nat) (data : Word)
  /-- `FRZ_SCAN` (R443). FRZ_SCAN copies and shifts out the whole rack. -/
  | frzScan
  /-- `FRZ_READ` (R443). FRZ_READ reads one rack word at a set address. -/
  | frzRead (addr : Nat)
  /-- `BYPASS` (R443). BYPASS selects the 1-bit bypass register. The code scanned is its own, or one that R443 does not list. -/
  | bypass (code : Fin 64 := 0x3F)
  /-- `VKEEP_LOSS` (R401). VKEEP falls below its falling threshold, and the whole device, always-on domain included, drops to its unpowered state. -/
  | vkeepLoss
  /-- `SNSOPEN_RELEASE` (R67). The sense-open detector stops tripping, and Vn_STAT.SNSOPEN and the live level of the SNSOPEN source fall. -/
  | snsopenRelease (n : Fin 8)
  /-- `PHASE_ADC_SAMPLE` (R102). A phase ADC slice delivers its 10-bit current sample every 40 ns to the engine, the phase manager and telemetry, updating ISAMP. -/
  | phaseAdcSample (k : Fin 24) (code : Int)
  /-- `GETSTATUS_RETRY` (R165). 125 µs after a NACKed GETSTATUS, the poll is sent again, and the requester departs once the retries are exhausted. -/
  | getstatusRetry (b : Fin 2) (da : Nat) (reply : Option Word)
  /-- `ID_REQUEST_FRAME` (R206). A VC1 identification request for a lent port reaches the lender, which begins fitting the low-segment slope from its own samples. -/
  | idRequestFrame (h : FrameHead) (port : Nat) (ask : Option (Nat × Nat × Nat))
  /-- `CASCADE_CHECK_ANSWER` (R196). A device's step-5 answer reaches the master, and once all have answered the master broadcasts OPEN, or refuses it under R198. -/
  | cascadeCheckAnswer (h : FrameHead) (id : Nat) (busy : Bool)
  /-- `F_LANE_SLOT` (R187). An F-lane IDLE slot arrives, or is emitted by the source, and its SSN is counted and checked, counting a mismatch or code error and taking up the received SSN. -/
  | fLaneSlot (prim chord : Option Nat)
  /-- `DEFAULT_DOWN_WAIT_END` (R356). A wait of the default DOWN ends: the 10 ms limit for rails to reach OFF, or the 100 µs spacing before the next OUT pin is released. -/
  | defaultDownWaitEnd
  deriving DecidableEq, Repr

end Sys2Proof
end

