-- ==== Sys2Proof/Decode.lean ====
section
/-! DEFINITION. The decoder of the table's words: the manual's table of commands gives no row any bits, so no word spells a
command. -/
namespace Sys2Proof

/-- The command that a word of `nbits` bits spells. -/
def decodeTableWord (_nbits _w : Nat) : Option Instr := none

end Sys2Proof
end

