-- ==== Sys2Proof/Machine/Bits.lean ====
section
/-! DEFINITION. Bit fields of a register word, signed fields, saturating and wrapping counts, byte order (R5). -/
namespace Sys2Proof.Machine

/-- A mask of `len` ones at bit `lo`. -/
def fieldMask (lo len : Nat) : Word := BitVec.ofNat 32 ((2 ^ len - 1) * 2 ^ lo)

/-- Bits `[lo + len - 1 : lo]` of a word, unsigned. -/
def getBits (w : Word) (lo len : Nat) : Nat := (w.toNat / 2 ^ lo) % 2 ^ len

/-- The word with bits `[lo + len - 1 : lo]` replaced by the low bits of `v`. -/
def setBits (w : Word) (lo len v : Nat) : Word :=
  BitVec.ofNat 32
    (w.toNat % 2 ^ lo + (v % 2 ^ len) * 2 ^ lo + (w.toNat / 2 ^ (lo + len)) * 2 ^ (lo + len))

/-- Two's-complement value of an unsigned `len`-bit field (R5). -/
def toSigned (len v : Nat) : Int := if v % 2 ^ len < 2 ^ (len - 1) then (v % 2 ^ len : Int) else (v % 2 ^ len : Int) - 2 ^ len

/-- Two's-complement coding of an integer in `len` bits, keeping the low bits (R5). -/
def ofSigned (len : Nat) (x : Int) : Nat := (x % (2 ^ len : Int)).toNat

/-- An integer held between two limits. -/
def clampInt (lo hi x : Int) : Int := if x < lo then lo else if hi < x then hi else x

/-- Two's-complement coding in `len` bits of an integer saturated to the field's range. -/
def ofSignedSat (len : Nat) (x : Int) : Nat := ofSigned len (clampInt (-(2 ^ (len - 1))) (2 ^ (len - 1) - 1) x)

/-- A count of `len` bits increased by `k`, saturating at all ones. -/
def satAdd (len c k : Nat) : Nat := min (2 ^ len - 1) (c + k)

/-- A count of `len` bits increased by `k`, wrapping. -/
def wrapAdd (len c k : Nat) : Nat := (c + k) % 2 ^ len

/-- A field value the manual says is used as 1 when it holds 0. -/
def zeroAsOne (v : Nat) : Nat := if v = 0 then 1 else v

/-- Bit `i` of a word as a Bool. -/
def bitOf (w : Word) (i : Nat) : Bool := w.getLsbD i

/-- The word with bit `i` made `b`. -/
def putBit (w : Word) (i : Nat) (b : Bool) : Word := setBits w i 1 (if b then 1 else 0)

/-- 1 for true, 0 for false. -/
def b2n (b : Bool) : Nat := if b then 1 else 0

/-- The four bytes of a word, least significant first (R5). -/
def wordBytes (w : Word) : List Byte :=
  [BitVec.ofNat 8 w.toNat, BitVec.ofNat 8 (w.toNat / 256), BitVec.ofNat 8 (w.toNat / 65536), BitVec.ofNat 8 (w.toNat / 16777216)]

/-- The number whose bytes stand in the list, least significant first (R5). -/
def leBytes : List Byte → Nat
  | [] => 0
  | b :: t => b.toNat + 256 * leBytes t

/-- `k` bytes of a number, least significant first (R5). -/
def toLeBytes : Nat → Nat → List Byte
  | 0, _ => []
  | k + 1, v => BitVec.ofNat 8 v :: toLeBytes k (v / 256)

/-- The word whose bytes stand in the list, least significant first. -/
def bytesWord (l : List Byte) : Word := BitVec.ofNat 32 (leBytes l)

/-- The nearest integer to `n / d`, ties away from zero (R54). -/
def roundDiv (n : Int) (d : Nat) : Int :=
  if n < 0 then -(((-n) * 2 + d) / (2 * d)) else (n * 2 + d) / (2 * d)

end Sys2Proof.Machine
end

