-- ==== Sys2Proof/Machine/Cipher.lean ====
section
/-! DEFINITION. Checks and authentication: CRC-8 of the SPI frames (R38), CRC-32 of programs, images and records
(R348), and AES-128 CMAC under NIST SP 800-38B (R388). The AES itself stands outside the manual, in FIPS 197
(PRESUMED, log 7). -/
namespace Sys2Proof.Machine

/-- One bit of the CRC-8 of R38. -/
def crc8Bit (x : BitVec 8) : BitVec 8 := if x.msb then (x <<< 1) ^^^ 0x2F#8 else x <<< 1

/-- `k` bits of a CRC step. -/
def iter {α : Type} : Nat → (α → α) → α → α
  | 0, _, x => x
  | k + 1, f, x => iter k f (f x)

/-- The CRC-8 of a list of bytes: polynomial 0x2F, preset 0xFF, most significant bit first (R38). -/
def crc8 (l : List Byte) : Byte := l.foldl (fun r b => iter 8 crc8Bit (r ^^^ b)) 0xFF#8

/-- One bit of the reflected CRC-32 of R348. -/
def crc32Bit (x : BitVec 32) : BitVec 32 := if x.getLsbD 0 then (x >>> 1) ^^^ 0xEDB88320#32 else x >>> 1

/-- The CRC-32 of a list of bytes: polynomial 0x04C11DB7 reflected, preset and final XOR 0xFFFFFFFF (R348). -/
def crc32 (l : List Byte) : Word :=
  l.foldl (fun r b => iter 8 crc32Bit (r ^^^ b.setWidth 32)) 0xFFFFFFFF#32 ^^^ 0xFFFFFFFF#32

/-! ## AES-128 -/

/-- Multiplication by x in GF(2^8). -/
def gfDouble (a : Byte) : Byte := if a.msb then (a <<< 1) ^^^ 0x1B#8 else a <<< 1

/-- Product in GF(2^8), over the low `k` bits of the second factor. -/
def gfMulBits : Nat → Byte → Byte → Byte
  | 0, _, _ => 0
  | k + 1, a, b => (if b.getLsbD 0 then a else 0) ^^^ gfMulBits k (gfDouble a) (b >>> 1)

def gfMul (a b : Byte) : Byte := gfMulBits 8 a b

/-- The inverse in GF(2^8) as the 254th power; 0 for 0. -/
def gfInv (a : Byte) : Byte :=
  let a2 := gfMul a a
  let a3 := gfMul a2 a
  let a6 := gfMul a3 a3
  let a12 := gfMul a6 a6
  let a15 := gfMul a12 a3
  let a240 := iter 4 (fun x => gfMul x x) a15
  gfMul (gfMul a240 a12) a2

/-- The byte substitution. -/
def subByte (a : Byte) : Byte :=
  let b := gfInv a
  b ^^^ b.rotateLeft 1 ^^^ b.rotateLeft 2 ^^^ b.rotateLeft 3 ^^^ b.rotateLeft 4 ^^^ 0x63#8

/-- Byte `i` of a block. -/
def byteAt (l : List Byte) (i : Nat) : Byte := (l[i]?).getD 0

def xorBytes (a b : List Byte) : List Byte := List.zipWith (· ^^^ ·) a b

/-- Rows shifted: byte (r, c) comes from column c + r. -/
def shiftRows (s : List Byte) : List Byte := (List.range 16).map (fun i => byteAt s ((i + 4 * (i % 4)) % 16))

/-- One column mixed. -/
def mixColumn (s : List Byte) (c : Nat) : List Byte :=
  let a (i : Nat) : Byte := byteAt s (4 * c + i % 4)
  (List.range 4).map (fun i => gfDouble (a i) ^^^ (gfDouble (a (i + 1)) ^^^ a (i + 1)) ^^^ a (i + 2) ^^^ a (i + 3))

def mixColumns (s : List Byte) : List Byte := (List.range 4).flatMap (mixColumn s)

/-- The next round key. -/
def nextKey (k : List Byte) (rcon : Byte) : List Byte :=
  let t := [subByte (byteAt k 13) ^^^ rcon, subByte (byteAt k 14), subByte (byteAt k 15), subByte (byteAt k 12)]
  let w0 := xorBytes (k.take 4) t
  let w1 := xorBytes ((k.drop 4).take 4) w0
  let w2 := xorBytes ((k.drop 8).take 4) w1
  let w3 := xorBytes ((k.drop 12).take 4) w2
  w0 ++ w1 ++ w2 ++ w3

/-- `n` rounds left, the last one without the column mix. -/
def aesRounds : Nat → Byte → List Byte → List Byte → List Byte
  | 0, _, _, s => s
  | n + 1, rcon, k, s =>
    let k' := nextKey k rcon
    let s' := shiftRows (s.map subByte)
    aesRounds n (gfDouble rcon) k' (xorBytes (if n = 0 then s' else mixColumns s') k')

/-- AES-128 of one 16-byte block. -/
def aes128 (key block : List Byte) : List Byte := aesRounds 10 0x01#8 key (xorBytes block key)

/-! ## CMAC -/

/-- A 16-byte string shifted left by one bit, with the constant of the subkeys where a bit falls out. -/
def cmacDouble (l : List Byte) : List Byte :=
  let n := l.foldl (fun a b => a * 256 + b.toNat) 0
  let d := (2 * n) % 2 ^ 128
  (toLeBytes 16 (if n < 2 ^ 127 then d else d ^^^ 0x87)).reverse

/-- The CBC chain over whole blocks, at most `fuel` of them. -/
def cbcChain (key : List Byte) : Nat → List Byte → List Byte → List Byte
  | 0, x, _ => x
  | _ + 1, x, [] => x
  | n + 1, x, m => cbcChain key n (aes128 key (xorBytes x (m.take 16))) (m.drop 16)

/-- AES-128 CMAC of a message (NIST SP 800-38B). -/
def cmac (key msg : List Byte) : List Byte :=
  let k1 := cmacDouble (aes128 key (List.replicate 16 0))
  let nb := (msg.length + 15) / 16
  let full := msg.length ≠ 0 && msg.length % 16 = 0
  let head := msg.take (16 * (nb - 1))
  let tail := msg.drop (16 * (nb - 1))
  let last := if full then xorBytes tail k1
    else xorBytes (tail ++ [0x80#8] ++ List.replicate (15 - tail.length) 0) (cmacDouble k1)
  aes128 key (xorBytes (cbcChain key nb (List.replicate 16 0) head) last)

/-- The first 8 bytes of a CMAC (R366, R374). -/
def tag8 (key msg : List Byte) : List Byte := (cmac key msg).take 8

end Sys2Proof.Machine
end

