-- ==== Sys2Proof/Config.lean ====
section
/-! DEFINITION. What an implementation of the VYH2408 fixes and the manual leaves open: the free values. Each is a
constant with no body, so no proof can see what it is; a statement about one holds for every value it may have. The
step applies it to `State.free`, a plain counter, and advances the counter, so that each use is a fresh value. -/
namespace Sys2Proof.Config

/-- A word whose value the manual leaves open, the `i`-th one asked for (log 6). -/
opaque freeWord : Nat → Word

/-- A byte whose value the manual leaves open (log 6). -/
opaque freeByte : Nat → Byte

/-- A choice the manual leaves open between two outcomes (log 6). -/
opaque freeBool : Nat → Bool

end Sys2Proof.Config
end

