-- ==== Sys2Proof/Machine/RegMap.lean ====
section
/-! DEFINITION. The register map: one `Field` for every field of every register table of the manual (R25, R61, R98,
R99, R133, R134, R177, R179 to R182, R219, R256, R258, R280, R308, R310, R327, R345, R347, R370, R397, R399, R423,
R445), with its offset, its bits, its access code (R7) and its reset value, and the page map of R32. A field whose
reset value a table gives by reference ("live", "per BOOT", "map", "OTP", "control record", "ball") is computed when
it is read or set by BOOT, and its stored reset is 0. -/
namespace Sys2Proof.Machine

/-- The access codes of R7. -/
inductive Access where
  | ro | rw | w1c | w1s
  | rwl (lg : Nat)
  | au
  deriving DecidableEq, Repr

/-- One field of one register of a page: its offset, lowest bit, length, access code and reset value. -/
structure Field where
  off : Nat
  lo : Nat
  len : Nat
  acc : Access
  rst : Nat
  deriving DecidableEq, Repr

/-- The kinds of page of R32; the indexed sets count once. -/
inductive PageKind where
  | dev | flt | fsv | thm | tlm | crb | cmd | sec | nvm | bkh | lnk | aux | cmp | trp | rpr | hst | v | p | e | ctx | tag | orp
  deriving DecidableEq, Repr

/-- The page numbers of R32. -/
def pgDEV : Nat := 0x00
def pgFLT : Nat := 0x01
def pgFSV : Nat := 0x02
def pgTHM : Nat := 0x03
def pgTLM : Nat := 0x04
def pgCRB : Nat := 0x05
def pgCMD : Nat := 0x06
def pgSEC : Nat := 0x07
def pgNVM : Nat := 0x08
def pgBKH : Nat := 0x09
def pgLNK : Nat := 0x0A
def pgAUX : Nat := 0x0B
def pgCMP : Nat := 0x0C
def pgTRP : Nat := 0x0D
def pgRPR : Nat := 0x0E
def pgHST : Nat := 0x0F
def pgV (n : Nat) : Nat := 0x10 + n
def pgP (k : Nat) : Nat := 0x18 + k
def pgE (j : Nat) : Nat := 0x30 + j
def pgCTX (i : Nat) : Nat := 0x40 + i / 16
def pgTAG (t : Nat) : Nat := 0x44 + t / 32
def pgORP : Nat := 0x48

/-- The kind of an implemented page; none for a page that is not implemented (R32). -/
def kindOf (pg : Nat) : Option PageKind :=
  match pg with
  | 0x00 => some .dev | 0x01 => some .flt | 0x02 => some .fsv | 0x03 => some .thm | 0x04 => some .tlm
  | 0x05 => some .crb | 0x06 => some .cmd | 0x07 => some .sec | 0x08 => some .nvm | 0x09 => some .bkh
  | 0x0A => some .lnk | 0x0B => some .aux | 0x0C => some .cmp | 0x0D => some .trp | 0x0E => some .rpr
  | 0x0F => some .hst
  | _ =>
    if pg < 0x18 then some .v else if pg < 0x30 then some .p else if pg < 0x3A then some .e
    else if pg < 0x40 then none else if pg < 0x44 then some .ctx else if pg < 0x48 then some .tag
    else if pg = 0x48 then some .orp else none

/-- Block type code (R32). -/
def blkType : PageKind → Nat
  | .dev => 0x01 | .flt => 0x02 | .fsv => 0x03 | .thm => 0x04 | .tlm => 0x05 | .crb => 0x06 | .cmd => 0x07
  | .sec => 0x08 | .nvm => 0x09 | .bkh => 0x0A | .lnk => 0x0B | .aux => 0x0C | .cmp => 0x0D | .trp => 0x0E
  | .rpr => 0x0F | .hst => 0x10 | .v => 0x20 | .p => 0x21 | .e => 0x22 | .ctx => 0x23 | .tag => 0x24 | .orp => 0x25

/-- Instance index of a page (R32). -/
def pageInst (pg : Nat) : Nat :=
  match kindOf pg with
  | some .v => pg - 0x10 | some .p => pg - 0x18 | some .e => pg - 0x30
  | some .ctx => pg - 0x40 | some .tag => pg - 0x44 | _ => 0

/-- The word of the ID register of a page (R25, R32). -/
def idWord (pg : Nat) : Nat :=
  match kindOf pg with
  | some k => pg * 2 ^ 24 + blkType k * 2 ^ 16 + 0xB1 * 2 ^ 8 + pageInst pg
  | none => 0

/-- The bits of STAT, STKY, IEN and FRC that a page's chapter gives a condition (R61, R98, R99, R133, R134, R176,
R178, R218, R255, R257, R279, R307, R309, R326, R344, R346, R369, R396, R398, R422, R444; none on the context,
tag and orphan pages, R180 to R182). The other bits are reserved and read 0 (R9). -/
def condMask : PageKind → Nat
  | .dev => 0x1F | .flt => 0x1FF | .fsv => 0x1 | .thm => 0xFFFF3FFF | .tlm => 0x3 | .crb => 0x3F | .cmd => 0x1FF
  | .sec => 0x3F | .nvm => 0x7FF | .bkh => 0x3FF | .lnk => 0x3FFF | .aux => 0x07FFFFFF | .cmp => 0xFFFFFFFF
  | .trp => 0xFFFF1FFF | .rpr => 0x1FFF | .hst => 0x01FF03FF | .v => 0x01FF03FF | .p => 0x3FF | .e => 0x3F
  | .ctx => 0 | .tag => 0 | .orp => 0

/-- Reset value of IEN: page FLT and page DEV name one (R344, R422). -/
def ienReset : PageKind → Nat
  | .flt => 0x2 | .dev => 0x4 | _ => 0

/-! Fields of the page head (R25). -/
def H_STAT : Field := ⟨0x08, 0, 32, .ro, 0⟩
def H_STKY : Field := ⟨0x0C, 0, 32, .w1c, 0⟩
def H_IEN : Field := ⟨0x10, 0, 32, .rw, 0⟩
def H_LCK_FRCLK : Field := ⟨0x18, 4, 1, .w1s, 0⟩
def H_LCK_LG : Field := ⟨0x18, 0, 4, .w1s, 0⟩
def H_EVC_COUNT : Field := ⟨0x1C, 0, 16, .ro, 0⟩

/-- Reset thresholds of the comparators, LO in the first component and HI in the second (R225). -/
def cmpThrReset (c : Nat) : Nat × Nat :=
  if c < 8 then (0x00, 0xFF) else if c < 32 then (0x80, 0x7F) else if c < 46 then (0x00, 0xFF)
  else if c < 50 then (0x80, 0x7F) else if c = 50 then (0xB5, 0xE7) else if c = 51 then (0x4D, 0xB3) else (0xF6, 0x0A)

/-- Lock group of a CMP_THR register (R256). -/
def cmpThrLock (i : Nat) : Nat := if i < 4 then 0 else if i = 16 then 0 else if i < 16 then 1 else 2

/-- Lock group of a CMP_HYS register (R256). -/
def cmpHysLock (i : Nat) : Nat := if i = 0 then 0 else if i < 4 then 1 else 2

/-- Default class of each fault source (R333); a number that R333 does not list reads 0. -/
def classDefault (s : Nat) : Nat :=
  if s ∈ [0x00, 0x01, 0x02, 0x04, 0x05, 0x06, 0x07, 0x10, 0x14, 0x15, 0x19, 0x1B, 0x23, 0x25, 0x3B, 0x3F, 0x52] then 2
  else if s ∈ [0x08, 0x11, 0x12, 0x13, 0x1A, 0x1C, 0x20, 0x22, 0x24, 0x26, 0x29, 0x2A, 0x2B, 0x2C, 0x32, 0x33, 0x39,
    0x3A, 0x3D, 0x3E, 0x42, 0x43, 0x44, 0x45, 0x46, 0x48, 0x49, 0x4A] then 1
  else if s ∈ [0x17, 0x18, 0x21, 0x27, 0x28, 0x2D, 0x2E, 0x5E] then 3
  else if s = 0x5F then 4 else 0

/-- The word of default classes of FSV_CLSi (R347). -/
def clsWord (i : Nat) : Nat := (List.range 8).foldl (fun a j => a + classDefault (8 * i + j) * 2 ^ (4 * j)) 0

/-! Page DEV (R423). -/
def DEV_CTRL_SWRST : Field := ⟨0x04, 0, 1, .w1s, 0⟩
def DEV_CTRL_COLDNEXT : Field := ⟨0x04, 1, 1, .w1s, 0⟩
def DEV_PSTATE_STATE : Field := ⟨0x20, 0, 3, .ro, 2⟩
def DEV_PSTATE_HALT : Field := ⟨0x20, 3, 1, .ro, 0⟩
def DEV_PSTATE_CAUSE : Field := ⟨0x20, 8, 3, .ro, 0⟩
def DEV_PSTATE_COLD : Field := ⟨0x20, 16, 1, .ro, 0⟩
def DEV_BOOTT_US : Field := ⟨0x24, 0, 16, .ro, 0⟩
def DEV_CFG_COLDALL : Field := ⟨0x28, 0, 1, .rwl 0, 0⟩
def DEV_CFG_SWREN : Field := ⟨0x28, 1, 1, .rwl 0, 1⟩
def DEV_WAKEINFO_WAKES : Field := ⟨0x2C, 0, 8, .ro, 0⟩
def DEV_WAKEINFO_WAKEFAILS : Field := ⟨0x2C, 8, 8, .ro, 0⟩
def DEV_WAKEINFO_FASTOK : Field := ⟨0x2C, 16, 1, .ro, 0⟩
def DEV_WAKEINFO_LASTGRAVE : Field := ⟨0x2C, 17, 1, .ro, 0⟩
def DEV_TIMEL_TIME : Field := ⟨0x30, 0, 32, .ro, 0⟩
def DEV_TIMEH_TIME : Field := ⟨0x34, 0, 16, .ro, 0⟩
/-- The fields of page DEV beyond its head. -/
def fieldsDEV : List Field :=
  [DEV_CTRL_SWRST, DEV_CTRL_COLDNEXT, DEV_PSTATE_STATE, DEV_PSTATE_HALT, DEV_PSTATE_CAUSE, DEV_PSTATE_COLD, DEV_BOOTT_US, DEV_CFG_COLDALL]
  ++ [DEV_CFG_SWREN, DEV_WAKEINFO_WAKES, DEV_WAKEINFO_WAKEFAILS, DEV_WAKEINFO_FASTOK, DEV_WAKEINFO_LASTGRAVE, DEV_TIMEL_TIME, DEV_TIMEH_TIME]

/-! Page FLT (R345). -/
def FLT_CFG_FNCLS : Field := ⟨0x20, 0, 3, .rwl 0, 1⟩
def FLT_SSTK_STK (i : Nat) : Field := ⟨0x24 + 4 * i, 0, 32, .w1c, 0⟩
def FLT_SLIVE_LIVE (i : Nat) : Field := ⟨0x30 + 4 * i, 0, 32, .ro, 0⟩
def FLT_FIRST_MSG : Field := ⟨0x3C, 0, 32, .ro, 0⟩
def FLT_FIRSTT_TIME : Field := ⟨0x40, 0, 32, .ro, 0⟩
def FLT_LAST_MSG : Field := ⟨0x44, 0, 32, .ro, 0⟩
def FLT_LASTT_TIME : Field := ⟨0x48, 0, 32, .ro, 0⟩
def FLT_CNT_MSGS : Field := ⟨0x4C, 0, 16, .ro, 0⟩
def FLT_CNT_MSGERR : Field := ⟨0x4C, 16, 16, .ro, 0⟩
def FLT_REL_TGT : Field := ⟨0x50, 0, 4, .rw, 0⟩
def FLT_REL_COUNT : Field := ⟨0x50, 8, 8, .rw, 0⟩
def FLT_REL_GO : Field := ⟨0x50, 16, 1, .w1s, 0⟩
def FLT_HOLD_FIRST (i : Nat) : Field := ⟨0x54 + 4 * i, 0, 8, .ro, 0xFF⟩
def FLT_HOLD_COUNT (i : Nat) : Field := ⟨0x54 + 4 * i, 8, 8, .ro, 0⟩
def FLT_HOLD_BUSY (i : Nat) : Field := ⟨0x54 + 4 * i, 16, 1, .ro, 0⟩
def FLT_HOLD_HELD (i : Nat) : Field := ⟨0x54 + 4 * i, 17, 1, .ro, 0⟩
def FLT_HOLD_LIVESRC (i : Nat) : Field := ⟨0x54 + 4 * i, 24, 8, .ro, 0xFF⟩
def FLT_LATCH_DEPTH : Field := ⟨0x88, 0, 5, .ro, 0⟩
def FLT_LATCH_MAXDEPTH : Field := ⟨0x88, 8, 5, .ro, 0⟩
def FLT_GRAVE_MSG : Field := ⟨0x8C, 0, 32, .ro, 0⟩
def FLT_GRAVET_TIME : Field := ⟨0x90, 0, 32, .ro, 0⟩
/-- The fields of page FLT beyond its head. -/
def fieldsFLT : List Field :=
  [FLT_CFG_FNCLS, FLT_FIRST_MSG, FLT_FIRSTT_TIME, FLT_LAST_MSG, FLT_LASTT_TIME, FLT_CNT_MSGS, FLT_CNT_MSGERR, FLT_REL_TGT]
  ++ [FLT_REL_COUNT, FLT_REL_GO, FLT_LATCH_DEPTH, FLT_LATCH_MAXDEPTH, FLT_GRAVE_MSG, FLT_GRAVET_TIME]
  ++ (List.range 3).map FLT_SSTK_STK
  ++ (List.range 3).map FLT_SLIVE_LIVE
  ++ (List.range 12).map FLT_HOLD_FIRST
  ++ (List.range 12).map FLT_HOLD_COUNT
  ++ (List.range 12).map FLT_HOLD_BUSY
  ++ (List.range 12).map FLT_HOLD_HELD
  ++ (List.range 12).map FLT_HOLD_LIVESRC

/-! Page FSV (R347). -/
def FSV_FRC_FRC (i : Nat) : Field := ⟨0x50 + 4 * i, 0, 32, .w1s, 0⟩
def FSV_FRCADDR_ADDR : Field := ⟨0x5C, 0, 16, .rw, 0⟩
def FSV_CLS_CLASS (s : Nat) : Field := ⟨0x20 + 4 * (s / 8), 4 * (s % 8), 3, .rwl 0, classDefault s⟩
/-- The fields of page FSV beyond its head. -/
def fieldsFSV : List Field :=
  [FSV_FRCADDR_ADDR]
  ++ (List.range 3).map FSV_FRC_FRC
  ++ (List.range 96).map FSV_CLS_CLASS

/-! Page THM (R327). -/
def THM_CFG_PER : Field := ⟨0x20, 0, 6, .rwl 0, 4⟩
def THM_CFG_TCONF : Field := ⟨0x20, 8, 3, .rwl 0, 2⟩
def THM_CFG_XCNT : Field := ⟨0x20, 12, 4, .rwl 0, 3⟩
def THM_CFG_XCHK : Field := ⟨0x20, 16, 8, .rwl 0, 8⟩
def THM_CFG_VIO33 : Field := ⟨0x20, 24, 1, .rwl 0, 0⟩
def THM_CFG_CHOLD : Field := ⟨0x20, 25, 1, .rwl 0, 0⟩
def THM_LIM_TJWARN : Field := ⟨0x24, 0, 8, .rwl 0, 0x8C⟩
def THM_LIM_TSD : Field := ⟨0x24, 8, 8, .rwl 0, 0xA5⟩
def THM_LIM_TSDHYS : Field := ⟨0x24, 16, 8, .rwl 0, 0x14⟩
def THM_LIM_RRK : Field := ⟨0x24, 24, 4, .rwl 0, 8⟩
def THM_RATE_RRLIM : Field := ⟨0x28, 0, 12, .rwl 0, 0xC8⟩
def THM_RATE_SRRLIM : Field := ⟨0x28, 16, 12, .rwl 1, 0xC8⟩
def THM_T_TEMP (i : Nat) : Field := ⟨0x2C + 4 * i, 0, 16, .ro, 0⟩
def THM_T_VALID (i : Nat) : Field := ⟨0x2C + 4 * i, 16, 1, .ro, 1⟩
def THM_T_EXCL (i : Nat) : Field := ⟨0x2C + 4 * i, 17, 1, .ro, 0⟩
def THM_T_DEV (i : Nat) : Field := ⟨0x2C + 4 * i, 24, 8, .ro, 0⟩
def THM_TJ_TJ : Field := ⟨0x44, 0, 16, .ro, 0⟩
def THM_TJ_SRC : Field := ⟨0x44, 16, 3, .ro, 0⟩
def THM_TMONCFG_V0C (i : Nat) : Field := ⟨0x48 + 4 * i, 0, 12, .rwl 1, 0x258⟩
def THM_TMONCFG_GAIN (i : Nat) : Field := ⟨0x48 + 4 * i, 16, 8, .rwl 1, 0x20⟩
def THM_TMON_TEMP (i : Nat) : Field := ⟨0x54 + 4 * i, 0, 16, .ro, 0⟩
def THM_TMON_VALID (i : Nat) : Field := ⟨0x54 + 4 * i, 16, 1, .ro, 0⟩
def THM_OTL_OT (i : Nat) : Field := ⟨0x60 + 4 * i, 0, 8, .rwl 1, 0x7D⟩
def THM_OTL_WARN (i : Nat) : Field := ⟨0x60 + 4 * i, 8, 8, .rwl 1, 0x6E⟩
def THM_SUP_V (i : Nat) : Field := ⟨0x80 + 4 * i, 0, 12, .ro, 0⟩
def THM_SUP_INWIN (i : Nat) : Field := ⟨0x80 + 4 * i, 16, 1, .ro, 0⟩
def THM_CREF_TREF : Field := ⟨0x94, 0, 16, .ro, 0⟩
def THM_CREF_BG : Field := ⟨0x94, 16, 16, .ro, 0⟩
def THM_CDLY0_R0 : Field := ⟨0x98, 0, 10, .ro, 0⟩
def THM_CDLY0_R1 : Field := ⟨0x98, 10, 10, .ro, 0⟩
def THM_CDLY0_R2 : Field := ⟨0x98, 20, 10, .ro, 0⟩
def THM_CDLY1_R3 : Field := ⟨0x9C, 0, 10, .ro, 0⟩
def THM_CDLY1_R4 : Field := ⟨0x9C, 10, 10, .ro, 0⟩
def THM_CDLY1_R5 : Field := ⟨0x9C, 20, 10, .ro, 0⟩
def THM_RNDCNT_COUNT : Field := ⟨0xA0, 0, 32, .ro, 0⟩
def THM_LASTRND_TIME : Field := ⟨0xA4, 0, 32, .ro, 0⟩
/-- The fields of page THM beyond its head. -/
def fieldsTHM : List Field :=
  [THM_CFG_PER, THM_CFG_TCONF, THM_CFG_XCNT, THM_CFG_XCHK, THM_CFG_VIO33, THM_CFG_CHOLD, THM_LIM_TJWARN, THM_LIM_TSD]
  ++ [THM_LIM_TSDHYS, THM_LIM_RRK, THM_RATE_RRLIM, THM_RATE_SRRLIM, THM_TJ_TJ, THM_TJ_SRC, THM_CREF_TREF, THM_CREF_BG]
  ++ [THM_CDLY0_R0, THM_CDLY0_R1, THM_CDLY0_R2, THM_CDLY1_R3, THM_CDLY1_R4, THM_CDLY1_R5, THM_RNDCNT_COUNT, THM_LASTRND_TIME]
  ++ (List.range 6).map THM_T_TEMP
  ++ (List.range 6).map THM_T_VALID
  ++ (List.range 6).map THM_T_EXCL
  ++ (List.range 6).map THM_T_DEV
  ++ (List.range 3).map THM_TMONCFG_V0C
  ++ (List.range 3).map THM_TMONCFG_GAIN
  ++ (List.range 3).map THM_TMON_TEMP
  ++ (List.range 3).map THM_TMON_VALID
  ++ (List.range 8).map THM_OTL_OT
  ++ (List.range 8).map THM_OTL_WARN
  ++ (List.range 5).map THM_SUP_V
  ++ (List.range 5).map THM_SUP_INWIN

/-! Page TLM (R308). -/
def TLM_CTRL_SWAP : Field := ⟨0x04, 0, 1, .w1s, 0⟩
def TLM_CTRL_PKCALL : Field := ⟨0x04, 1, 1, .w1s, 0⟩
def TLM_AVG_KV : Field := ⟨0x20, 0, 4, .rwl 0, 8⟩
def TLM_AVG_KI : Field := ⟨0x20, 4, 4, .rwl 0, 8⟩
def TLM_AVG_KP : Field := ⟨0x20, 8, 4, .rwl 0, 8⟩
def TLM_AVG_KPH : Field := ⟨0x20, 12, 4, .rwl 0, 6⟩
def TLM_AVG_KVIN : Field := ⟨0x20, 16, 4, .rwl 0, 6⟩
def TLM_AVG_KIIN : Field := ⟨0x20, 20, 4, .rwl 0, 8⟩
def TLM_FRAME_FK : Field := ⟨0x24, 0, 4, .rwl 0, 8⟩
def TLM_FRAME_AUTO : Field := ⟨0x24, 4, 1, .rwl 0, 1⟩
def TLM_BANK_SEQ : Field := ⟨0x28, 0, 16, .ro, 0⟩
def TLM_BANK_BANK : Field := ⟨0x28, 16, 1, .ro, 0⟩
def TLM_SEL_CH : Field := ⟨0x2C, 0, 7, .rw, 0⟩
def TLM_VAL_VALUE : Field := ⟨0x30, 0, 32, .ro, 0⟩
def TLM_PKR_MIN : Field := ⟨0x34, 0, 16, .ro, 0⟩
def TLM_PKR_MAX : Field := ⟨0x34, 16, 16, .ro, 0⟩
def TLM_PKC_MIN : Field := ⟨0x38, 0, 16, .ro, 0⟩
def TLM_PKC_MAX : Field := ⟨0x38, 16, 16, .ro, 0⟩
def TLM_PKCTL_CLR : Field := ⟨0x3C, 0, 1, .w1s, 0⟩
def TLM_RAIL_V (i : Nat) : Field := ⟨0x40 + 4 * i, 0, 16, .ro, 0⟩
def TLM_RAIL_I (i : Nat) : Field := ⟨0x40 + 4 * i, 16, 16, .ro, 0⟩
def TLM_VIN_V (i : Nat) : Field := ⟨0x60 + 4 * i, 0, 17, .ro, 0⟩
def TLM_IIN_I (i : Nat) : Field := ⟨0x68 + 4 * i, 0, 24, .ro, 0⟩
def TLM_CRB_CLASS : Field := ⟨0x70, 0, 8, .rw, 0⟩
def TLM_CRB_DEC : Field := ⟨0x70, 8, 4, .rw, 0⟩
def TLM_CRB_RAILS : Field := ⟨0x70, 16, 8, .rw, 0xFF⟩
/-- The fields of page TLM beyond its head. -/
def fieldsTLM : List Field :=
  [TLM_CTRL_SWAP, TLM_CTRL_PKCALL, TLM_AVG_KV, TLM_AVG_KI, TLM_AVG_KP, TLM_AVG_KPH, TLM_AVG_KVIN, TLM_AVG_KIIN]
  ++ [TLM_FRAME_FK, TLM_FRAME_AUTO, TLM_BANK_SEQ, TLM_BANK_BANK, TLM_SEL_CH, TLM_VAL_VALUE, TLM_PKR_MIN, TLM_PKR_MAX]
  ++ [TLM_PKC_MIN, TLM_PKC_MAX, TLM_PKCTL_CLR, TLM_CRB_CLASS, TLM_CRB_DEC, TLM_CRB_RAILS]
  ++ (List.range 8).map TLM_RAIL_V
  ++ (List.range 8).map TLM_RAIL_I
  ++ (List.range 2).map TLM_VIN_V
  ++ (List.range 2).map TLM_IIN_I

/-! Page CRB (R310). -/
def CRB_CTRL_FLUSH : Field := ⟨0x04, 0, 1, .w1s, 0⟩
def CRB_CFG_DEST : Field := ⟨0x20, 0, 1, .rwl 0, 0⟩
def CRB_CFG_PACKT : Field := ⟨0x20, 8, 8, .rwl 0, 1⟩
def CRB_CFG_PRODEN : Field := ⟨0x20, 16, 5, .rwl 0, 0x1F⟩
def CRB_DATA_WORD : Field := ⟨0x24, 0, 32, .ro, 0⟩
def CRB_CNT_WORDS : Field := ⟨0x28, 0, 11, .ro, 0⟩
def CRB_CNT_LVL : Field := ⟨0x28, 16, 11, .rw, 0x100⟩
def CRB_EVEN_CODES : Field := ⟨0x2C, 0, 16, .rw, 0xFFF⟩
def CRB_LOST_COUNT : Field := ⟨0x30, 0, 16, .ro, 0⟩
def CRB_LOST_FLWORDS : Field := ⟨0x30, 16, 16, .ro, 0⟩
def CRB_LASTFL_PART : Field := ⟨0x34, 0, 8, .ro, 0xFF⟩
def CRB_LASTFL_WORDS : Field := ⟨0x34, 16, 11, .ro, 0⟩
def CRB_RSEL_ID : Field := ⟨0x38, 0, 8, .rw, 0⟩
def CRB_RDATA_WORD : Field := ⟨0x3C, 0, 32, .ro, 0⟩
def CRB_RCNT_WORDS : Field := ⟨0x40, 0, 11, .ro, 0⟩
def CRB_RCNT_BUF : Field := ⟨0x40, 16, 7, .ro, 0⟩
def CRB_RCFG_RTMO : Field := ⟨0x44, 0, 8, .rw, 0x14⟩
def CRB_RCFG_RPOLL : Field := ⟨0x44, 8, 8, .rw, 0xA⟩
def CRB_RPTR_RP : Field := ⟨0x48, 0, 11, .ro, 0⟩
def CRB_RPTR_WPLAST : Field := ⟨0x48, 16, 11, .ro, 0⟩
def CRB_RSTAT_RETRY : Field := ⟨0x4C, 0, 16, .ro, 0⟩
def CRB_RSTAT_DUPS : Field := ⟨0x4C, 16, 16, .ro, 0⟩
def CRB_PTR_WP : Field := ⟨0x50, 0, 11, .ro, 0⟩
def CRB_PTR_RP : Field := ⟨0x50, 16, 11, .ro, 0⟩
/-- The fields of page CRB beyond its head. -/
def fieldsCRB : List Field :=
  [CRB_CTRL_FLUSH, CRB_CFG_DEST, CRB_CFG_PACKT, CRB_CFG_PRODEN, CRB_DATA_WORD, CRB_CNT_WORDS, CRB_CNT_LVL, CRB_EVEN_CODES]
  ++ [CRB_LOST_COUNT, CRB_LOST_FLWORDS, CRB_LASTFL_PART, CRB_LASTFL_WORDS, CRB_RSEL_ID, CRB_RDATA_WORD, CRB_RCNT_WORDS, CRB_RCNT_BUF]
  ++ [CRB_RCFG_RTMO, CRB_RCFG_RPOLL, CRB_RPTR_RP, CRB_RPTR_WPLAST, CRB_RSTAT_RETRY, CRB_RSTAT_DUPS, CRB_PTR_WP, CRB_PTR_RP]

/-! Page CMD (R179). -/
def CMD_CTRL_RXEN : Field := ⟨0x04, 0, 1, .rw, 1⟩
def CMD_CTRL_FLUSHALL : Field := ⟨0x04, 1, 1, .w1s, 0⟩
def CMD_CFG_RETRY : Field := ⟨0x20, 0, 4, .rwl 0, 8⟩
def CMD_CFG_OVFHOLD : Field := ⟨0x20, 8, 8, .rwl 0, 0xA⟩
def CMD_CFG_POLL : Field := ⟨0x20, 16, 8, .rw, 0x32⟩
def CMD_KEYMASK_KEYS : Field := ⟨0x24, 0, 4, .rwl 1, 0⟩
def CMD_FLUSH_CTX : Field := ⟨0x28, 0, 7, .rw, 0⟩
def CMD_FLUSH_GO : Field := ⟨0x28, 8, 1, .w1s, 0⟩
def CMD_TAGS_FREE : Field := ⟨0x2C, 0, 8, .ro, 0x80⟩
def CMD_TAGS_MINFREE : Field := ⟨0x2C, 8, 8, .ro, 0x80⟩
def CMD_OVF_NREQ : Field := ⟨0x30, 0, 8, .ro, 0⟩
def CMD_OVF_INFLIGHT : Field := ⟨0x30, 8, 4, .ro, 0⟩
def CMD_VOTESEL_CTX : Field := ⟨0x34, 0, 6, .rw, 0⟩
def CMD_VOTESEL_RAIL : Field := ⟨0x34, 8, 3, .rw, 0⟩
def CMD_VOTERD_CODE : Field := ⟨0x38, 0, 12, .ro, 0⟩
def CMD_VOTERD_ACTIVE : Field := ⟨0x38, 12, 1, .ro, 0⟩
def CMD_VOTERD_RATE : Field := ⟨0x38, 16, 10, .ro, 0⟩
def CMD_LASTERR_TAG : Field := ⟨0x3C, 0, 7, .ro, 0⟩
def CMD_LASTERR_REFUSED : Field := ⟨0x3C, 7, 1, .ro, 0⟩
def CMD_LASTERR_CODE : Field := ⟨0x3C, 8, 8, .ro, 0⟩
def CMD_LASTERR_CTX : Field := ⟨0x3C, 16, 7, .ro, 0⟩
def CMD_OVFV_CODE (i : Nat) : Field := ⟨0x40 + 4 * i, 0, 12, .ro, 0⟩
def CMD_OVFV_ACTIVE (i : Nat) : Field := ⟨0x40 + 4 * i, 12, 1, .ro, 0⟩
def CMD_OVFV_REMAIN (i : Nat) : Field := ⟨0x40 + 4 * i, 16, 16, .ro, 0⟩
def CMD_RAIL_VOPEN (i : Nat) : Field := ⟨0x60 + 4 * i, 0, 12, .rwl 0, 0xE10⟩
def CMD_RAIL_LB0EN (i : Nat) : Field := ⟨0x60 + 4 * i, 12, 1, .rwl 0, 1⟩
def CMD_RAIL_LB1EN (i : Nat) : Field := ⟨0x60 + 4 * i, 13, 1, .rwl 0, 1⟩
def CMD_RAIL_OVFEN (i : Nat) : Field := ⟨0x60 + 4 * i, 14, 1, .rwl 0, 1⟩
def CMD_RAIL_WCTX (i : Nat) : Field := ⟨0x60 + 4 * i, 16, 7, .ro, 0x7F⟩
def CMD_UID0_UID : Field := ⟨0x80, 0, 32, .ro, 0⟩
def CMD_UID1_UID : Field := ⟨0x84, 0, 32, .ro, 0⟩
def CMD_AUTHCNT_PASS : Field := ⟨0x88, 0, 16, .ro, 0⟩
def CMD_AUTHCNT_FAIL : Field := ⟨0x88, 16, 16, .ro, 0⟩
def CMD_ITEMS_COUNT : Field := ⟨0x8C, 0, 32, .ro, 0⟩
/-- The fields of page CMD beyond its head. -/
def fieldsCMD : List Field :=
  [CMD_CTRL_RXEN, CMD_CTRL_FLUSHALL, CMD_CFG_RETRY, CMD_CFG_OVFHOLD, CMD_CFG_POLL, CMD_KEYMASK_KEYS, CMD_FLUSH_CTX, CMD_FLUSH_GO]
  ++ [CMD_TAGS_FREE, CMD_TAGS_MINFREE, CMD_OVF_NREQ, CMD_OVF_INFLIGHT, CMD_VOTESEL_CTX, CMD_VOTESEL_RAIL, CMD_VOTERD_CODE, CMD_VOTERD_ACTIVE]
  ++ [CMD_VOTERD_RATE, CMD_LASTERR_TAG, CMD_LASTERR_REFUSED, CMD_LASTERR_CODE, CMD_LASTERR_CTX, CMD_UID0_UID, CMD_UID1_UID, CMD_AUTHCNT_PASS]
  ++ [CMD_AUTHCNT_FAIL, CMD_ITEMS_COUNT]
  ++ (List.range 8).map CMD_OVFV_CODE
  ++ (List.range 8).map CMD_OVFV_ACTIVE
  ++ (List.range 8).map CMD_OVFV_REMAIN
  ++ (List.range 8).map CMD_RAIL_VOPEN
  ++ (List.range 8).map CMD_RAIL_LB0EN
  ++ (List.range 8).map CMD_RAIL_LB1EN
  ++ (List.range 8).map CMD_RAIL_OVFEN
  ++ (List.range 8).map CMD_RAIL_WCTX

/-! Page SEC (R399). -/
def SEC_CFG_RSK : Field := ⟨0x20, 0, 5, .rwl 0, 0x10⟩
def SEC_CFG_HOLDT : Field := ⟨0x20, 8, 8, .rwl 0, 0x64⟩
def SEC_CFG_DECAY : Field := ⟨0x20, 16, 8, .rwl 0, 0xA⟩
def SEC_KSTATE_PROV : Field := ⟨0x24, 0, 4, .ro, 0⟩
def SEC_KSTATE_REV : Field := ⟨0x24, 4, 4, .ro, 0⟩
def SEC_KSTATE_DAMAGED : Field := ⟨0x24, 8, 4, .ro, 0⟩
def SEC_KSTATE_PROVCLOSED : Field := ⟨0x24, 12, 1, .ro, 0⟩
def SEC_KSTATE_IMGAUTH : Field := ⟨0x24, 13, 1, .ro, 0⟩
def SEC_KSTATE_IMGKEY : Field := ⟨0x24, 14, 2, .ro, 0⟩
def SEC_KLD_KEY (i : Nat) : Field := ⟨0x28 + 4 * i, 0, 32, .rw, 0⟩
def SEC_KPROG_SLOT : Field := ⟨0x38, 0, 2, .rw, 0⟩
def SEC_KPROG_GO : Field := ⟨0x38, 8, 1, .w1s, 0⟩
def SEC_KPROG_CLOSE : Field := ⟨0x38, 9, 1, .w1s, 0⟩
def SEC_KPROG_IMGAUTH : Field := ⟨0x38, 10, 1, .w1s, 0⟩
def SEC_KPROG_BUSY : Field := ⟨0x38, 16, 1, .ro, 0⟩
def SEC_KCV_KCV (i : Nat) : Field := ⟨0x3C + 4 * i, 0, 32, .ro, 0⟩
def SEC_REVOKE_REV : Field := ⟨0x4C, 0, 4, .au, 0⟩
def SEC_CTR_LAST (i : Nat) : Field := ⟨0x50 + 4 * i, 0, 32, .ro, 0⟩
def SEC_CEIL_CEIL (i : Nat) : Field := ⟨0x60 + 4 * i, 0, 32, .ro, 0⟩
def SEC_FRCEIL_CEIL : Field := ⟨0x70, 0, 32, .ro, 0⟩
def SEC_FAIL_FCNT : Field := ⟨0x74, 0, 4, .ro, 0⟩
def SEC_FAIL_LEVEL : Field := ⟨0x74, 4, 3, .ro, 0⟩
def SEC_FAIL_REMAIN : Field := ⟨0x74, 16, 16, .ro, 0⟩
def SEC_CNT_MACS : Field := ⟨0x78, 0, 16, .ro, 0⟩
def SEC_CNT_FAILS : Field := ⟨0x78, 16, 16, .ro, 0⟩
/-- The fields of page SEC beyond its head. -/
def fieldsSEC : List Field :=
  [SEC_CFG_RSK, SEC_CFG_HOLDT, SEC_CFG_DECAY, SEC_KSTATE_PROV, SEC_KSTATE_REV, SEC_KSTATE_DAMAGED, SEC_KSTATE_PROVCLOSED, SEC_KSTATE_IMGAUTH]
  ++ [SEC_KSTATE_IMGKEY, SEC_KPROG_SLOT, SEC_KPROG_GO, SEC_KPROG_CLOSE, SEC_KPROG_IMGAUTH, SEC_KPROG_BUSY, SEC_REVOKE_REV, SEC_FRCEIL_CEIL]
  ++ [SEC_FAIL_FCNT, SEC_FAIL_LEVEL, SEC_FAIL_REMAIN, SEC_CNT_MACS, SEC_CNT_FAILS]
  ++ (List.range 4).map SEC_KLD_KEY
  ++ (List.range 4).map SEC_KCV_KCV
  ++ (List.range 4).map SEC_CTR_LAST
  ++ (List.range 4).map SEC_CEIL_CEIL

/-! Page NVM (R397). -/
def NVM_IMG_ACTIVE : Field := ⟨0x20, 0, 1, .ro, 0⟩
def NVM_IMG_NONE : Field := ⟨0x20, 1, 1, .ro, 0⟩
def NVM_IMG_VALIDA : Field := ⟨0x20, 2, 1, .ro, 0⟩
def NVM_IMG_VALIDB : Field := ⟨0x20, 3, 1, .ro, 0⟩
def NVM_IMG_PREF : Field := ⟨0x20, 8, 1, .rw, 0⟩
def NVM_VER_VERSION (i : Nat) : Field := ⟨0x24 + 4 * i, 0, 32, .ro, 0⟩
def NVM_MINVER_MINVER : Field := ⟨0x2C, 0, 32, .au, 0⟩
def NVM_OPADDR_OFFSET : Field := ⟨0x30, 0, 17, .rw, 0⟩
def NVM_OPADDR_AREA : Field := ⟨0x30, 20, 3, .rw, 0⟩
def NVM_OP_OP : Field := ⟨0x34, 0, 2, .rw, 0⟩
def NVM_OP_GO : Field := ⟨0x34, 8, 1, .w1s, 0⟩
def NVM_OP_BUSY : Field := ⟨0x34, 9, 1, .ro, 0⟩
def NVM_BUF_DATA (i : Nat) : Field := ⟨0x38 + 4 * i, 0, 32, .rw, 0xFFFFFFFF⟩
def NVM_TORN_COUNT : Field := ⟨0x58, 0, 16, .ro, 0⟩
def NVM_ECC_CORR : Field := ⟨0x5C, 0, 16, .ro, 0⟩
def NVM_ECC_UNCOR : Field := ⟨0x5C, 16, 16, .ro, 0⟩
def NVM_SPARE_FREE : Field := ⟨0x60, 0, 4, .ro, 0⟩
def NVM_SPARE_LASTRET : Field := ⟨0x60, 8, 6, .ro, 0x3F⟩
def NVM_LOG_RECS : Field := ⟨0x64, 0, 11, .ro, 0⟩
def NVM_LOG_HEADSEC : Field := ⟨0x64, 16, 6, .ro, 0⟩
def NVM_LOG_HEADSLOT : Field := ⟨0x64, 22, 5, .ro, 0⟩
def NVM_WEAR_LOGERASE : Field := ⟨0x68, 0, 24, .ro, 0⟩
def NVM_CTLSEQ_CTLSEQ : Field := ⟨0x6C, 0, 32, .ro, 0⟩
def NVM_CFG_SCRUBP : Field := ⟨0x70, 0, 8, .rwl 0, 0x3C⟩
def NVM_CFG_RETN : Field := ⟨0x70, 8, 4, .rwl 0, 4⟩
def NVM_BBERASE_GO : Field := ⟨0x74, 0, 1, .au, 0⟩
/-- The fields of page NVM beyond its head. -/
def fieldsNVM : List Field :=
  [NVM_IMG_ACTIVE, NVM_IMG_NONE, NVM_IMG_VALIDA, NVM_IMG_VALIDB, NVM_IMG_PREF, NVM_MINVER_MINVER, NVM_OPADDR_OFFSET, NVM_OPADDR_AREA]
  ++ [NVM_OP_OP, NVM_OP_GO, NVM_OP_BUSY, NVM_TORN_COUNT, NVM_ECC_CORR, NVM_ECC_UNCOR, NVM_SPARE_FREE, NVM_SPARE_LASTRET]
  ++ [NVM_LOG_RECS, NVM_LOG_HEADSEC, NVM_LOG_HEADSLOT, NVM_WEAR_LOGERASE, NVM_CTLSEQ_CTLSEQ, NVM_CFG_SCRUBP, NVM_CFG_RETN, NVM_BBERASE_GO]
  ++ (List.range 2).map NVM_VER_VERSION
  ++ (List.range 8).map NVM_BUF_DATA

/-! Page BKH (R370). -/
def BKH_CTRL_RUNSVC : Field := ⟨0x04, 0, 1, .w1s, 0⟩
def BKH_CTRL_PARK : Field := ⟨0x04, 1, 1, .w1s, 0⟩
def BKH_CTRL_ABORT : Field := ⟨0x04, 2, 1, .w1s, 0⟩
def BKH_CFG_BBCLS : Field := ⟨0x20, 0, 3, .rwl 0, 1⟩
def BKH_CFG_SEQSAFE : Field := ⟨0x20, 3, 1, .rwl 0, 1⟩
def BKH_CFG_FRKEY : Field := ⟨0x20, 4, 2, .rwl 0, 0⟩
def BKH_CFG_FREN : Field := ⟨0x20, 6, 1, .rwl 0, 1⟩
def BKH_PROG_PROG : Field := ⟨0x24, 0, 2, .ro, 0⟩
def BKH_PROG_ACTIVE : Field := ⟨0x24, 2, 1, .ro, 0⟩
def BKH_PROG_CF : Field := ⟨0x24, 3, 1, .ro, 0⟩
def BKH_PROG_FF : Field := ⟨0x24, 4, 1, .ro, 0⟩
def BKH_PROG_STEP : Field := ⟨0x24, 8, 6, .ro, 0⟩
def BKH_PROG_RESULT : Field := ⟨0x24, 16, 8, .ro, 0⟩
def BKH_PROG_LASTFAIL : Field := ⟨0x24, 24, 1, .ro, 0⟩
def BKH_WAKE_SLEEPDLY : Field := ⟨0x28, 0, 16, .rwl 0, 0x3E8⟩
def BKH_WAKE_WAKEEN : Field := ⟨0x28, 16, 1, .rwl 0, 1⟩
def BKH_WAKE_EDGES : Field := ⟨0x28, 24, 8, .ro, 0⟩
def BKH_SEQINV_INV : Field := ⟨0x30, 0, 16, .rwl 1, 0⟩
def BKH_SEQINV_DGL : Field := ⟨0x30, 16, 2, .rwl 1, 1⟩
def BKH_SEQOUT_DRV : Field := ⟨0x3C, 0, 16, .rw, 0⟩
def BKH_SEQST_LEVEL : Field := ⟨0x40, 0, 16, .ro, 0⟩
def BKH_SEQST_WATCH : Field := ⟨0x40, 16, 16, .ro, 0⟩
def BKH_LOAD_VALID : Field := ⟨0x44, 0, 4, .ro, 0⟩
def BKH_BBSEQ_RECSEQ : Field := ⟨0x48, 0, 32, .ro, 0⟩
def BKH_BBCNT_QDEPTH : Field := ⟨0x4C, 0, 5, .ro, 0⟩
def BKH_BBCNT_DROP : Field := ⟨0x4C, 16, 16, .ro, 0⟩
def BKH_BOOTCNT_COUNT : Field := ⟨0x50, 0, 16, .ro, 0⟩
def BKH_FRCNT_COUNT : Field := ⟨0x54, 0, 32, .ro, 0⟩
def BKH_FRNONCE_NONCE (i : Nat) : Field := ⟨0x58 + 4 * i, 0, 32, .rw, 0⟩
def BKH_SUMM_RECS : Field := ⟨0x60, 0, 11, .ro, 0⟩
def BKH_SUMM_PART : Field := ⟨0x60, 16, 1, .ro, 1⟩
def BKH_SEQROLE_ROLE (i : Nat) : Field := ⟨0x2C, 2 * i, 2, .rwl 1, 0⟩
def BKH_SEQPAIR_PAIR (i : Nat) : Field := ⟨0x34 + 4 * (i / 8), 4 * (i % 8), 4, .rwl 1, 0⟩
/-- The fields of page BKH beyond its head. -/
def fieldsBKH : List Field :=
  [BKH_CTRL_RUNSVC, BKH_CTRL_PARK, BKH_CTRL_ABORT, BKH_CFG_BBCLS, BKH_CFG_SEQSAFE, BKH_CFG_FRKEY, BKH_CFG_FREN, BKH_PROG_PROG]
  ++ [BKH_PROG_ACTIVE, BKH_PROG_CF, BKH_PROG_FF, BKH_PROG_STEP, BKH_PROG_RESULT, BKH_PROG_LASTFAIL, BKH_WAKE_SLEEPDLY, BKH_WAKE_WAKEEN]
  ++ [BKH_WAKE_EDGES, BKH_SEQINV_INV, BKH_SEQINV_DGL, BKH_SEQOUT_DRV, BKH_SEQST_LEVEL, BKH_SEQST_WATCH, BKH_LOAD_VALID, BKH_BBSEQ_RECSEQ]
  ++ [BKH_BBCNT_QDEPTH, BKH_BBCNT_DROP, BKH_BOOTCNT_COUNT, BKH_FRCNT_COUNT, BKH_SUMM_RECS, BKH_SUMM_PART]
  ++ (List.range 2).map BKH_FRNONCE_NONCE
  ++ (List.range 16).map BKH_SEQROLE_ROLE ++ (List.range 16).map BKH_SEQPAIR_PAIR

/-! Page LNK (R219). -/
def LNK_CTRL_EN : Field := ⟨0x04, 0, 1, .rw, 0⟩
def LNK_CTRL_OPEN : Field := ⟨0x04, 1, 1, .w1s, 0⟩
def LNK_ID_DEVID : Field := ⟨0x20, 0, 8, .ro, 0⟩
def LNK_ID_NDEV : Field := ⟨0x20, 8, 8, .ro, 0⟩
def LNK_ID_RSTATE : Field := ⟨0x20, 16, 3, .ro, 0⟩
def LNK_ID_FCAUSE : Field := ⟨0x20, 20, 3, .ro, 0⟩
def LNK_ID_FRAIL : Field := ⟨0x20, 24, 3, .ro, 0⟩
def LNK_SLOTMAP_OWNER (i : Nat) : Field := ⟨0x24 + 4 * i, 0, 32, .rwl 0, 0⟩
def LNK_MYSLOT_LABELS : Field := ⟨0x34, 0, 16, .ro, 0⟩
def LNK_MYSLOT_GAP : Field := ⟨0x34, 16, 5, .ro, 0⟩
def LNK_MEAS_FWD : Field := ⟨0x38, 0, 9, .ro, 0⟩
def LNK_MEAS_CHOFS : Field := ⟨0x38, 16, 10, .ro, 0⟩
def LNK_RTT_RTT : Field := ⟨0x3C, 0, 16, .ro, 0⟩
def LNK_TOPOSEL_ID : Field := ⟨0x40, 0, 8, .rw, 1⟩
def LNK_TOPODAT_HOP : Field := ⟨0x44, 0, 9, .ro, 0⟩
def LNK_TOPODAT_FROMM : Field := ⟨0x44, 16, 16, .ro, 0⟩
def LNK_CNT0_CODEERR : Field := ⟨0x48, 0, 16, .ro, 0⟩
def LNK_CNT0_CHORDSW : Field := ⟨0x48, 16, 16, .ro, 0⟩
def LNK_CNT1_LATE : Field := ⟨0x4C, 0, 16, .ro, 0⟩
def LNK_CNT1_MISS : Field := ⟨0x4C, 16, 16, .ro, 0⟩
def LNK_CNT2_BRK : Field := ⟨0x50, 0, 16, .ro, 0⟩
def LNK_CNT2_FRMLOST : Field := ⟨0x50, 16, 16, .ro, 0⟩
def LNK_LOAD_FLOAD : Field := ⟨0x54, 0, 10, .ro, 0⟩
def LNK_LOAD_DLOAD : Field := ⟨0x54, 16, 10, .ro, 0⟩
def LNK_ORDSEL_RAIL : Field := ⟨0x58, 0, 3, .rw, 0⟩
def LNK_ORDSEL_IDX : Field := ⟨0x58, 8, 8, .rw, 0⟩
def LNK_ORDDAT_DEVID : Field := ⟨0x5C, 0, 8, .rwl 1, 0⟩
def LNK_ORDDAT_PORT : Field := ⟨0x5C, 8, 5, .rwl 1, 0⟩
def LNK_ORDDAT_USED : Field := ⟨0x5C, 15, 1, .rwl 1, 0⟩
def LNK_CR_BUDGET (i : Nat) : Field := ⟨0x60 + 4 * i, 0, 9, .rwl 1, 0x64⟩
def LNK_CR_NMINC (i : Nat) : Field := ⟨0x60 + 4 * i, 16, 9, .rwl 1, 1⟩
def LNK_CR_CASC (i : Nat) : Field := ⟨0x60 + 4 * i, 28, 1, .rwl 1, 0⟩
def LNK_LEND_OWNER (i : Nat) : Field := ⟨0x80 + 4 * i, 0, 8, .rwl 2, 0⟩
def LNK_LEND_ORAIL (i : Nat) : Field := ⟨0x80 + 4 * i, 8, 3, .rwl 2, 0⟩
def LNK_LEND_EN (i : Nat) : Field := ⟨0x80 + 4 * i, 15, 1, .rwl 2, 0⟩
def LNK_LEND_TMO (i : Nat) : Field := ⟨0x80 + 4 * i, 16, 8, .rwl 2, 0xA⟩
def LNK_LEND_BOUND (i : Nat) : Field := ⟨0x80 + 4 * i, 24, 1, .ro, 0⟩
def LNK_CRST_GSC (i : Nat) : Field := ⟨0xE0 + 4 * i, 0, 8, .ro, 0x80⟩
def LNK_CRST_NREM (i : Nat) : Field := ⟨0xE0 + 4 * i, 8, 8, .ro, 0⟩
def LNK_CRST_READY (i : Nat) : Field := ⟨0xE0 + 4 * i, 24, 1, .ro, 0⟩
def LNK_CRST_DROP (i : Nat) : Field := ⟨0xE0 + 4 * i, 25, 1, .ro, 0⟩
/-- The fields of page LNK beyond its head. -/
def fieldsLNK : List Field :=
  [LNK_CTRL_EN, LNK_CTRL_OPEN, LNK_ID_DEVID, LNK_ID_NDEV, LNK_ID_RSTATE, LNK_ID_FCAUSE, LNK_ID_FRAIL, LNK_MYSLOT_LABELS]
  ++ [LNK_MYSLOT_GAP, LNK_MEAS_FWD, LNK_MEAS_CHOFS, LNK_RTT_RTT, LNK_TOPOSEL_ID, LNK_TOPODAT_HOP, LNK_TOPODAT_FROMM, LNK_CNT0_CODEERR]
  ++ [LNK_CNT0_CHORDSW, LNK_CNT1_LATE, LNK_CNT1_MISS, LNK_CNT2_BRK, LNK_CNT2_FRMLOST, LNK_LOAD_FLOAD, LNK_LOAD_DLOAD, LNK_ORDSEL_RAIL]
  ++ [LNK_ORDSEL_IDX, LNK_ORDDAT_DEVID, LNK_ORDDAT_PORT, LNK_ORDDAT_USED]
  ++ (List.range 4).map LNK_SLOTMAP_OWNER
  ++ (List.range 8).map LNK_CR_BUDGET
  ++ (List.range 8).map LNK_CR_NMINC
  ++ (List.range 8).map LNK_CR_CASC
  ++ (List.range 24).map LNK_LEND_OWNER
  ++ (List.range 24).map LNK_LEND_ORAIL
  ++ (List.range 24).map LNK_LEND_EN
  ++ (List.range 24).map LNK_LEND_TMO
  ++ (List.range 24).map LNK_LEND_BOUND
  ++ (List.range 8).map LNK_CRST_GSC
  ++ (List.range 8).map LNK_CRST_NREM
  ++ (List.range 8).map LNK_CRST_READY
  ++ (List.range 8).map LNK_CRST_DROP

/-! Page AUX (R280). -/
def AUX_CTRL_FANEN : Field := ⟨0x04, 8, 1, .rw, 0⟩
def AUX_XCFG_MODE (i : Nat) : Field := ⟨0x20 + 32 * i, 0, 1, .rwl 0, 0⟩
def AUX_XCFG_RLDMODE (i : Nat) : Field := ⟨0x20 + 32 * i, 1, 1, .rwl 0, 0⟩
def AUX_XCFG_FFEN (i : Nat) : Field := ⟨0x20 + 32 * i, 2, 1, .rwl 0, 1⟩
def AUX_XCFG_VINSEL (i : Nat) : Field := ⟨0x20 + 32 * i, 3, 1, .rwl 0, 0⟩
def AUX_XCFG_OVLS (i : Nat) : Field := ⟨0x20 + 32 * i, 4, 1, .rwl 0, 0⟩
def AUX_XCFG_XOCN (i : Nat) : Field := ⟨0x20 + 32 * i, 8, 8, .rwl 0, 0x10⟩
def AUX_XCFG_UVDLY (i : Nat) : Field := ⟨0x20 + 32 * i, 16, 8, .rwl 0, 0x14⟩
def AUX_XCFG_SST (i : Nat) : Field := ⟨0x20 + 32 * i, 24, 8, .rwl 0, 0x40⟩
def AUX_XPER_PERIOD (i : Nat) : Field := ⟨0x24 + 32 * i, 0, 11, .rwl 1, 0x190⟩
def AUX_XDUTY_DUTY (i : Nat) : Field := ⟨0x28 + 32 * i, 0, 13, .rw, 0⟩
def AUX_XDT_DTLH (i : Nat) : Field := ⟨0x2C + 32 * i, 0, 8, .rwl 1, 0x28⟩
def AUX_XDT_DTHL (i : Nat) : Field := ⟨0x2C + 32 * i, 8, 8, .rwl 1, 0x28⟩
def AUX_XLOOP_KP (i : Nat) : Field := ⟨0x30 + 32 * i, 0, 8, .rwl 0, 0x10⟩
def AUX_XLOOP_KI (i : Nat) : Field := ⟨0x30 + 32 * i, 8, 8, .rwl 0, 1⟩
def AUX_XLOOP_XRATIO (i : Nat) : Field := ⟨0x30 + 32 * i, 16, 12, .rwl 0, 0x10⟩
def AUX_XTGT_TGT (i : Nat) : Field := ⟨0x34 + 32 * i, 0, 12, .rw, 0⟩
def AUX_XFORCE_FEN (i : Nat) : Field := ⟨0x38 + 32 * i, 0, 1, .rw, 0⟩
def AUX_XFORCE_FHS (i : Nat) : Field := ⟨0x38 + 32 * i, 1, 1, .rw, 0⟩
def AUX_XFORCE_FLS (i : Nat) : Field := ⟨0x38 + 32 * i, 2, 1, .rw, 0⟩
def AUX_XMON_VFB (i : Nat) : Field := ⟨0x3C + 32 * i, 0, 12, .ro, 0⟩
def AUX_XMON_DAPL (i : Nat) : Field := ⟨0x3C + 32 * i, 12, 13, .ro, 0⟩
def AUX_XMON_STATE (i : Nat) : Field := ⟨0x3C + 32 * i, 25, 3, .ro, 0⟩
def AUX_XMON_TRIP (i : Nat) : Field := ⟨0x3C + 32 * i, 28, 1, .ro, 0⟩
def AUX_XMON_ILIM (i : Nat) : Field := ⟨0x3C + 32 * i, 29, 1, .ro, 0⟩
def AUX_XMON_LATE (i : Nat) : Field := ⟨0x3C + 32 * i, 30, 1, .ro, 0⟩
def AUX_XDAPP_PSEQ (i : Nat) : Field := ⟨0xA0 + 4 * i, 0, 16, .ro, 0⟩
def AUX_XDAPP_PCNT (i : Nat) : Field := ⟨0xA0 + 4 * i, 16, 16, .ro, 0⟩
def AUX_FANCFG_FPER : Field := ⟨0xB0, 0, 12, .rwl 2, 0x140⟩
def AUX_FANCFG_PPR : Field := ⟨0xB0, 12, 4, .rwl 2, 2⟩
def AUX_FANCFG_FSAFE : Field := ⟨0xB0, 16, 9, .rwl 2, 0x100⟩
def AUX_FANCFG_POL : Field := ⟨0xB0, 25, 1, .rwl 2, 0⟩
def AUX_FANDUTY_DUTY : Field := ⟨0xB4, 0, 9, .rw, 0x100⟩
def AUX_FANTACH_PERIOD : Field := ⟨0xB8, 0, 16, .ro, 0xFFFF⟩
def AUX_FANTACH_RPM : Field := ⟨0xB8, 16, 16, .ro, 0⟩
def AUX_FANSTALL_STALLT : Field := ⟨0xBC, 0, 8, .rwl 2, 0⟩
def AUX_CTRL_EN (n : Nat) : Field := ⟨0x04, n, 1, .rw, 0⟩
def AUX_CTRL_RLD (n : Nat) : Field := ⟨0x04, 4 + n, 1, .w1s, 0⟩
/-- The fields of page AUX beyond its head. -/
def fieldsAUX : List Field :=
  [AUX_CTRL_FANEN, AUX_FANCFG_FPER, AUX_FANCFG_PPR, AUX_FANCFG_FSAFE, AUX_FANCFG_POL, AUX_FANDUTY_DUTY, AUX_FANTACH_PERIOD, AUX_FANTACH_RPM]
  ++ [AUX_FANSTALL_STALLT]
  ++ (List.range 4).map AUX_XCFG_MODE
  ++ (List.range 4).map AUX_XCFG_RLDMODE
  ++ (List.range 4).map AUX_XCFG_FFEN
  ++ (List.range 4).map AUX_XCFG_VINSEL
  ++ (List.range 4).map AUX_XCFG_OVLS
  ++ (List.range 4).map AUX_XCFG_XOCN
  ++ (List.range 4).map AUX_XCFG_UVDLY
  ++ (List.range 4).map AUX_XCFG_SST
  ++ (List.range 4).map AUX_XPER_PERIOD
  ++ (List.range 4).map AUX_XDUTY_DUTY
  ++ (List.range 4).map AUX_XDT_DTLH
  ++ (List.range 4).map AUX_XDT_DTHL
  ++ (List.range 4).map AUX_XLOOP_KP
  ++ (List.range 4).map AUX_XLOOP_KI
  ++ (List.range 4).map AUX_XLOOP_XRATIO
  ++ (List.range 4).map AUX_XTGT_TGT
  ++ (List.range 4).map AUX_XFORCE_FEN
  ++ (List.range 4).map AUX_XFORCE_FHS
  ++ (List.range 4).map AUX_XFORCE_FLS
  ++ (List.range 4).map AUX_XMON_VFB
  ++ (List.range 4).map AUX_XMON_DAPL
  ++ (List.range 4).map AUX_XMON_STATE
  ++ (List.range 4).map AUX_XMON_TRIP
  ++ (List.range 4).map AUX_XMON_ILIM
  ++ (List.range 4).map AUX_XMON_LATE
  ++ (List.range 4).map AUX_XDAPP_PSEQ
  ++ (List.range 4).map AUX_XDAPP_PCNT
  ++ (List.range 4).map AUX_CTRL_EN ++ (List.range 4).map AUX_CTRL_RLD

/-! Page CMP (R256). -/
def CMP_THR_LO0 (i : Nat) : Field := ⟨0x20 + 4 * i, 0, 8, .rwl (cmpThrLock i), (cmpThrReset (2 * i)).1⟩
def CMP_THR_HI0 (i : Nat) : Field := ⟨0x20 + 4 * i, 8, 8, .rwl (cmpThrLock i), (cmpThrReset (2 * i)).2⟩
def CMP_THR_LO1 (i : Nat) : Field := ⟨0x20 + 4 * i, 16, 8, .rwl (cmpThrLock i), (cmpThrReset (2 * i + 1)).1⟩
def CMP_THR_HI1 (i : Nat) : Field := ⟨0x20 + 4 * i, 24, 8, .rwl (cmpThrLock i), (cmpThrReset (2 * i + 1)).2⟩
def CMP_MODE0_FAST : Field := ⟨0xAC, 0, 32, .rwl 3, 0xFFFFFFFF⟩
def CMP_MODE1_FAST : Field := ⟨0xB0, 0, 24, .rwl 3, 0⟩
def CMP_MODE2_SLOW : Field := ⟨0xB4, 0, 32, .rwl 3, 0⟩
def CMP_MODE3_SLOW : Field := ⟨0xB8, 0, 24, .rwl 3, 0⟩
def CMP_MODE3_PICO50 : Field := ⟨0xB8, 24, 1, .rwl 3, 0⟩
def CMP_MODE3_PICO51 : Field := ⟨0xB8, 25, 1, .rwl 3, 0⟩
def CMP_OUTLO0_OUT : Field := ⟨0xBC, 0, 32, .ro, 0⟩
def CMP_OUTLO1_OUT : Field := ⟨0xC0, 0, 24, .ro, 0⟩
def CMP_OUTHI0_OUT : Field := ⟨0xC4, 0, 32, .ro, 0⟩
def CMP_OUTHI1_OUT : Field := ⟨0xC8, 0, 24, .ro, 0⟩
def CMP_HITLO0_HIT : Field := ⟨0xCC, 0, 32, .w1c, 0⟩
def CMP_HITLO1_HIT : Field := ⟨0xD0, 0, 24, .w1c, 0⟩
def CMP_HITHI0_HIT : Field := ⟨0xD4, 0, 32, .w1c, 0⟩
def CMP_HITHI1_HIT : Field := ⟨0xD8, 0, 24, .w1c, 0⟩
def CMP_VINCFG_DIV0 : Field := ⟨0xDC, 0, 10, .rwl 0, 0x10⟩
def CMP_VINCFG_DIV1 : Field := ⟨0xDC, 16, 10, .rwl 0, 0x10⟩
def CMP_INCFG_FMEN : Field := ⟨0xE0, 0, 8, .rwl 2, 0⟩
def CMP_INCFG_SAFEHI : Field := ⟨0xE0, 8, 8, .rwl 2, 0⟩
def CMP_INCFG_SAFELO : Field := ⟨0xE0, 16, 8, .rwl 2, 0xFF⟩
def CMP_HYS_H (c : Nat) : Field := ⟨0x90 + 4 * (c / 8), 4 * (c % 8), 4, .rwl (cmpHysLock (c / 8)), 2⟩
/-- The fields of page CMP beyond its head. -/
def fieldsCMP : List Field :=
  [CMP_MODE0_FAST, CMP_MODE1_FAST, CMP_MODE2_SLOW, CMP_MODE3_SLOW, CMP_MODE3_PICO50, CMP_MODE3_PICO51, CMP_OUTLO0_OUT, CMP_OUTLO1_OUT]
  ++ [CMP_OUTHI0_OUT, CMP_OUTHI1_OUT, CMP_HITLO0_HIT, CMP_HITLO1_HIT, CMP_HITHI0_HIT, CMP_HITHI1_HIT, CMP_VINCFG_DIV0, CMP_VINCFG_DIV1]
  ++ [CMP_INCFG_FMEN, CMP_INCFG_SAFEHI, CMP_INCFG_SAFELO]
  ++ (List.range 28).map CMP_THR_LO0
  ++ (List.range 28).map CMP_THR_HI0
  ++ (List.range 28).map CMP_THR_LO1
  ++ (List.range 28).map CMP_THR_HI1
  ++ (List.range 56).map CMP_HYS_H

/-! Page TRP (R258). -/
def TRP_SRC_SEL (i : Nat) : Field := ⟨0x20 + 4 * i, 0, 8, .rwl 0, 0xFF⟩
def TRP_SRC_INV (i : Nat) : Field := ⟨0x20 + 4 * i, 8, 1, .rwl 0, 0⟩
def TRP_SRC_DGL (i : Nat) : Field := ⟨0x20 + 4 * i, 9, 3, .rwl 0, 0⟩
def TRP_GRP_MAP (i : Nat) : Field := ⟨0x60 + 4 * i, 0, 16, .rwl 0, 0⟩
def TRP_GRP_LATCH (i : Nat) : Field := ⟨0x60 + 4 * i, 16, 1, .rwl 0, 1⟩
def TRP_GRP_ACT (i : Nat) : Field := ⟨0x60 + 4 * i, 17, 1, .rwl 0, 0⟩
def TRP_CFG_LENTGRP : Field := ⟨0x90, 0, 4, .rwl 2, 0xF⟩
def TRP_SWTRIP_LEVEL : Field := ⟨0x94, 0, 1, .rw, 0⟩
def TRP_SRCST_LIVE : Field := ⟨0x98, 0, 16, .ro, 0⟩
def TRP_SRCST_HIT : Field := ⟨0x98, 16, 16, .w1c, 0⟩
def TRP_RAIL_OVMODE (i : Nat) : Field := ⟨0xA0 + 4 * i, 0, 1, .rwl 1, 0⟩
def TRP_RAIL_OVOFF (i : Nat) : Field := ⟨0xA0 + 4 * i, 1, 1, .rwl 1, 0⟩
def TRP_RAIL_LEB (i : Nat) : Field := ⟨0xA0 + 4 * i, 4, 4, .rwl 1, 4⟩
def TRP_RAIL_UVBLK (i : Nat) : Field := ⟨0xA0 + 4 * i, 8, 8, .rwl 1, 0x10⟩
def TRP_RAIL_UVDLY (i : Nat) : Field := ⟨0xA0 + 4 * i, 16, 8, .rwl 1, 8⟩
def TRP_RAIL_NPCL (i : Nat) : Field := ⟨0xA0 + 4 * i, 24, 5, .rwl 1, 0x10⟩
def TRP_RAIL_HICRETRY (i : Nat) : Field := ⟨0xA0 + 4 * i, 29, 3, .rwl 1, 3⟩
def TRP_ROC_ROCLIM (i : Nat) : Field := ⟨0xC0 + 4 * i, 0, 12, .rwl 1, 0⟩
def TRP_ROC_ROCDLY (i : Nat) : Field := ⟨0xC0 + 4 * i, 12, 8, .rwl 1, 0x14⟩
def TRP_ROC_HICT (i : Nat) : Field := ⟨0xC0 + 4 * i, 20, 8, .rwl 1, 0x50⟩
def TRP_RST_HICW (i : Nat) : Field := ⟨0xE0 + 4 * i, 0, 1, .ro, 0⟩
def TRP_RST_UVARM (i : Nat) : Field := ⟨0xE0 + 4 * i, 1, 1, .ro, 0⟩
def TRP_RST_PCLACT (i : Nat) : Field := ⟨0xE0 + 4 * i, 2, 1, .ro, 0⟩
def TRP_RST_ROCACT (i : Nat) : Field := ⟨0xE0 + 4 * i, 3, 1, .ro, 0⟩
def TRP_RST_HCNT (i : Nat) : Field := ⟨0xE0 + 4 * i, 4, 3, .ro, 0⟩
def TRP_RST_PCLCNT (i : Nat) : Field := ⟨0xE0 + 4 * i, 16, 16, .ro, 0⟩
/-- The fields of page TRP beyond its head. -/
def fieldsTRP : List Field :=
  [TRP_CFG_LENTGRP, TRP_SWTRIP_LEVEL, TRP_SRCST_LIVE, TRP_SRCST_HIT]
  ++ (List.range 16).map TRP_SRC_SEL
  ++ (List.range 16).map TRP_SRC_INV
  ++ (List.range 16).map TRP_SRC_DGL
  ++ (List.range 12).map TRP_GRP_MAP
  ++ (List.range 12).map TRP_GRP_LATCH
  ++ (List.range 12).map TRP_GRP_ACT
  ++ (List.range 8).map TRP_RAIL_OVMODE
  ++ (List.range 8).map TRP_RAIL_OVOFF
  ++ (List.range 8).map TRP_RAIL_LEB
  ++ (List.range 8).map TRP_RAIL_UVBLK
  ++ (List.range 8).map TRP_RAIL_UVDLY
  ++ (List.range 8).map TRP_RAIL_NPCL
  ++ (List.range 8).map TRP_RAIL_HICRETRY
  ++ (List.range 8).map TRP_ROC_ROCLIM
  ++ (List.range 8).map TRP_ROC_ROCDLY
  ++ (List.range 8).map TRP_ROC_HICT
  ++ (List.range 8).map TRP_RST_HICW
  ++ (List.range 8).map TRP_RST_UVARM
  ++ (List.range 8).map TRP_RST_PCLACT
  ++ (List.range 8).map TRP_RST_ROCACT
  ++ (List.range 8).map TRP_RST_HCNT
  ++ (List.range 8).map TRP_RST_PCLCNT

/-! Page RPR (R445). -/
def RPR_CTRL_BGNOW : Field := ⟨0x04, 0, 1, .w1s, 0⟩
def RPR_CFG_SHEN : Field := ⟨0x20, 0, 1, .rwl 0, 1⟩
def RPR_CFG_SLCEN : Field := ⟨0x20, 1, 1, .rwl 0, 1⟩
def RPR_CFG_SHGAP : Field := ⟨0x20, 8, 8, .rwl 0, 0xA⟩
def RPR_CFG_RECALP : Field := ⟨0x20, 16, 8, .rwl 0, 0x3C⟩
def RPR_CFG_BGP : Field := ⟨0x20, 24, 8, .rwl 0, 0xF⟩
def RPR_MAINT_RUN : Field := ⟨0x24, 0, 8, .ro, 0⟩
def RPR_MAINT_MAINT_PEND : Field := ⟨0x24, 8, 8, .ro, 0⟩
def RPR_SHADOW_ENGINE : Field := ⟨0x28, 0, 4, .ro, 0xF⟩
def RPR_SHADOW_RAIL : Field := ⟨0x28, 4, 4, .ro, 0xF⟩
def RPR_SHADOW_SAMPLES : Field := ⟨0x28, 8, 17, .ro, 0⟩
def RPR_SHADOW_VERDICT : Field := ⟨0x28, 25, 2, .ro, 0⟩
def RPR_SHADOW_NEXT : Field := ⟨0x28, 28, 3, .ro, 0⟩
def RPR_SHCNT_PASSES : Field := ⟨0x2C, 0, 16, .ro, 0⟩
def RPR_SHCNT_MISMATCHES : Field := ⟨0x2C, 16, 16, .ro, 0⟩
def RPR_SLICE_WRET : Field := ⟨0x34, 0, 9, .ro, 0⟩
def RPR_SLICE_SP24 : Field := ⟨0x34, 16, 5, .ro, 0x1F⟩
def RPR_SLICE_SP25 : Field := ⟨0x34, 21, 5, .ro, 0x1F⟩
def RPR_PSRET_RET : Field := ⟨0x38, 0, 26, .ro, 0⟩
def RPR_PSPEND_PEND : Field := ⟨0x3C, 0, 24, .ro, 0⟩
def RPR_MAPSEQ_MAPSEQ : Field := ⟨0x40, 0, 32, .ro, 0⟩
def RPR_SPARES_ENG : Field := ⟨0x44, 0, 2, .ro, 0⟩
def RPR_SPARES_WSL : Field := ⟨0x44, 2, 1, .ro, 0⟩
def RPR_SPARES_PSL : Field := ⟨0x44, 3, 2, .ro, 0⟩
def RPR_SPARES_SRAM : Field := ⟨0x44, 8, 4, .ro, 0⟩
def RPR_SPARES_TAPS : Field := ⟨0x44, 16, 7, .ro, 0⟩
def RPR_FRZ_OBS : Field := ⟨0x48, 0, 1, .rw, 0⟩
def RPR_FRZ_FULL : Field := ⟨0x48, 1, 1, .w1s, 0⟩
def RPR_FRZ_RECAP : Field := ⟨0x48, 2, 1, .w1s, 0⟩
def RPR_FRZ_PINDEPTH : Field := ⟨0x48, 3, 1, .rwl 1, 0⟩
def RPR_FRZ_FRZEN : Field := ⟨0x48, 4, 1, .rwl 1, 1⟩
def RPR_FRZ_DEPTH : Field := ⟨0x48, 8, 2, .ro, 0⟩
def RPR_FRZ_PIN : Field := ⟨0x48, 10, 1, .ro, 0⟩
def RPR_RACKADDR_ADDR : Field := ⟨0x4C, 2, 10, .rw, 0⟩
def RPR_RACKADDR_INC : Field := ⟨0x4C, 16, 1, .rw, 1⟩
def RPR_RACKDATA_WORD : Field := ⟨0x50, 0, 32, .ro, 0⟩
def RPR_RACKINFO_VALID : Field := ⟨0x54, 0, 1, .ro, 0⟩
def RPR_RACKINFO_DEPTH : Field := ⟨0x54, 1, 1, .ro, 0⟩
def RPR_RACKINFO_KEPT : Field := ⟨0x54, 2, 1, .ro, 0⟩
def RPR_BIST_US : Field := ⟨0x58, 0, 16, .ro, 0⟩
def RPR_BIST_FULLB : Field := ⟨0x58, 16, 1, .ro, 0⟩
def RPR_BIST_BGDONE : Field := ⟨0x58, 17, 1, .ro, 0⟩
def RPR_BIST_FAILS : Field := ⟨0x58, 24, 8, .ro, 0⟩
def RPR_ENGST_ST (j : Nat) : Field := ⟨0x30, 2 * j, 2, .ro, 0⟩
/-- The fields of page RPR beyond its head. -/
def fieldsRPR : List Field :=
  [RPR_CTRL_BGNOW, RPR_CFG_SHEN, RPR_CFG_SLCEN, RPR_CFG_SHGAP, RPR_CFG_RECALP, RPR_CFG_BGP, RPR_MAINT_RUN, RPR_MAINT_MAINT_PEND]
  ++ [RPR_SHADOW_ENGINE, RPR_SHADOW_RAIL, RPR_SHADOW_SAMPLES, RPR_SHADOW_VERDICT, RPR_SHADOW_NEXT, RPR_SHCNT_PASSES, RPR_SHCNT_MISMATCHES, RPR_SLICE_WRET]
  ++ [RPR_SLICE_SP24, RPR_SLICE_SP25, RPR_PSRET_RET, RPR_PSPEND_PEND, RPR_MAPSEQ_MAPSEQ, RPR_SPARES_ENG, RPR_SPARES_WSL, RPR_SPARES_PSL]
  ++ [RPR_SPARES_SRAM, RPR_SPARES_TAPS, RPR_FRZ_OBS, RPR_FRZ_FULL, RPR_FRZ_RECAP, RPR_FRZ_PINDEPTH, RPR_FRZ_FRZEN, RPR_FRZ_DEPTH]
  ++ [RPR_FRZ_PIN, RPR_RACKADDR_ADDR, RPR_RACKADDR_INC, RPR_RACKDATA_WORD, RPR_RACKINFO_VALID, RPR_RACKINFO_DEPTH, RPR_RACKINFO_KEPT, RPR_BIST_US]
  ++ [RPR_BIST_FULLB, RPR_BIST_BGDONE, RPR_BIST_FAILS]
  ++ (List.range 10).map RPR_ENGST_ST

/-! Page HST (R61, R177). -/
def HST_STRAP_A0LVL : Field := ⟨0x20, 0, 2, .ro, 0⟩
def HST_STRAP_A1LVL : Field := ⟨0x20, 2, 2, .ro, 0⟩
def HST_STRAP_MSTR : Field := ⟨0x20, 4, 1, .ro, 0⟩
def HST_STRAP_SMBADDR : Field := ⟨0x20, 8, 7, .ro, 0⟩
def HST_SPICFG_WAITMAX : Field := ⟨0x24, 0, 8, .rw, 0x40⟩
def HST_SPICNT_HCRCCNT : Field := ⟨0x28, 0, 16, .ro, 0⟩
def HST_SPICNT_DCRCCNT : Field := ⟨0x28, 16, 16, .ro, 0⟩
def HST_SMBCFG_PECREQ : Field := ⟨0x2C, 0, 1, .rw, 0⟩
def HST_SMBCFG_TOEN : Field := ⟨0x2C, 1, 1, .rw, 1⟩
def HST_SMBCFG_ARAEN : Field := ⟨0x2C, 2, 1, .rw, 1⟩
def HST_SMBCFG_ALMASK : Field := ⟨0x2C, 3, 1, .rw, 0⟩
def HST_SMBCFG_WPROT : Field := ⟨0x2C, 8, 2, .ro, 0⟩
def HST_SMBCNT_PECCNT : Field := ⟨0x30, 0, 16, .ro, 0⟩
def HST_SMBCNT_TOCNT : Field := ⟨0x30, 16, 16, .ro, 0⟩
def HST_WINADDR_OFFSET : Field := ⟨0x34, 0, 8, .rw, 0⟩
def HST_WINADDR_PAGE : Field := ⟨0x34, 8, 8, .rw, 0⟩
def HST_PMBPAGE_PAGE : Field := ⟨0x38, 0, 8, .ro, 0⟩
def HST_CML_CML : Field := ⟨0x3C, 0, 8, .ro, 0⟩
def HST_ISUM0_PG : Field := ⟨0x40, 0, 32, .ro, 0⟩
def HST_ISUM1_PG : Field := ⟨0x44, 0, 32, .ro, 0⟩
def HST_ISUM2_PG : Field := ⟨0x48, 0, 9, .ro, 0⟩
def HST_I3CCFG_PPT (i : Nat) : Field := ⟨0x60 + 4 * i, 0, 8, .rw, 0x10⟩
def HST_I3CCFG_ODT (i : Nat) : Field := ⟨0x60 + 4 * i, 8, 8, .rw, 0x50⟩
def HST_I3CCFG_EN (i : Nat) : Field := ⟨0x60 + 4 * i, 16, 1, .rw, 0⟩
def HST_I3CCFG_HJEN (i : Nat) : Field := ⟨0x60 + 4 * i, 17, 1, .rw, 1⟩
def HST_I3CCFG_IBIEN (i : Nat) : Field := ⟨0x60 + 4 * i, 18, 1, .rw, 1⟩
def HST_I3CCTL_DAA (i : Nat) : Field := ⟨0x68 + 4 * i, 0, 1, .w1s, 0⟩
def HST_I3CCTL_BUSRST (i : Nat) : Field := ⟨0x68 + 4 * i, 1, 1, .w1s, 0⟩
def HST_I3CST_NDA (i : Nat) : Field := ⟨0x70 + 4 * i, 0, 7, .ro, 0⟩
def HST_I3CST_NCTX (i : Nat) : Field := ⟨0x70 + 4 * i, 8, 7, .ro, 0⟩
def HST_I3CST_NOVF (i : Nat) : Field := ⟨0x70 + 4 * i, 16, 7, .ro, 0⟩
def HST_I3CST_NREF (i : Nat) : Field := ⟨0x70 + 4 * i, 24, 7, .ro, 0⟩
def HST_I3CCNT_NACKCNT (i : Nat) : Field := ⟨0x78 + 4 * i, 0, 16, .ro, 0⟩
def HST_I3CCNT_RERDCNT (i : Nat) : Field := ⟨0x78 + 4 * i, 16, 16, .ro, 0⟩
/-- The fields of page HST beyond its head. -/
def fieldsHST : List Field :=
  [HST_STRAP_A0LVL, HST_STRAP_A1LVL, HST_STRAP_MSTR, HST_STRAP_SMBADDR, HST_SPICFG_WAITMAX, HST_SPICNT_HCRCCNT]
  ++ [HST_SPICNT_DCRCCNT, HST_SMBCFG_PECREQ, HST_SMBCFG_TOEN, HST_SMBCFG_ARAEN, HST_SMBCFG_ALMASK, HST_SMBCFG_WPROT, HST_SMBCNT_PECCNT, HST_SMBCNT_TOCNT]
  ++ [HST_WINADDR_OFFSET, HST_WINADDR_PAGE, HST_PMBPAGE_PAGE, HST_CML_CML, HST_ISUM0_PG, HST_ISUM1_PG, HST_ISUM2_PG]
  ++ (List.range 2).map HST_I3CCFG_PPT
  ++ (List.range 2).map HST_I3CCFG_ODT
  ++ (List.range 2).map HST_I3CCFG_EN
  ++ (List.range 2).map HST_I3CCFG_HJEN
  ++ (List.range 2).map HST_I3CCFG_IBIEN
  ++ (List.range 2).map HST_I3CCTL_DAA
  ++ (List.range 2).map HST_I3CCTL_BUSRST
  ++ (List.range 2).map HST_I3CST_NDA
  ++ (List.range 2).map HST_I3CST_NCTX
  ++ (List.range 2).map HST_I3CST_NOVF
  ++ (List.range 2).map HST_I3CST_NREF
  ++ (List.range 2).map HST_I3CCNT_NACKCNT
  ++ (List.range 2).map HST_I3CCNT_RERDCNT

/-! Page V (R98, R133). -/
def V_CTRL_EN : Field := ⟨0x04, 0, 1, .rw, 0⟩
def V_CTRL_SOFTOFF : Field := ⟨0x04, 1, 1, .rw, 1⟩
def V_CFG_LLEN : Field := ⟨0x20, 0, 1, .rwl 0, 0⟩
def V_CFG_INTEN : Field := ⟨0x20, 1, 1, .rwl 0, 1⟩
def V_CFG_PBEN : Field := ⟨0x20, 2, 1, .rwl 0, 1⟩
def V_CFG_VINSEL : Field := ⟨0x20, 3, 1, .rwl 0, 0⟩
def V_TARGET_CODE : Field := ⟨0x24, 0, 12, .rw, 0⟩
def V_VMAX_CODE : Field := ⟨0x28, 0, 12, .rwl 0, 0xE10⟩
def V_SLEW_RATE : Field := ⟨0x2C, 0, 10, .rw, 8⟩
def V_PRAMP_PRATE : Field := ⟨0x30, 0, 10, .rw, 8⟩
def V_PRAMP_OFFCODE : Field := ⟨0x30, 16, 12, .rw, 0x190⟩
def V_LL_RLL : Field := ⟨0x34, 0, 11, .rw, 0⟩
def V_LL_DRMAX : Field := ⟨0x34, 16, 9, .rw, 0xC8⟩
def V_GAIN_KE : Field := ⟨0x38, 0, 8, .rwl 1, 0x10⟩
def V_GAIN_KR : Field := ⟨0x38, 16, 12, .rwl 1, 0x100⟩
def V_INTG_ISHIFT : Field := ⟨0x3C, 0, 5, .rwl 1, 0xE⟩
def V_INTG_YMAX : Field := ⟨0x3C, 8, 8, .rwl 1, 0x40⟩
def V_INTG_IRST : Field := ⟨0x3C, 16, 1, .w1s, 0⟩
def V_FIRE_THR : Field := ⟨0x40, 0, 9, .rw, 0⟩
def V_FIRE_TSEP : Field := ⟨0x40, 16, 5, .rw, 4⟩
def V_MODEL_CSHIFT : Field := ⟨0x44, 0, 2, .rwl 1, 1⟩
def V_PG_PGWIN : Field := ⟨0x48, 0, 8, .rw, 0x28⟩
def V_PG_PGDLY : Field := ⟨0x48, 8, 8, .rw, 0x10⟩
def V_PG_PGTMO : Field := ⟨0x48, 16, 12, .rw, 0x7D0⟩
def V_REF_WIN : Field := ⟨0x4C, 0, 12, .ro, 0⟩
def V_REF_VREF : Field := ⟨0x4C, 16, 12, .ro, 0⟩
def V_REF_RSTATE : Field := ⟨0x4C, 28, 3, .ro, 0⟩
def V_DROOP_DROOP : Field := ⟨0x50, 0, 12, .ro, 0⟩
def V_WINMON_LAST : Field := ⟨0x54, 0, 9, .ro, 0⟩
def V_WINMON_MIN : Field := ⟨0x54, 9, 9, .ro, 0xFF⟩
def V_WINMON_MAX : Field := ⟨0x54, 18, 9, .ro, 0x100⟩
def V_ENG_ENGINE : Field := ⟨0x58, 0, 4, .ro, 0⟩
def V_ENG_SLICE : Field := ⟨0x58, 4, 4, .ro, 0⟩
def V_ENG_SHADOW : Field := ⟨0x58, 8, 4, .ro, 0xF⟩
def V_CTRL_AUTOSHED : Field := ⟨0x04, 8, 1, .rw, 0⟩
def V_CTRL_KNEADEN : Field := ⟨0x04, 9, 1, .rw, 1⟩
def V_PHF_PERIOD : Field := ⟨0x80, 0, 12, .rwl 2, 0x190⟩
def V_PHF_TOFFMIN : Field := ⟨0x80, 16, 8, .rwl 2, 0x2D⟩
def V_PHF_TONMIN : Field := ⟨0x80, 24, 8, .rwl 2, 0x12⟩
def V_TONMAX_TONMAX : Field := ⟨0x84, 0, 12, .rwl 2, 0x3E8⟩
def V_ONTCOR_TCMAX : Field := ⟨0x88, 0, 8, .rwl 2, 0x28⟩
def V_ONTCOR_SHARELIM : Field := ⟨0x88, 8, 8, .rwl 2, 8⟩
def V_ONTCOR_CORREN : Field := ⟨0x88, 16, 1, .rwl 2, 1⟩
def V_KNEAD_KSTRIDE : Field := ⟨0x8C, 0, 8, .rwl 2, 7⟩
def V_KNEAD_KDET : Field := ⟨0x8C, 8, 8, .rwl 2, 0x10⟩
def V_KNEAD_KSTART : Field := ⟨0x8C, 16, 9, .ro, 0⟩
def V_SHEDCFG_NMIN : Field := ⟨0x90, 0, 8, .rwl 2, 1⟩
def V_SHEDCFG_NREQ : Field := ⟨0x90, 8, 8, .rw, 0⟩
def V_SHEDCFG_EABT : Field := ⟨0x90, 16, 8, .rwl 2, 0x10⟩
def V_SHEDCFG_SLOPEABT : Field := ⟨0x90, 24, 8, .rwl 2, 0x19⟩
def V_SHEDAUTO_SHEDZ : Field := ⟨0x94, 0, 8, .rwl 2, 8⟩
def V_SHEDAUTO_IPP : Field := ⟨0x94, 8, 8, .rwl 2, 0x14⟩
def V_SHEDAUTO_AVGK : Field := ⟨0x94, 16, 4, .rwl 2, 4⟩
def V_SHEDAUTO_SHDLY : Field := ⟨0x94, 20, 8, .rwl 2, 0x10⟩
def V_SHEDAUTO_NMARG : Field := ⟨0x94, 28, 4, .rwl 2, 2⟩
def V_NACT_NACT : Field := ⟨0x98, 0, 8, .ro, 0⟩
def V_NACT_NASSIGN : Field := ⟨0x98, 8, 8, .ro, 0⟩
def V_NACT_NTARGET : Field := ⟨0x98, 16, 8, .ro, 0⟩
def V_NACT_TSTATE : Field := ⟨0x98, 24, 3, .ro, 0⟩
def V_ISHARE_IBASE : Field := ⟨0x9C, 0, 16, .ro, 0⟩
def V_ORD_SLOTS (i : Nat) : Field := ⟨0xA0 + 4 * i, 0, 32, .rwl 3, 0⟩
def V_ORDCTL_COMMIT : Field := ⟨0xB8, 0, 1, .w1s, 0⟩
def V_ORDCTL_NORD : Field := ⟨0xB8, 8, 8, .ro, 0⟩
/-- The fields of page V beyond its head. -/
def fieldsV : List Field :=
  [V_CTRL_EN, V_CTRL_SOFTOFF, V_CFG_LLEN, V_CFG_INTEN, V_CFG_PBEN, V_CFG_VINSEL, V_TARGET_CODE, V_VMAX_CODE]
  ++ [V_SLEW_RATE, V_PRAMP_PRATE, V_PRAMP_OFFCODE, V_LL_RLL, V_LL_DRMAX, V_GAIN_KE, V_GAIN_KR, V_INTG_ISHIFT]
  ++ [V_INTG_YMAX, V_INTG_IRST, V_FIRE_THR, V_FIRE_TSEP, V_MODEL_CSHIFT, V_PG_PGWIN, V_PG_PGDLY, V_PG_PGTMO]
  ++ [V_REF_WIN, V_REF_VREF, V_REF_RSTATE, V_DROOP_DROOP, V_WINMON_LAST, V_WINMON_MIN, V_WINMON_MAX, V_ENG_ENGINE]
  ++ [V_ENG_SLICE, V_ENG_SHADOW, V_CTRL_AUTOSHED, V_CTRL_KNEADEN, V_PHF_PERIOD, V_PHF_TOFFMIN, V_PHF_TONMIN, V_TONMAX_TONMAX]
  ++ [V_ONTCOR_TCMAX, V_ONTCOR_SHARELIM, V_ONTCOR_CORREN, V_KNEAD_KSTRIDE, V_KNEAD_KDET, V_KNEAD_KSTART, V_SHEDCFG_NMIN, V_SHEDCFG_NREQ]
  ++ [V_SHEDCFG_EABT, V_SHEDCFG_SLOPEABT, V_SHEDAUTO_SHEDZ, V_SHEDAUTO_IPP, V_SHEDAUTO_AVGK, V_SHEDAUTO_SHDLY, V_SHEDAUTO_NMARG, V_NACT_NACT]
  ++ [V_NACT_NASSIGN, V_NACT_NTARGET, V_NACT_TSTATE, V_ISHARE_IBASE, V_ORDCTL_COMMIT, V_ORDCTL_NORD]
  ++ (List.range 6).map V_ORD_SLOTS

/-! Page P (R134). -/
def P_CTRL_IDSTART : Field := ⟨0x04, 0, 1, .w1s, 0⟩
def P_CTRL_CALSTART : Field := ⟨0x04, 1, 1, .w1s, 0⟩
def P_ASSIGN_RAIL : Field := ⟨0x20, 0, 4, .rwl 0, 0xF⟩
def P_ASSIGN_SHPRI : Field := ⟨0x20, 8, 5, .rwl 0, 0⟩
def P_CSCFG_CSGAIN : Field := ⟨0x24, 0, 16, .rwl 0, 0x1388⟩
def P_CSCFG_MIDHZ : Field := ⟨0x24, 16, 1, .rwl 0, 0⟩
def P_CSCAL_OFS : Field := ⟨0x28, 0, 14, .ro, 0⟩
def P_LHAT_L : Field := ⟨0x2C, 0, 16, .rwl 1, 0x640⟩
def P_RHAT_DCR : Field := ⟨0x30, 0, 12, .rwl 1, 0xC8⟩
def P_IDCFG_DITH : Field := ⟨0x34, 0, 4, .rwl 1, 2⟩
def P_IDCFG_HW : Field := ⟨0x34, 8, 8, .rwl 1, 0x28⟩
def P_IDCFG_NREP : Field := ⟨0x34, 16, 4, .rwl 1, 8⟩
def P_IDRES_LRAW : Field := ⟨0x38, 0, 16, .ro, 0⟩
def P_IDRES_RRAW : Field := ⟨0x38, 16, 12, .ro, 0⟩
def P_IDRES_CAUSE : Field := ⟨0x38, 28, 4, .ro, 0⟩
def P_IMON_IBAR : Field := ⟨0x3C, 0, 16, .ro, 0⟩
def P_IMON_ISAMP : Field := ⟨0x3C, 16, 16, .ro, 0⟩
def P_TON_LAST : Field := ⟨0x40, 0, 18, .ro, 0⟩
def P_SLICE_SLICE : Field := ⟨0x44, 0, 5, .ro, 0⟩
def P_FIRES_COUNT : Field := ⟨0x48, 0, 32, .ro, 0⟩
/-- The fields of page P beyond its head. -/
def fieldsP : List Field :=
  [P_CTRL_IDSTART, P_CTRL_CALSTART, P_ASSIGN_RAIL, P_ASSIGN_SHPRI, P_CSCFG_CSGAIN, P_CSCFG_MIDHZ, P_CSCAL_OFS, P_LHAT_L]
  ++ [P_RHAT_DCR, P_IDCFG_DITH, P_IDCFG_HW, P_IDCFG_NREP, P_IDRES_LRAW, P_IDRES_RRAW, P_IDRES_CAUSE, P_IMON_IBAR]
  ++ [P_IMON_ISAMP, P_TON_LAST, P_SLICE_SLICE, P_FIRES_COUNT]

/-! Page E (R99). -/
def E_CTRL_SNAP : Field := ⟨0x04, 0, 1, .w1s, 0⟩
def E_ASSIGN_RAIL : Field := ⟨0x20, 0, 4, .ro, 0⟩
def E_ASSIGN_ROLE : Field := ⟨0x20, 4, 2, .ro, 0⟩
def E_ASSIGN_SHADOWED : Field := ⟨0x20, 8, 4, .ro, 0xF⟩
def E_LAT_LAST : Field := ⟨0x24, 0, 9, .ro, 0⟩
def E_LAT_MAX : Field := ⟨0x24, 16, 9, .ro, 0⟩
def E_FIRES_COUNT : Field := ⟨0x28, 0, 32, .ro, 0⟩
def E_SNAPERR_E : Field := ⟨0x2C, 0, 16, .ro, 0⟩
def E_SNAPINT_Y : Field := ⟨0x30, 0, 16, .ro, 0⟩
def E_SNAPRIP_W : Field := ⟨0x34, 0, 16, .ro, 0⟩
def E_SNAPU_U : Field := ⟨0x38, 0, 16, .ro, 0⟩
def E_SNAPT_TIME : Field := ⟨0x3C, 0, 32, .ro, 0⟩
/-- The fields of page E beyond its head. -/
def fieldsE : List Field :=
  [E_CTRL_SNAP, E_ASSIGN_RAIL, E_ASSIGN_ROLE, E_ASSIGN_SHADOWED, E_LAT_LAST, E_LAT_MAX, E_FIRES_COUNT, E_SNAPERR_E]
  ++ [E_SNAPINT_Y, E_SNAPRIP_W, E_SNAPU_U, E_SNAPT_TIME]

/-! Page CTX (R180). -/
def CTX_BIND_DA (i : Nat) : Field := ⟨0x20 + 12 * i, 0, 7, .ro, 0⟩
def CTX_BIND_BUS (i : Nat) : Field := ⟨0x20 + 12 * i, 7, 1, .ro, 0⟩
def CTX_BIND_STATE (i : Nat) : Field := ⟨0x20 + 12 * i, 8, 2, .ro, 0⟩
def CTX_BIND_VOTES (i : Nat) : Field := ⟨0x20 + 12 * i, 16, 8, .ro, 0⟩
def CTX_BIND_INFLIGHT (i : Nat) : Field := ⟨0x20 + 12 * i, 24, 4, .ro, 0⟩
def CTX_BIND_PENDING (i : Nat) : Field := ⟨0x20 + 12 * i, 28, 4, .ro, 0⟩
def CTX_PIDL_PID (i : Nat) : Field := ⟨0x24 + 12 * i, 0, 32, .ro, 0⟩
def CTX_PIDH_PID (i : Nat) : Field := ⟨0x28 + 12 * i, 0, 16, .ro, 0⟩
def CTX_PIDH_BCR (i : Nat) : Field := ⟨0x28 + 12 * i, 16, 8, .ro, 0⟩
def CTX_PIDH_DCR (i : Nat) : Field := ⟨0x28 + 12 * i, 24, 8, .ro, 0⟩
def CTX_ACCT_ITEMSA (i : Nat) : Field := ⟨0xE0 + 4 * i, 0, 16, .ro, 0⟩
def CTX_ACCT_ITEMSB (i : Nat) : Field := ⟨0xE0 + 4 * i, 16, 16, .ro, 0⟩
/-- The fields of page CTX beyond its head. -/
def fieldsCTX : List Field :=
  (List.range 16).map CTX_BIND_DA
  ++ (List.range 16).map CTX_BIND_BUS
  ++ (List.range 16).map CTX_BIND_STATE
  ++ (List.range 16).map CTX_BIND_VOTES
  ++ (List.range 16).map CTX_BIND_INFLIGHT
  ++ (List.range 16).map CTX_BIND_PENDING
  ++ (List.range 16).map CTX_PIDL_PID
  ++ (List.range 16).map CTX_PIDH_PID
  ++ (List.range 16).map CTX_PIDH_BCR
  ++ (List.range 16).map CTX_PIDH_DCR
  ++ (List.range 8).map CTX_ACCT_ITEMSA
  ++ (List.range 8).map CTX_ACCT_ITEMSB

/-! Page TAG (R181). -/
def TAG_ENT_CTX (i : Nat) : Field := ⟨0x20 + 4 * i, 0, 7, .ro, 0⟩
def TAG_ENT_BUS (i : Nat) : Field := ⟨0x20 + 4 * i, 7, 1, .ro, 0⟩
def TAG_ENT_DA (i : Nat) : Field := ⟨0x20 + 4 * i, 8, 7, .ro, 0⟩
def TAG_ENT_OPC (i : Nat) : Field := ⟨0x20 + 4 * i, 16, 8, .ro, 0⟩
def TAG_ENT_PHASE (i : Nat) : Field := ⟨0x20 + 4 * i, 24, 3, .ro, 0⟩
def TAG_ENT_RAIL (i : Nat) : Field := ⟨0x20 + 4 * i, 27, 4, .ro, 0⟩
def TAG_ENT_AUTH (i : Nat) : Field := ⟨0x20 + 4 * i, 31, 1, .ro, 0⟩
/-- The fields of page TAG beyond its head. -/
def fieldsTAG : List Field :=
  (List.range 32).map TAG_ENT_CTX
  ++ (List.range 32).map TAG_ENT_BUS
  ++ (List.range 32).map TAG_ENT_DA
  ++ (List.range 32).map TAG_ENT_OPC
  ++ (List.range 32).map TAG_ENT_PHASE
  ++ (List.range 32).map TAG_ENT_RAIL
  ++ (List.range 32).map TAG_ENT_AUTH

/-! Page ORP (R182). -/
def ORP_CNT_COUNT : Field := ⟨0x20, 0, 7, .ro, 0⟩
def ORP_POP_POP : Field := ⟨0x24, 0, 1, .w1s, 0⟩
def ORP_WHO_DA : Field := ⟨0x28, 0, 7, .ro, 0⟩
def ORP_WHO_BUS : Field := ⟨0x28, 7, 1, .ro, 0⟩
def ORP_WHO_CTX : Field := ⟨0x28, 8, 7, .ro, 0⟩
def ORP_WHO_VALID : Field := ⟨0x28, 15, 1, .ro, 0⟩
def ORP_PIDL_PID : Field := ⟨0x2C, 0, 32, .ro, 0⟩
def ORP_PIDH_PID : Field := ⟨0x30, 0, 16, .ro, 0⟩
def ORP_REC_BYTES (i : Nat) : Field := ⟨0x34 + 4 * i, 0, 32, .ro, 0⟩
def ORP_CTR_COUNTER : Field := ⟨0x44, 0, 32, .ro, 0⟩
def ORP_LOST_COUNT : Field := ⟨0x48, 0, 16, .ro, 0⟩
/-- The fields of page ORP beyond its head. -/
def fieldsORP : List Field :=
  [ORP_CNT_COUNT, ORP_POP_POP, ORP_WHO_DA, ORP_WHO_BUS, ORP_WHO_CTX, ORP_WHO_VALID, ORP_PIDL_PID, ORP_PIDH_PID]
  ++ [ORP_CTR_COUNTER, ORP_LOST_COUNT]
  ++ (List.range 4).map ORP_REC_BYTES

/-- The fields of a kind of page beyond the common head registers other than CTRL. -/
def fieldsOf : PageKind → List Field
  | .dev => fieldsDEV
  | .flt => fieldsFLT
  | .fsv => fieldsFSV
  | .thm => fieldsTHM
  | .tlm => fieldsTLM
  | .crb => fieldsCRB
  | .cmd => fieldsCMD
  | .sec => fieldsSEC
  | .nvm => fieldsNVM
  | .bkh => fieldsBKH
  | .lnk => fieldsLNK
  | .aux => fieldsAUX
  | .cmp => fieldsCMP
  | .trp => fieldsTRP
  | .rpr => fieldsRPR
  | .hst => fieldsHST
  | .v => fieldsV
  | .p => fieldsP
  | .e => fieldsE
  | .ctx => fieldsCTX
  | .tag => fieldsTAG
  | .orp => fieldsORP

/-- The fields of the register at an offset of a kind of page. -/
def fieldsAt (k : PageKind) (off : Nat) : List Field := (fieldsOf k).filter (fun f => f.off = off)

/-- The word a register holds at reset: its fields' reset values (R25 for the head). -/
def resetWordOf (k : PageKind) (off : Nat) : Word :=
  if off = 0x10 then BitVec.ofNat 32 (ienReset k)
  else (fieldsAt k off).foldl (fun w f => setBits w f.lo f.len f.rst) 0

/-- The key under which the register file holds `page:offset` (R6). -/
def regKey (pg off : Nat) : Nat := pg * 256 + off

/-- The reset word of a key of the register file. -/
def resetWord (key : Nat) : Word :=
  match kindOf (key / 256) with
  | some k => resetWordOf k (key % 256)
  | none => 0

end Sys2Proof.Machine
end

