-- ==== Sys2Proof/Machine/Sparse.lean ====
section
/-! DEFINITION. A sparse table in one canonical form: a list of (key, value) pairs with keys strictly rising and no
value equal to what an unlisted key reads as. The register file (R6) and the flash area (R377) are held in it. -/
namespace Sys2Proof.Machine.Sparse

variable {α : Type}

/-- What key `k` reads as; an unlisted key reads as `d k`. -/
def get (d : Nat → α) : List (Nat × α) → Nat → α
  | [], k => d k
  | (j, v) :: t, k => if k = j then v else get d t k

/-- The list without key `k`. -/
def erase (l : List (Nat × α)) (k : Nat) : List (Nat × α) := l.filter (fun p => p.1 ≠ k)

/-- The pair put before the first larger key. -/
def insert (l : List (Nat × α)) (k : Nat) (v : α) : List (Nat × α) :=
  match l with
  | [] => [(k, v)]
  | (j, w) :: t => if k < j then (k, v) :: (j, w) :: t else (j, w) :: insert t k v

/-- Key `k` made to read as `v`; the entry goes when `v` is what an unlisted key reads as. -/
def put [DecidableEq α] (d : Nat → α) (l : List (Nat × α)) (k : Nat) (v : α) : List (Nat × α) :=
  if v = d k then erase l k else insert (erase l k) k v

/-- Every key of the list is above `k`. -/
def above (k : Nat) (l : List (Nat × α)) : Bool := l.all (fun p => k < p.1)

/-- The canonical form: keys strictly rising, no entry equal to what an unlisted key reads as. -/
def wf [DecidableEq α] (d : Nat → α) : List (Nat × α) → Bool
  | [] => true
  | (j, v) :: t => (decide (v ≠ d j)) && above j t && wf d t

end Sys2Proof.Machine.Sparse
end

