-- ==== Sys2Proof/Machine/State.lean ====
section
/-! DEFINITION. The state of the block: plain data holding every register, queue, buffer, counter, mode and pin that
the manual gives the VYH2408, and the queue of commands that wait. `State.reset` is the device just after a VKEEP
power-on (R407, R415): PARKED, the core at its reset values. -/
namespace Sys2Proof.Machine

/-! ## Power states and the always-on domain (R400 to R407, R412 to R419) -/

/-- The power states of R403. -/
inductive PState where
  | parked | waking | boot | sequencing | run | safe | grave
  deriving DecidableEq, Repr

/-- The code of a power state (R403). -/
def PState.code : PState → Nat
  | .parked => 0 | .waking => 1 | .boot => 2 | .sequencing => 3 | .run => 4 | .safe => 5 | .grave => 6

/-- The supplies, the always-on domain and the power state machine. -/
structure Power where
  /-- Power state (R403). -/
  pstate : PState := .parked
  /-- Phases of BOOT that have ended, 0 to 5 (R412). -/
  phase : Nat := 0
  /-- BOOT halted by the OTP check (R414). -/
  halt : Bool := false
  /-- Cause of the latest BOOT (R415). -/
  cause : Nat := 0
  /-- The latest BOOT was cold (R410). -/
  cold : Bool := false
  /-- Length of the latest BOOT in µs (R412). -/
  bootUs : Nat := 0
  /-- Supplies above their thresholds: VCC33, VDD18, VDDC, VIO, VKEEP (R400). -/
  good : List Bool := [false, false, false, false, true]
  /-- VDDC has fallen below its falling threshold since the last BOOT (R338). -/
  vddcFell : Bool := true
  /-- VCC33 has fallen below its falling threshold since the last BOOT (R338). -/
  vcc33Fell : Bool := true
  /-- VKEEP has come up since the last BOOT (R415). -/
  vkeepUp : Bool := true
  /-- The RST_N pin is high (R416). -/
  rstn : Bool := true
  /-- All core supplies have been good for 100 µs in WAKING, so the 20 ms timeout no longer runs (R404, R405). -/
  filtered : Bool := false
  /-- The core is held in reset: before BOOT begins, and while RST_N is low (R402, R416). -/
  inReset : Bool := true
  /-- The supplies that have held since the fall of a core supply from which WAKING was reached (R402). -/
  heldSince : List Nat := []
  /-- The cause that the next BOOT will record (R415). -/
  nextCause : Nat := 0
  /-- Wake latch (R407). -/
  wakeLatch : Bool := false
  /-- MAINEN driven high (R407). -/
  mainen : Bool := false
  /-- DEV_WAKEINFO.WAKES. -/
  wakes : Nat := 0
  /-- DEV_WAKEINFO.WAKEFAILS. -/
  wakeFails : Nat := 0
  /-- DEV_WAKEINFO.FASTOK. -/
  fastok : Bool := false
  /-- DEV_WAKEINFO.LASTGRAVE. -/
  lastGrave : Bool := false
  /-- WAKEFAILS at the previous end of BOOT (R409). -/
  wakeFailsSeen : Nat := 0
  /-- DEV_CFG.COLDALL, kept in the always-on domain (R407). -/
  coldall : Bool := false
  /-- DEV_CFG.SWREN, kept in the always-on domain (R407). -/
  swren : Bool := true
  /-- Copy of CMP_THR25, the thresholds of C50 and C51 (R407). -/
  thr25 : Word := 0xB34DE7B5
  /-- Copy of the hysteresis of C50 and C51 in CMP_HYS6 (R407). -/
  hys50 : Nat := 2
  hys51 : Nat := 2
  /-- Outputs of C50 and C51, which run from VKEEP (R226). -/
  lo50 : Bool := true
  hi50 : Bool := false
  lo51 : Bool := true
  hi51 : Bool := false
  /-- The two copies of the GRAVE latch, on VDDC and on VCC33 (R338). -/
  graveD : Bool := false
  graveV : Bool := false
  /-- FLT_GRAVE and FLT_GRAVET, kept and cleared with the latch (R338). -/
  graveMsg : Word := 0
  graveTime : Word := 0
  deriving DecidableEq, Repr

/-- The GRAVE latch is set when either copy is: a disagreement counts as set (R339). -/
def Power.grave (p : Power) : Bool := p.graveD || p.graveV

/-! ## Rails, ports and engines (R64 to R134) -/

/-- Reference states (R88). -/
inductive RState where
  | off | proof | hold | slew | softoff | safe | precheck
  deriving DecidableEq, Repr

/-- The code of a reference state (R88). -/
def RState.code : RState → Nat
  | .off => 0 | .proof => 1 | .hold => 2 | .slew => 3 | .softoff => 4 | .safe => 5 | .precheck => 6

/-- The states of a PWM output (R100). -/
inductive Pwm where
  | low | high | mid
  deriving DecidableEq, Repr

/-- The code of a PWM state in the cooling rack (R442). -/
def Pwm.code : Pwm → Nat
  | .low => 0 | .high => 1 | .mid => 2

/-- The part of a port in a shed or add (R128, R130). -/
inductive Trans where
  | none | leaving | joining
  deriving DecidableEq, Repr

/-- A firing that waits for an owned slot: its phase, and the device time of the decision (R203). -/
structure Due where
  dev : Nat
  port : Nat
  at_ : Nat
  deriving DecidableEq, Repr

/-- A slot of a rail's active order with the model of its phase (R71, R72, R109, R126). -/
structure Slot where
  /-- 0 for a local port, otherwise the ring ID of the lender (R208). -/
  dev : Nat
  port : Nat
  /-- The port takes turns in firing (R126). -/
  member : Bool := false
  trans : Trans := .none
  /-- Share weight in quarters (R111). -/
  sk4 : Nat := 4
  /-- Firings of the port in its transition (R128, R130). -/
  fired : Nat := 0
  /-- Passings of the pointer since firing 4 of a shed (R128 step 3a). -/
  passes : Nat := 0
  /-- Modelled state of a remote phase (R204); a local phase's state is its port's. -/
  pwm : Pwm := .mid
  /-- The phase is in the sums of R73. -/
  inSum : Bool := false
  /-- The port has entered the active set from mid and has not fired since, so it is eligible at once (R118). -/
  fresh : Bool := false
  /-- The model is set from the phase ADC at the next firing, as for a joining phase (R72). -/
  join : Bool := true
  /-- Modelled current and its average, in A (R71, R72). -/
  ihat : Rat := 0
  ibar : Rat := 0
  /-- Largest and smallest modelled current of the present period (R72). -/
  imax : Rat := 0
  imin : Rat := 0
  /-- Latest phase-ADC sample of the last low segment, 1/64 A, and the model value at its aperture (R72). -/
  corr : Option (Int × Rat) := .none
  /-- Inductance in 1/16 nH and resistance in µΩ that the model uses, taken up at the phase's firing (R71, R122). -/
  l : Nat := 0x640
  dcr : Nat := 0xC8
  /-- A remote phase: the model's value at the latest 192 samples with their device times, newest first (R203). -/
  hist : List (Nat × Rat) := []
  /-- A remote phase: the predicted edge of the firing under way in 10 ps of device time, and its on-time in 40 ps (R203). -/
  fire : Option (Nat × Nat) := none
  /-- A remote phase: device time of its latest modelled falling edge, in 10 ps (R118, R203). -/
  fallAt : Nat := 0
  /-- A remote member dropped since the last proof ramp (R205). -/
  lost : Bool := false
  deriving DecidableEq, Repr

/-- One rail: reference generator, loop and phase manager. -/
structure Rail where
  rstate : RState := .off
  /-- Vref in 1/102,400 of 0.5 mV, so that RATE × 0.3125 µV is whole (R84, R85). -/
  vref : Nat := 0
  /-- The slew rate carried by the winning item; 0 while Vn_SLEW.RATE applies (R85). -/
  rate : Nat := 0
  /-- Centres computed for the latest two samples, newest first, in 1/4,096 of 0.5 mV (R66, R68). -/
  centre1 : Int := 0
  centre2 : Int := 0
  /-- Vc applied at the latest aperture, in 1/4,096 of 0.5 mV (R69). -/
  vcApplied : Int := 0
  /-- The latest sample and whether it was saturated (R65). -/
  d : Int := 0
  sat : Bool := false
  /-- Error term, synthetic ripple, in 1/64 of 0.25 mV (R69, R73). -/
  e : Int := 0
  w : Int := 0
  /-- Integrator output in 1/2^35 of 1/64 of 0.25 mV (R75). -/
  yAcc : Int := 0
  /-- The integrator at the latest sample that the engine has computed from, for the snapshot of R99. -/
  ySnap : Int := 0
  /-- Decision quantity in 1/2,048 of 1/64 of 0.25 mV (R74). -/
  u : Int := 0
  /-- Modelled rail current in A and its values at the latest 40 samples, newest first (R73, R129). -/
  irail : Rat := 0
  irailHist : List Rat := []
  /-- Latest 64 window samples, newest first, with their saturation marks (R442). -/
  winHist : List (Int × Bool) := []
  /-- Applied droop in 1/64 of 0.25 mV (R68). -/
  droop : Int := 0
  /-- Active firing order (R109). -/
  order : List Slot := []
  /-- Slot whose port fires next (R109). -/
  ptr : Nat := 0
  /-- KSTART and the knead detector (R124). -/
  kstart : Nat := 0
  kneadArmed : Bool := true
  /-- On-time of the port at the pointer as last recomputed, in 40 ps steps, and whether it was raised or lowered (R113, R117). -/
  tonNext : Nat := 0
  tonRaised : Bool := false
  tonLowered : Bool := false
  /-- Target count last found (R127). -/
  ntarget : Nat := 0
  /-- The count that the shed or add under way leads to (R128, R130, R131). -/
  shedGoal : Nat := 0
  /-- The automatic term is valid: a whole window has passed since entry to PROOF from PRECHECK (R127). -/
  autoValid : Bool := false
  /-- The present averaging window began at or after that entry (R127). -/
  autoWhole : Bool := false
  /-- Automatic term of the latest window (R127). -/
  autoTerm : Nat := 0
  /-- Sum and number of base samples in the present window of R127, 1/64 A. -/
  avgSum : Int := 0
  avgCnt : Nat := 0
  /-- Time since the first window end that found NTARGET below NACT, in 4 µs (R127). -/
  belowFor : Option Nat := .none
  /-- NREQ or NMIN has made NTARGET fall, so a shed begins at once (R127). -/
  shedDue : Bool := false
  /-- A shed-abort condition met an add: each joining port takes weight 1 at its next firing (R130). -/
  addFast : Bool := false
  /-- A shed was aborted, and no shed may start before its count (R129). -/
  abortHold : Bool := false
  /-- The conditions of R121 as they were at the latest sample: the knead detector's and the two of R129. -/
  kneadHit : Bool := false
  hitErr : Bool := false
  hitSlope : Bool := false
  /-- Firings that have been decided and wait for an owned slot (R203). -/
  due : List Due := []
  /-- Stage of the proof ramp: 1 checks, 2 pre-bias search, 3 after RAMPDONE until power good or PGTMO (R90). -/
  preStage : Nat := 0
  /-- The pre-bias search: the voltage found so far in 0.5 mV, and the samples taken, 96 in all (R90 step 3). -/
  pbCode : Nat := 0
  pbCount : Nat := 0
  /-- The rail has entered SAFE and no proof ramp has begun since: its monitors keep their values (R93). -/
  monHeld : Bool := false
  /-- Device time at the aperture of the latest sample that the engine computed from, low 32 bits (R14, R99). -/
  sampleAt : Nat := 0
  /-- The soft turn-off has arrived and waits for on-times to end (R91). -/
  arrived : Bool := false
  deriving DecidableEq, Repr

/-- The slope measurement of an identification: the least-squares fit of the port's low segments over 256 periods (R120). -/
structure Fit where
  /-- The fit runs, and the port has fired since it began. -/
  on : Bool := false
  begun : Bool := false
  /-- Samples of the present low segment: device time and current in 1/64 A. -/
  seg : List (Nat × Int) := []
  /-- Sum of the slopes of the segments that gave one, in 1/64 A per 2.5 ns, and their number. -/
  sum : Rat := 0
  segs : Nat := 0
  /-- Periods that have ended, 256 in all. -/
  periods : Nat := 0
  deriving DecidableEq, Repr

/-- The dither measurement of an identification (R120, R121), of a local port or of a remote phase. -/
structure Ident where
  busy : Bool := false
  discards : Nat := 0
  /-- Device time at which the present pair began. -/
  start : Nat := 0
  /-- DITH, HW and NREP as Pk_IDCFG gives them. -/
  dith : Nat := 1
  hw : Nat := 1
  nrep : Nat := 1
  /-- Sum and number of the values of Īk in the last quarter of each half of the present pair. -/
  plus : Rat × Nat := (0, 0)
  minus : Rat × Nat := (0, 0)
  /-- Pairs that are complete, and the sum of their differences in A. -/
  pairs : Nat := 0
  dsum : Rat := 0
  /-- A remote phase: the slope that the lender has returned, in A/µs (R206). -/
  slope : Option Rat := none
  deriving DecidableEq, Repr

/-- One phase port (R100 to R106). -/
structure Port where
  pwm : Pwm := .mid
  /-- The latest code of the phase ADC slice (R102), and the latest current of a low segment in 1/64 A (R192). -/
  code : Int := 0
  lowI : Option Int := .none
  /-- The port's identification (R119 to R121): the dither of a port of this device's rails, and the slope, which is a lent
  port's part as well (R206). -/
  ident : Ident := {}
  fit : Fit := {}
  /-- Device time of the latest falling edge of the PWM (R118). -/
  fallAt : Nat := 0
  /-- A calibration of its slice runs (R103). -/
  calBusy : Bool := false
  deriving DecidableEq, Repr

/-- One loop engine: the compensation words and the flag of R429. -/
structure Eng where
  /-- A compensation word has arrived and waits for the rail's next firing boundary (R82). -/
  compNew : Bool := false
  /-- The word that waits, and the word in use: THM_CDLY0 and THM_CDLY1 as the round issued them (R82, R323). -/
  compIn : Word × Word := (0, 0)
  comp : Word × Word := (0, 0)
  /-- LATOVR reported since its rail's last shadow (R429). -/
  latovr : Bool := false
  deriving DecidableEq, Repr

/-! ## Comparators and trips (R220 to R258) -/

/-- Comparator outputs and what the trip matrix and the hiccup keep beyond their registers. -/
structure Prot where
  /-- LO and HI sides of C0 to C55; bit c is comparator c. C50 and C51 are kept in the always-on domain. -/
  lo : BitVec 56 := 0xFC3FFFFFFFFFFF
  hi : BitVec 56 := 0xF3C000FFFFFF00
  /-- C52 to C55 have been armed at the end of phase A (R228). -/
  refArmed : Bool := false
  /-- Stage-fault detectors of G0 to G2 (R105), and whether each drives its line (R106). -/
  stg : List Bool := [false, false, false]
  stgUse : List Bool := [false, false, false]
  /-- Trip states forced through TRP_FRC, held until cleared (R257); bit g. -/
  forced : BitVec 12 := 0
  /-- SOFTOFF kept by a hiccup of rail n (R237). -/
  keptSoft : Vector Bool 8 := Vector.replicate 8 true
  deriving DecidableEq, Repr

/-- What protection keeps of one port: the blanking left of R233. -/
structure PortGuard where
  /-- Periods of the blanking of R233 still to run. -/
  blankLeft : Nat := 0
  deriving DecidableEq, Repr

/-! ## Fault collector (R328 to R347) -/

/-- A source in a hold set, and whether its action reached the target as a RAIL or as a DEVICE action (R340). -/
structure Held where
  src : Nat
  rail : Bool
  dev : Bool
  deriving DecidableEq, Repr

/-- A hold set: its sources in the order in which they came, the count of actions, and whether the target is held. -/
structure HoldSet where
  srcs : List Held := []
  count : Nat := 0
  held : Bool := false
  deriving DecidableEq, Repr

/-- The fault collector. -/
structure Flt where
  /-- Messages a command has sent, not yet offered to the latch. -/
  outbox : List Word := []
  /-- Input latch, oldest first (R330). -/
  latch : List Word := []
  /-- Messages whose senders wait for the latch (R330). -/
  waiting : List Word := []
  /-- Hold sets of the twelve targets and of the DEVICE action (R340). -/
  holds : Vector HoldSet 12 := Vector.replicate 12 {}
  dev : HoldSet := {}
  /-- The live instances: source and ADDR (R333). -/
  live : List (Nat × Nat) := []
  /-- Words captured by a read of the other register of their pair, by offset: FLT_FIRST with FLT_FIRSTT, FLT_LAST with
  FLT_LASTT (R20, R345). -/
  snap : List (Nat × Word) := []
  deriving DecidableEq, Repr

/-! ## Crumb stream (R290 to R310) -/

/-- A crumb in a producer's queue: type, payload without its OFS, event time of a stamped crumb, and the drops that a
LOST crumb reports before it. -/
structure Crumb where
  ty : Nat
  payload : List Byte
  at_ : Option Nat
  lost : Nat := 0
  deriving DecidableEq, Repr

/-- A byte on its way to the packer: its value, whether it is a crumb's header, whether it is a crumb's last byte, and
the producer of its crumb (0xFF for TIME, LOST and FLUSH crumbs of the merge stage). -/
structure PByte where
  val : Byte
  hdr : Bool
  last : Bool
  prod : Nat
  deriving DecidableEq, Repr

/-- The crumb stream and the remote drain. -/
structure Crb where
  /-- Producer queues in the order of R290. -/
  queues : Vector (List Crumb) 5 := Vector.replicate 5 []
  /-- Crumbs dropped by each producer since its last accepted crumb. -/
  drops : Vector Nat 5 := Vector.replicate 5 0
  /-- Bytes waiting in the merge stage. -/
  merge : List PByte := []
  /-- The packer's open word. -/
  openw : List PByte := []
  /-- Closed words, oldest first. -/
  fifo : List Word := []
  /-- Stamp base in units of 64 periods; none before the first stamped crumb (R292). -/
  base : Option Nat := none
  /-- The open word is closed and waits for room in the FIFO (R295). -/
  closing : Bool := false
  /-- Write and read pointers (R302). -/
  wp : Nat := 0
  rp : Nat := 0
  /-- Master: receive buffer, words popped, next word wanted, a SYNC awaits its answer, a REQ awaits its answer (R305). -/
  rbuf : List Word := []
  rrp : Nat := 0
  rfp : Nat := 0
  syncWait : Bool := false
  reqWait : Bool := false
  deriving DecidableEq, Repr

/-! ## Command engine (R135 to R182) -/

/-- A vote on a rail: target code and slew code (R156). -/
structure Vote where
  code : Nat
  rate : Nat
  deriving DecidableEq, Repr

/-- A private requester context (R138, R180). -/
structure Ctx where
  /-- 0 free, 1 live, 2 departing. -/
  st : Nat := 0
  bus : Nat := 0
  da : Nat := 0
  pid : Nat := 0
  bcr : Nat := 0
  dcr : Nat := 0
  pending : Nat := 0
  votes : Vector (Option Vote) 8 := Vector.replicate 8 none
  /-- Items completed, 16 bits, wrapping. -/
  items : Nat := 0
  deriving DecidableEq, Repr

/-- A requester on CTX_OVF (R153). -/
structure OvfReq where
  bus : Nat
  da : Nat
  pid : Nat
  pending : Nat := 0
  deriving DecidableEq, Repr

/-- The outcome of a completed item (R160 to R162). -/
structure Done where
  status : Nat
  code : Nat
  flags : Nat
  val0 : Nat
  val1 : Nat
  time : Nat
  deriving DecidableEq, Repr

/-- A tagged item (R150, R151, R181). -/
structure Item where
  /-- Phase of R151; 0 while the tag is free. -/
  phase : Nat := 0
  ctx : Nat := 0
  bus : Nat := 0
  da : Nat := 0
  pid : Nat := 0
  opc : Nat := 0
  rqid : Nat := 0
  rail : Nat := 0
  auth : Bool := false
  /-- The item passed the KEYSLOT check, so its record is signed (R174). -/
  signed : Bool := false
  arg0 : Nat := 0
  arg1 : Nat := 0
  arg2 : Nat := 0
  counter : Nat := 0
  key : Nat := 0
  /-- Order in which items were read, for R152. -/
  seq : Nat := 0
  /-- Flags kept from application: CLAMP and NOWIN (R162). -/
  flags : Nat := 0
  /-- The requester has departed, so the record goes to ORP (R166). -/
  gone : Bool := false
  done : Option Done := none
  deriving DecidableEq, Repr

/-- An orphaned record (R167, R182). -/
structure Orphan where
  bytes : List Byte
  bus : Nat
  da : Nat
  ctx : Nat
  pid : Nat
  counter : Nat
  deriving DecidableEq, Repr

/-- An item read to be repeated: the requester, the attempts used, and how the last one failed (R143, R144). -/
structure Reread where
  ctx : Nat
  da : Nat
  tries : Nat
  badLen : Bool
  deriving DecidableEq, Repr

/-- One of the two I3C controllers (R135 to R145). -/
structure Bus where
  up : Bool := false
  /-- Dynamic addresses held by refused targets (R138). -/
  refused : List Nat := []
  /-- Context last read, and overflow address last read, for the rotation of R145 and R153. Before any read the rotation
  starts at CTX0 (DESIGN CHOICE, log 93). -/
  lastCtx : Nat := 64
  lastOvf : Nat := 0
  /-- A read of an item is in progress: context and address, and whether it is a reread (R143). -/
  reading : Option (Nat × Nat × Bool) := none
  /-- Rereads that come before any other item read of the bus, at most one for a requester (R144). -/
  rereads : List Reread := []
  /-- Reads answered with NACK that are tried again, oldest first: context, address, attempts (R144, R165). -/
  nackReads : List (Nat × Nat × Nat) := []
  /-- Tags in the delivery queue, oldest first (R163). -/
  queue : List Nat := []
  /-- Attempts already made to write the record at the head (R164). -/
  attempts : Nat := 0
  /-- Completed items that wait for a place in the delivery queue (R163). -/
  waitq : List Nat := []
  /-- GETSTATUS polls being retried: address and attempts (R165). -/
  polls : List (Nat × Nat) := []
  /-- The item of the read in progress has been flushed; a bus reset, and an ENTDAA with the targets that it will find, wait
  for that read to end (R140, R145, R169). -/
  flushed : Bool := false
  rstDue : Bool := false
  daaDue : Option (List Target) := none
  deriving DecidableEq, Repr

/-- The command engine. -/
structure Cmd where
  ctxs : Vector Ctx 64 := Vector.replicate 64 {}
  ovf : List OvfReq := []
  ovfVotes : Vector (Option (Vote × Nat)) 8 := Vector.replicate 8 none
  tags : Vector Item 128 := Vector.replicate 128 {}
  free : List Nat := List.range 128
  seq : Nat := 0
  buses : Vector Bus 2 := Vector.replicate 2 {}
  /-- A reset of the command engine waits for the reads in progress to end (R170). -/
  resetDue : Bool := false
  /-- The CMD, CTX and TAG pages whose PRST that reset answers: they read 1 until it has begun (R25, R170). -/
  resetPgs : List Nat := []
  /-- Items read whole in observe freeze, whose checks wait for the release: the tag, the status and code that the read itself
  gives the item, if any, and the bytes as read (R439, R452). -/
  checks : List (Nat × Option (Nat × Nat) × List Byte) := []
  orp : List Orphan := []
  /-- The latest record write on each bus, as sent (R162). -/
  sent : List (Nat × Nat × List Byte) := []
  deriving DecidableEq, Repr

/-! ## Lenulink (R183 to R219) -/

/-- One entry of the cascaded staging order of a rail (R202). -/
structure OrdEntry where
  dev : Nat := 0
  port : Nat := 0
  used : Bool := false
  deriving DecidableEq, Repr

/-- A remote firing whose summary has not been taken: the device time of its decision, its predicted edge in 10 ps, and
whether it has already counted as a failure for want of a summary (R205). -/
structure Await where
  at_ : Nat
  edge : Nat
  lost : Bool := false
  deriving DecidableEq, Repr

/-- What the owner keeps of a remote member (R203 to R206): failures in a row, the on-time that the lender holds, and the
firings whose summaries are awaited. -/
structure Remote where
  rail : Nat
  dev : Nat
  port : Nat
  fails : Nat := 0
  /-- On-time sent in the latest PRELOAD, 40 ps, and whether it was raised or lowered (R117). -/
  preload : Nat := 0
  preRaised : Bool := false
  preLowered : Bool := false
  /-- Firings that await their summaries, oldest first. -/
  awaits : List Await := []
  /-- Device time before which the first token after a join from mid is not dispatched (R204). -/
  notBefore : Nat := 0
  /-- Identified inductance and resistance that the owner keeps of the phase (R134). -/
  l : Nat := 0x640
  dcr : Nat := 0xC8
  /-- The identification of the phase, which the owner runs (R206). -/
  ident : Ident := {}
  deriving DecidableEq, Repr

/-- What a frame of VC1 to VC3 says. The manual lays out the payload of VC2 alone (R191, R192, R302; log 25). -/
inductive RingMsg where
  /-- VC3: the ID to take (R196). -/
  | enum (id : Nat)
  /-- VC3: a device's forwarding latency and chord offset, 40 ps (R196 step 4). -/
  | measure (id fwd : Nat) (chofs : Int)
  /-- VC3: NDEV, the slot map and the hop table (R196 step 5). -/
  | slotMap (ndev : Nat) (map : List Nat) (hops : List (Nat × Nat))
  /-- VC3: a device's answer of step 5 (R196, R198). -/
  | answer (id : Nat) (busy : Bool)
  /-- VC3: OPEN, or its refusal (R196 step 6, R198). -/
  | opened (refused : Bool)
  /-- VC1: a binding check of a port for a rail, or the owner's word that all checks have passed (R201). -/
  | bindCheck (port rail : Nat) (confirm : Bool)
  | bindAnswer (port rail : Nat) (ok : Bool)
  /-- VC1: identification of a lent port: the owner asks the lender to fit, or the lender hands its IDSTART on to the owner
  with DITH, HW and NREP; and the slope that the lender fitted, in A/µs, as a quotient (R206). -/
  | idRequest (port : Nat) (ask : Option (Nat × Nat × Nat))
  | idResult (port : Nat) (num : Int) (den : Nat)
  /-- VC1: a lender's stage fault, or its release (R207). -/
  | faultRelay (group : Nat) (tripped : Bool)
  /-- VC3: the notices of R213 and R217. -/
  | absent (id : Nat)
  | broken (id : Nat)
  /-- VC2: the frames of R302. -/
  | crbReq (rp fp nmax : Nat)
  | crbSync (nmax : Nat)
  | crbData (wp fp : Nat) (words : List Word)
  | crbResync (wp rp : Nat)
  deriving DecidableEq, Repr

/-- The virtual channel of a message (R191). -/
def RingMsg.vc : RingMsg → Nat
  | .enum _ | .measure _ _ _ | .slotMap _ _ _ | .answer _ _ | .opened _ | .absent _ | .broken _ => 3
  | .bindCheck _ _ _ | .bindAnswer _ _ _ | .idRequest _ _ | .idResult _ _ _ | .faultRelay _ _ => 1
  | .crbReq _ _ _ | .crbSync _ | .crbData _ _ _ | .crbResync _ _ => 2

/-- A frame or token on the ring (R187, R191, R192). -/
inductive Frame where
  /-- F-lane token: DEVID, RAIL and PORT. -/
  | token (devid rail port : Nat)
  /-- VC0 frame: DEST, TYPE, PORT and the 24 bits of P0 to P2. -/
  | vc0 (dest ty port payload : Nat)
  /-- Credit frame: DEST, VC, CLASS and COUNT. -/
  | credit (dest vc cls count : Nat)
  /-- Frame of VC1 to VC3: class B or A, DEST, SRC, FN, and what it says. -/
  | msg (clsB : Bool) (dest src fn : Nat) (m : RingMsg)
  deriving DecidableEq, Repr

/-- A frame that waits for the D output: the channel whose credit it takes (4 for a credit frame), its class, the frame,
whether it needs no credit, and the channel and class of the credit that its leaving returns upstream (R193, R194). -/
structure OutFrame where
  vc : Nat
  clsB : Bool := false
  frame : Frame
  free : Bool := false
  back : Option (Nat × Bool) := none
  deriving DecidableEq, Repr

/-- What an opening of the ring may change, kept so that a refusal leaves the ring as it is (R198). -/
structure RingPrior where
  /-- Offsets and words of page LNK. -/
  regs : List (Nat × Word)
  bound : List Bool
  map : List Nat
  hops : List (Nat × Nat)
  credits : Vector Nat 8
  delay : Nat
  source : Bool
  deputy : Bool
  deriving DecidableEq, Repr

/-- A frame of VC1 to VC3 that the D input holds: its head, what it says, the ports whose lenders answer a slot map rightly,
and whether an ENUM is this device's own (R194, R196, R201, R439). -/
structure InFrame where
  head : FrameHead
  msg : RingMsg
  bound : List (Nat × Nat × Nat) := []
  own : Bool := false
  deriving DecidableEq, Repr

/-- The ring interface. -/
structure Lnk where
  /-- Inputs locked (R196). -/
  locked : Bool := false
  /-- Slot sequence numbers counted on the F input and on the F output, of the latest slot of each (R187, R188). -/
  ssnIn : Nat := 0
  ssn : Nat := 0
  /-- Slots in the present window of LNK_LOAD, how many carried tokens, and the VC0 frames sent in it (R219). -/
  slots : Nat := 0
  tokens : Nat := 0
  vc0s : Nat := 0
  /-- Hop table: latency of the hop leaving device i + 1 and F latency from the master, 40 ps (R200). -/
  hops : List (Nat × Nat) := []
  /-- Staging orders of the cascaded rails (R202), as a list of used entries by rail. -/
  staging : Vector (List OrdEntry) 8 := Vector.replicate 8 []
  /-- The remote phases of the active orders (R203 to R206). -/
  remotes : List Remote := []
  /-- Preloads of the lent ports (R204), by port. -/
  preloads : Vector (Option Nat) 24 := Vector.replicate 24 none
  /-- A lent port has fired since its binding (R207). -/
  lentFired : Vector Bool 24 := Vector.replicate 24 false
  /-- A lent port is held in mid by an order, a timeout, a break or a safe state, until its next token (R206, R207). -/
  lentMid : Vector Bool 24 := Vector.replicate 24 true
  /-- A lent port goes to mid, until its next token, once its on-time in progress has ended (R114, R217). -/
  lentLater : Vector Bool 24 := Vector.replicate 24 false
  /-- Credits held for VC0 to VC3 in classes A and B (R194), index 2·vc + class. -/
  credits : Vector Nat 8 := Vector.replicate 8 0
  /-- Absent predecessor declared (R213). -/
  absent : Option Nat := none
  /-- Devices that have answered step 5, and whether any reported a running cascaded rail (R196, R198). -/
  answers : List Nat := []
  busyRail : Bool := false
  /-- Lent ports whose slope this lender is fitting (R206). -/
  idLent : List Nat := []
  /-- The frame numbers sent on VC1 to VC3 (R192). -/
  fn : Vector Nat 4 := Vector.replicate 4 0
  /-- The ring as it stood before the opening under way (R198), and an OPEN that waits for the inputs to lock (R196). -/
  prior : Option RingPrior := none
  openDue : Bool := false
  /-- The bring-up under way has ended with OPENFAIL or a second master, and goes no further (R195, R197). -/
  failed : Bool := false
  /-- The measurements that the master has collected: device and forwarding latency (R196 step 4). -/
  meas : List (Nat × Nat) := []
  /-- The slot map that acts on a device that is no master, as the latest opening gave it (R199). -/
  map : List Nat := []
  /-- Chord delay buffer in 40 ps (R200, R212). -/
  chordDelay : Nat := 0
  /-- The chord copies of the last 64 frames of VC1 to VC3, oldest first, each with whether the primary has brought it, and the
  SRC, VC and FN of the last 64 frames that the primary has brought (R214). -/
  chordStore : List (Frame × Bool) := []
  chordSeen : List (Nat × Nat × Nat) := []
  /-- This device found both inputs invalid, and is a source and sink (R217). -/
  source : Bool := false
  /-- Frames of VC1 to VC3 that the D input holds in observe freeze, oldest first (R194, R439). -/
  inq : List InFrame := []
  /-- Frames that wait for the D output, oldest first (R193, R194). -/
  outq : List OutFrame := []
  /-- Frames and tokens sent, newest first. -/
  sent : List Frame := []
  deriving DecidableEq, Repr

/-! ## Self-repair, maintenance and freeze (R424 to R445) -/

/-- The repair map (R425). -/
structure RepairMap where
  seq : Nat := 0
  /-- Engine serving rail n; 15 none. -/
  eng : Vector Nat 8 := Vector.ofFn (fun i => i.val)
  /-- State of engine j. -/
  engSt : Vector Nat 10 := Vector.replicate 10 0
  /-- Window slice serving rail n. -/
  wsl : Vector Nat 8 := Vector.ofFn (fun i => i.val)
  wret : BitVec 9 := 0
  /-- Port served by phase slices 24 and 25; 31 none. -/
  sp24 : Nat := 31
  sp25 : Nat := 31
  pret : BitVec 26 := 0
  /-- Flash sector substitutions: logical and physical sector (R373). -/
  flash : List (Nat × Nat) := []
  /-- SRAM rows replaced: array and row. -/
  sram : List (Nat × Nat) := []
  /-- Tap groups on their spare. -/
  taps : BitVec 64 := 0
  deriving DecidableEq, Repr

/-- A maintenance activity: its code of R435, its instance, and for SHADOW and SLCMP the spare it uses. -/
structure Act where
  code : Nat
  inst : Nat
  spare : Nat := 0
  deriving DecidableEq, Repr

/-- The repair, test and freeze block. -/
structure Rpr where
  map : RepairMap := {}
  running : List Act := []
  waiting : List Act := []
  /-- A mismatch waits for the rail's next firing boundary: rail and engine (R431). -/
  takeover : Option (Nat × Nat) := none
  /-- Rails whose engine a tap group without a spare has retired, which the next firing boundary replaces (R96, R424). -/
  swapDue : List Nat := []
  /-- A shadow that a safe state has ended: rail, shadowing engine, and the device time with its wraps (R432). -/
  lapsed : Option (Nat × Nat × Nat) := none
  /-- Spare tap groups and spare SRAM rows that a background test has found failing, as units of Maint.lean (R424, R428). -/
  badSpares : List Nat := []
  /-- Device time, with its wraps, of the request that the freeze in force came from (R442). -/
  reqAt : Nat := 0
  /-- A granted shadow waits for its firing boundary (R430). -/
  shadowPend : Bool := false
  /-- Slice change pending for a port: port and slice (R433). -/
  pspend : List (Nat × Nat) := []
  /-- Maps queued to be written, oldest first (R426). -/
  mapQ : List RepairMap := []
  /-- The first copy of the map at the head has committed, and the second waits to begin (R19, R426). -/
  mapHalf : Bool := false
  /-- Freeze depth in force: 0 none, 1 observe, 2 full (R438). -/
  depth : Nat := 0
  /-- Full freeze has passed step 3 and step 4 (R440). -/
  allMid : Bool := false
  halted : Bool := false
  /-- Filtered level of the FRZ pin, and whether the freeze was asked for by the pin (R438, R442). -/
  pin : Bool := false
  byPin : Bool := false
  /-- The cooling rack: 1,024 words, none before a capture (R442). -/
  rack : List Word := []
  rackDepth : Bool := false
  rackKept : Bool := false
  /-- TAP instruction in force (R443) and the data it holds. -/
  tapIr : Nat := 2
  tapAddr : Nat := 0
  /-- Boundary-scan cells as captured, the values last preloaded, and whether EXTEST is in force (R443). -/
  bscan : List Bool := []
  preload : List Bool := []
  extest : Bool := false
  /-- Slice compares still to be requested, as instances of Maint (R433). -/
  slq : List Nat := []
  /-- Units of the background pass still to be tested, and regions of the recalibration still to be measured (R428,
  R434). -/
  bgLeft : List Nat := []
  recalLeft : List Nat := []
  /-- A recalibration is due because the latest BOOT was cold (R434). -/
  recalDue : Bool := false
  deriving DecidableEq, Repr

/-! ## Host ports (R34 to R63) -/

/-- A write held for the end of BOOT or the release of a freeze: port, page, offset, word, and whether it is an entry of the
configuration image (R376, R413, R439). -/
structure HeldWrite where
  port : HostPort
  page : Nat
  off : Nat
  val : Word
  img : Bool := false
  deriving DecidableEq, Repr

/-- An SPI stream frame in progress (R44, R45): its port, the word slots still to be filled, and the bytes sent from
STATUS on, which RCRC covers (R43). -/
structure Stream where
  page : Nat
  off : Nat
  left : Nat
  deriving DecidableEq, Repr

/-- The host port. -/
structure Hst where
  /-- The previous SPI frame was aborted (R42). -/
  prevAbort : Bool := false
  /-- Bytes the device drove on SPI_MISO after the header of the latest frame: for a read from its first wait byte on, for
  a write from its first data slot on, and for a refused header STATUS and a 0x00 for every later slot (R39, R41, R43). -/
  miso : List Byte := []
  /-- Bytes the device sent in the latest SMBus read, with the PEC where the host clocked it, and whether it acknowledged
  (R50, R57). -/
  smb : List Byte := []
  smbAck : Bool := true
  /-- DATA and DONE of the latest JTAG register access, or the bits of the latest data register (R443). -/
  jtag : List Byte := []
  /-- The bits that the latest scan of the TAP's instruction register returned: its capture value (R443). -/
  jtagIr : Nat := 0
  stream : Option Stream := none
  /-- ALERT_N is released by an alert response (R51). -/
  alertRel : Bool := false
  held : List HeldWrite := []
  /-- A page reset of HST waits for the frame or transaction in progress to end (R62). -/
  resetDue : Bool := false
  /-- A software reset waits for the frame or transaction that carries it to end (R416). -/
  swrstDue : Bool := false
  deriving DecidableEq, Repr

/-! ## Auxiliary channels and fan (R259 to R280) -/

/-- The states of a channel (R266). -/
inductive AuxState where
  | off | start | run | safe
  deriving DecidableEq, Repr

/-- The code of a channel state (R266). -/
def AuxState.code : AuxState → Nat
  | .off => 0 | .start => 1 | .run => 2 | .safe => 3

/-- One auxiliary channel: working copies, compensator and gate schedule. -/
structure AuxCh where
  st : AuxState := .off
  ssceil : Nat := 0
  /-- Working copies of R264. -/
  per : Nat := 400
  duty : Nat := 0
  dtlh : Nat := 40
  dthl : Nat := 40
  /-- The copies of PERIOD, DTLH and DTHL for the period that the next boundary starts (R264, R265). -/
  perNext : Nat := 400
  dtlhNext : Nat := 40
  dthlNext : Nat := 40
  tgt : Nat := 0
  kp : Nat := 16
  ki : Nat := 1
  xratio : Nat := 16
  integ : Int := 0
  /-- Duty captured for the coming period, and the duty of the present one (R260, R263). -/
  dnext : Nat := 0
  dcur : Nat := 0
  /-- Levels the schedule and the force give the gates (R261, R276). -/
  xh : Bool := false
  xl : Bool := false
  /-- XLGn was high at the boundary of the present period (R260). -/
  xlAtB : Bool := false
  /-- Dead time running: 0 none, 1 before XHGn rises, 2 before XLGn rises (R261). -/
  dead : Nat := 0
  /-- Device times of the latest falls of XHGn and XLGn, none before the first (R261, R274). -/
  xhFall : Option Nat := none
  xlFall : Option Nat := none
  /-- The present period was limited, and limited periods in a row (R271). -/
  limited : Bool := false
  limRow : Nat := 0
  /-- Row 2 and row 3 of R274 hold until the next boundary (R268, R273). -/
  ovHold : Bool := false
  tripHold : Bool := false
  /-- Row 6 of R274 holds until the boundary (R272). -/
  revHold : Bool := false
  /-- Full freeze has reached a boundary (R274 row 4). -/
  frz : Bool := false
  /-- Periods of the blanking of R271 still to run. -/
  blank : Nat := 0
  /-- A disable waits for the boundary (R266). -/
  offPend : Bool := false
  /-- A force is in effect, and a force or release waits for its instant (R276). -/
  forced : Bool := false
  forcePend : Bool := false
  /-- A DUTY write waits for its first capture point, and whether it has missed one (R265). -/
  dutyNew : Bool := false
  dutyMiss : Bool := false
  /-- The latest captured DUTY write is used from the next period (R265). -/
  dutyTaken : Bool := false
  /-- Rounded feedback code of the latest conversion (R263). -/
  vfb : Nat := 0
  deriving DecidableEq, Repr

/-- The channels and the fan. -/
structure Aux where
  ch : Vector AuxCh 4 := Vector.replicate 4 {}
  /-- Duty applied in the present fan period, and the device time at which that period began (R277). -/
  fanCur : Nat := 0
  fanStart : Nat := 0
  /-- Writes of FAN_DUTY in the last 10 ns, newest first: device time and the value that stood before (R277). -/
  fanOlds : List (Nat × Nat) := []
  /-- RPM as it stood when the fan stalled (R278). -/
  rpm : Nat := 0
  /-- Device times of the latest tach edges, newest first, at most 16 (R278). -/
  tach : List Nat := []
  deriving DecidableEq, Repr

/-! ## Telemetry (R281 to R289) -/

/-- The sums of one base interval for a rail (R281, R283): samples, voltage in 1/4,096 of 0.5 mV, current in A, current
of the high ports in A, and the marks of R282. -/
structure RailAcc where
  n : Nat := 0
  v : Int := 0
  i : Rat := 0
  iin : Rat := 0
  sat : Bool := false
  search : Bool := false
  /-- The latest saturated sample was saturated below (R282). -/
  low : Bool := false
  deriving DecidableEq, Repr

/-- The telemetry unit. -/
structure Tlm where
  acc : Vector RailAcc 8 := Vector.replicate 8 {}
  /-- Sums of the phase-ADC currents of the interval, 1/64 A, and their number. -/
  pacc : Vector (Int × Nat) 24 := Vector.replicate 24 (0, 0)
  /-- Latest base sample of each channel, in the unit of its value field; none before the first. -/
  base : Vector (Option Int) 84 := Vector.replicate 84 none
  /-- Sums over the present window of each channel. -/
  sum : Vector Int 84 := Vector.replicate 84 0
  /-- The present window of the channel is whole, so its end gives a result (R285, R288). -/
  whole : Vector Bool 84 := Vector.replicate 84 true
  /-- Base-sample count of R285; none before the end of BOOT. -/
  count : Option Nat := none
  /-- Working and stable bank (R286). -/
  work : Vector Int 84 := Vector.replicate 84 0
  stable : Vector Int 84 := Vector.replicate 84 0
  swapReq : Bool := false
  /-- Peaks, lowest and highest, cleared on read and by command (R289). -/
  pkr : Vector (Option (Int × Int)) 84 := Vector.replicate 84 none
  pkc : Vector (Option (Int × Int)) 84 := Vector.replicate 84 none
  /-- Windows ended by each channel, for the DEC field of TLM_CRB (R291). -/
  wins : Vector Nat 84 := Vector.replicate 84 0
  /-- Bus voltages delivered to the loop, 0.5 mV (R71, R282); none before the first base sample. -/
  vin : Vector Nat 2 := Vector.replicate 2 0
  /-- Window centre the unit steers for an idle rail, 1/4,096 of 0.5 mV (R282). -/
  steer : Vector Int 8 := Vector.replicate 8 0
  deriving DecidableEq, Repr
/-! ## Thermal and housekeeping (R311 to R325) -/

/-- A confirmed condition: it holds, and the consecutive evaluations that met it or met its release (R320). -/
structure Confirm where
  on : Bool := false
  up : Nat := 0
  dn : Nat := 0
  deriving DecidableEq, Repr

/-- The readings that an evaluation keeps for the rates of R322: die sensors and stage groups, none when not valid. -/
structure ThmRow where
  die : Vector (Option Int) 6
  stage : Vector (Option Int) 3
  deriving DecidableEq, Repr

/-- The housekeeping manager. -/
structure Thm where
  /-- A round is in progress (R312). -/
  active : Bool := false
  /-- PER as the round in progress took it (R311). -/
  per : Nat := 4
  /-- Rounds abandoned in a row (R313). -/
  missed : Nat := 0
  /-- Consecutive evaluations with a deviation beyond XCHK, by sensor (R316). -/
  xcnt : Vector Nat 6 := Vector.replicate 6 0
  /-- Conditions of R319 to R322: TJWARN, TSD, TRISE, SRISE by group, STGWARN and STGOT by rail, supplies,
  references, VINCHK by bus. -/
  tjwarn : Confirm := {}
  tsd : Confirm := {}
  trise : Confirm := {}
  srise : Vector Confirm 3 := Vector.replicate 3 {}
  stgw : Vector Confirm 8 := Vector.replicate 8 {}
  stgot : Vector Confirm 8 := Vector.replicate 8 {}
  supply : Vector Confirm 5 := Vector.replicate 5 {}
  refdrift : Vector Confirm 4 := Vector.replicate 4 {}
  vinchk : Vector Confirm 2 := Vector.replicate 2 {}
  /-- Earlier evaluations, newest first (R322). -/
  hist : List ThmRow := []
  deriving DecidableEq, Repr

/-! ## Bakehouse (R348 to R368) -/

/-- What the running program waits for between steps (R350, R356). -/
inductive BWait where
  | none
  | good (tgt : Nat) (want : Bool)
  | delay
  | railsOff
  | outPin
  deriving DecidableEq, Repr

/-- A queued black-box record (R363, R364): bytes 0 to 55 without RECSEQ, and the message it reports. -/
structure BRec where
  ty : Nat
  info : Nat
  repeats : Nat
  msg : Word
  /-- Bytes 8 to 55 as captured; bytes 16 to 19 are the message. -/
  body : List Byte
  /-- Its write has begun. -/
  begun : Bool := false
  deriving DecidableEq, Repr

/-- The Bakehouse. -/
structure Bkh where
  /-- Steps of the four programs in program SRAM; an absent program has none (R349). -/
  progs : Vector (List (BitVec 64)) 4 := Vector.replicate 4 []
  /-- A program runs; the default DOWN counts as DOWN (R356). -/
  running : Bool := false
  prog : Nat := 0
  step : Nat := 0
  wait : BWait := .none
  /-- The default DOWN runs in place of program 1 (R356). -/
  default_ : Bool := false
  /-- A park request waits for DOWN to run and end (R361). -/
  park : Bool := false
  /-- DOWN has ended for a park, and MAINEN waits for the records (R361). -/
  parking : Bool := false
  /-- Filtered levels at the SEQ pins with every output released (R357). -/
  seqIn : BitVec 16 := 0xFFFF
  /-- BOOT has ended, and OUT pins follow BKH_SEQOUT (R357). -/
  outEn : Bool := false
  /-- Watched IN pins (R359). -/
  watch : BitVec 16 := 0
  /-- Record queue, oldest first, at most 16 (R363). -/
  queue : List BRec := []
  /-- The formed fleet report, empty before the first (R368). -/
  report : List Byte := []
  /-- A new report is due, and a nonce has been written since the previous report (R366, R368). -/
  reportDue : Bool := false
  nonceNew : Bool := false
  /-- The log scan of R367 has covered the whole log. -/
  scanned : Bool := false
  /-- Slots of the log whose records have been committed since BOOT, until the scan ends (R367). -/
  fresh : List Nat := []
  deriving DecidableEq, Repr

/-! ## Nonvolatile store and security (R371 to R395) -/

/-- What a record in the slot format is: a black-box record, a control record, or the first or second copy of the repair
map (R378, R384, R426). -/
inductive RecKind where
  | log | ctl | map1 | map2
  deriving DecidableEq, Repr

/-- A record on its way into flash (R378): its kind, its logical byte address, its 64 bytes, the steps that have ended,
and whether the program of the next step is under way. -/
structure RecWrite where
  kind : RecKind
  addr : Nat
  bytes : List Byte
  steps : Nat
  going : Bool
  deriving DecidableEq, Repr

/-- Why a sector is being erased (R373, R377, R379, R384, R395). -/
inductive EraseWhy where
  | log | ctl | host | bb
  deriving DecidableEq, Repr

/-- A host operation of R377 under way: operation, area, offset, the page buffer as it stood at GO, and whether the
operation has begun in the flash, which it does once the flash is free and nothing that goes before it waits (R382). -/
structure HostOp where
  op : Nat
  area : Nat
  off : Nat
  buf : List Word
  begun : Bool
  deriving DecidableEq, Repr

/-- The values a control record carries (R384). -/
structure Ctl where
  seq : Nat := 0
  ceil : Vector Nat 4 := Vector.replicate 4 0
  frceil : Nat := 0
  minver : Nat := 0
  pref : Bool := false
  level : Nat := 0
  torn : Nat := 0
  recbase : Nat := 0
  logerase : Nat := 0
  deriving DecidableEq, Repr

/-- The volatile part of the nonvolatile store. -/
structure Nvm where
  /-- The newest committed control record (R384). -/
  ctl : Ctl := {}
  /-- Slot of the control sectors written next, 0 to 63 (R384). -/
  ctlSlot : Nat := 0
  /-- Slot of the newest committed control record (R384). -/
  ctlLast : Nat := 0
  /-- A control record is wanted (R384). -/
  ctlWant : Bool := false
  /-- Values the wanted control record takes. -/
  next : Ctl := {}
  /-- Record write under way (R378). -/
  write : Option RecWrite := none
  /-- Logical sectors to erase, in order; the first is being erased unless a program or a hold suspends it (R371, R379,
  R381, R384, R395). -/
  erases : List (Nat × EraseWhy) := []
  /-- In a freeze the erase under way has ended, or none was, and no other begins before the release (R19, R439). -/
  eraseStop : Bool := false
  /-- The host operation under way (R377). -/
  host : Option HostOp := none
  /-- Log head: slot index 0 to 1,055 written next, and records held (R379). -/
  head : Nat := 0
  recs : Nat := 0
  /-- RECSEQ of the next record (R364). -/
  recseq : Nat := 0
  /-- Corrected words of each physical sector in the present scrub pass (R373), and the sectors marked for retirement. -/
  corrected : List (Nat × Nat) := []
  retire : List Nat := []
  /-- Log sectors that are skipped because they can no longer be erased (R373). -/
  skipped : List Nat := []
  deriving DecidableEq, Repr

/-- An OTP burn under way (R386, R387). -/
inductive Burn where
  | slot (k : Nat) (key : List Word)
  | imgauth (k : Nat)
  | close
  | revoke (mask : Nat)
  deriving DecidableEq, Repr

/-- The security block. -/
structure Sec where
  /-- The OTP burn under way (R386). -/
  burn : Option Burn := none
  /-- The burn has begun; none begins under a hold (R381). -/
  burnOn : Bool := false
  /-- Revocations that wait for a burn under way or a hold (R381, R387). -/
  revokeWait : Nat := 0
  /-- Ceilings wanted for K0 to K3 and, at index 4, FRCNT (R389, R391, R393). -/
  want : Vector (Option Nat) 5 := Vector.replicate 5 none
  /-- Device time of the latest reservation by slot (R391). -/
  made : Vector (Option Nat) 5 := Vector.replicate 5 none
  /-- CTRFAIL has been sent since the latest reservation of the slot. -/
  failed : Vector Bool 5 := Vector.replicate 5 false
  /-- Device time, in periods, at which the hold-off in force ends (R394). -/
  holdEnd : Nat := 0
  deriving DecidableEq, Repr

/-! ## The machine -/

/-- Everything in the core: what a reset of the core returns to its reset value (R417). -/
structure Core where
  /-- Register fields, in canonical form: a key is page × 256 + offset (R6). -/
  regs : List (Nat × Word) := []
  /-- Device time in periods of 2.5 ns (R14). -/
  time : BitVec 48 := 0
  /-- How often device time has wrapped: the model's own count, so that an interval that a wrap falls into keeps its length
  (R14, R154, R391, R394; log 81). -/
  wraps : Nat := 0
  /-- Position in the free values of Config: the model's own field, not the manual's (log 6). -/
  free : Nat := 0
  rails : Vector Rail 8 := Vector.replicate 8 {}
  ports : Vector Port 24 := Vector.replicate 24 {}
  guards : Vector PortGuard 24 := Vector.replicate 24 {}
  engs : Vector Eng 10 := Vector.replicate 10 {}
  prot : Prot := {}
  flt : Flt := {}
  crb : Crb := {}
  cmd : Cmd := {}
  lnk : Lnk := {}
  tlm : Tlm := {}
  aux : Aux := {}
  thm : Thm := {}
  bkh : Bkh := {}
  nvm : Nvm := {}
  sec : Sec := {}
  rpr : Rpr := {}
  hst : Hst := {}
  deriving DecidableEq, Repr

/-- The CRC-32 of words 16, 17 and 32 to 61 of a blank OTP, which word 62 holds (R385, R414; DESIGN CHOICE, log 4). -/
def otpBlankCrc : Word := 0xC2A8FA9D

/-- What outlives every reset: flash by physical byte address, erased bytes unlisted, and OTP (R371, R385). -/
structure Store where
  flash : List (Nat × Byte) := []
  /-- Flash words in which two bit errors have been found, as a quarter of their physical byte address (R371, R373). -/
  bad : List Nat := []
  otp : Vector Word 64 := Vector.ofFn (fun i => if i.val = 62 then otpBlankCrc else 0)
  deriving DecidableEq, Repr

/-- Faults of the model: none of them is an effect of the device. -/
inductive Fault where
  /-- A register command names a page or an offset that no register address has (R5). Raised by the commands that carry
  a page number or an offset as a number; safe, for no such access exists (log 3). -/
  | illFormed
  deriving DecidableEq, Repr

/-- Refusals of the model. -/
inductive Refusal where
  /-- The command has no meaning in this model. Raised by the dispatch; safe. -/
  | notModelled (mnemonic : String)
  deriving DecidableEq, Repr

/-- The state of the block and the commands that wait. -/
structure State where
  core : Core := {}
  pw : Power := {}
  st : Store := {}
  pending : List Instr := []
  deriving DecidableEq, Repr

/-- The device just after a VKEEP power-on (R404, R407, R415): PARKED, no core supply, the core at its reset values. -/
def State.reset : State := {}

end Sys2Proof.Machine
end

