-- ==== Sys2Proof/Machine/Ops.lean ====
section
/-! DEFINITION. The operations every meaning shares: register fields by name (R5 to R10), the page head's sticky bits
and event count (R26 to R28), the fault collector's coded message (R328, R330), live levels (R333), free values, and the
conditions under which a path runs (R18, R19). -/
namespace Sys2Proof.Machine

/-! ## Indexed parts -/

/-- Element `i`, or the default where there is none. -/
def vget {α : Type} {n : Nat} (v : Vector α n) (i : Nat) (d : α) : α := (v[i]?).getD d

/-- Element `i` changed by `f`; nothing where there is none. -/
def vmod {α : Type} {n : Nat} (v : Vector α n) (i : Nat) (f : α → α) : Vector α n :=
  if h : i < n then v.set i (f v[i]) else v

def Core.rail (c : Core) (n : Nat) : Rail := vget c.rails n {}
def Core.modRail (c : Core) (n : Nat) (f : Rail → Rail) : Core := { c with rails := vmod c.rails n f }
def Core.port (c : Core) (k : Nat) : Port := vget c.ports k {}
def Core.modPort (c : Core) (k : Nat) (f : Port → Port) : Core := { c with ports := vmod c.ports k f }
def Core.guard (c : Core) (k : Nat) : PortGuard := vget c.guards k {}
def Core.modGuard (c : Core) (k : Nat) (f : PortGuard → PortGuard) : Core := { c with guards := vmod c.guards k f }
def Core.eng (c : Core) (j : Nat) : Eng := vget c.engs j {}
def Core.modEng (c : Core) (j : Nat) (f : Eng → Eng) : Core := { c with engs := vmod c.engs j f }
def Core.xch (c : Core) (n : Nat) : AuxCh := vget c.aux.ch n {}
def Core.modXch (c : Core) (n : Nat) (f : AuxCh → AuxCh) : Core := { c with aux := { c.aux with ch := vmod c.aux.ch n f } }
def Core.ctx (c : Core) (i : Nat) : Ctx := vget c.cmd.ctxs i {}
def Core.modCtx (c : Core) (i : Nat) (f : Ctx → Ctx) : Core := { c with cmd := { c.cmd with ctxs := vmod c.cmd.ctxs i f } }
def Core.item (c : Core) (t : Nat) : Item := vget c.cmd.tags t {}
def Core.modItem (c : Core) (t : Nat) (f : Item → Item) : Core := { c with cmd := { c.cmd with tags := vmod c.cmd.tags t f } }
def Core.bus (c : Core) (b : Nat) : Bus := vget c.cmd.buses b {}
def Core.modBus (c : Core) (b : Nat) (f : Bus → Bus) : Core := { c with cmd := { c.cmd with buses := vmod c.cmd.buses b f } }

/-! ## Registers -/

/-- The stored word of a register (R6). -/
def Core.reg (c : Core) (pg off : Nat) : Word := Sparse.get resetWord c.regs (regKey pg off)

/-- A register's stored word replaced. -/
def Core.setReg (c : Core) (pg off : Nat) (w : Word) : Core :=
  { c with regs := Sparse.put resetWord c.regs (regKey pg off) w }

/-- A field, unsigned. -/
def Core.fld (c : Core) (pg : Nat) (f : Field) : Nat := getBits (c.reg pg f.off) f.lo f.len

/-- A field replaced, the rest of its register kept. -/
def Core.setFld (c : Core) (pg : Nat) (f : Field) (v : Nat) : Core :=
  c.setReg pg f.off (setBits (c.reg pg f.off) f.lo f.len v)

/-- A one-bit field, or whether a field is other than 0. -/
def Core.flag (c : Core) (pg : Nat) (f : Field) : Bool := c.fld pg f ≠ 0

/-- A two's-complement field (R5). -/
def Core.sfld (c : Core) (pg : Nat) (f : Field) : Int := toSigned f.len (c.fld pg f)

/-- A two's-complement field replaced, saturated to its range. -/
def Core.setSfld (c : Core) (pg : Nat) (f : Field) (x : Int) : Core := c.setFld pg f (ofSignedSat f.len x)

/-- A saturating count increased by `k`. -/
def Core.incSat (c : Core) (pg : Nat) (f : Field) (k : Nat) : Core := c.setFld pg f (satAdd f.len (c.fld pg f) k)

/-- A wrapping count increased by `k`. -/
def Core.incWrap (c : Core) (pg : Nat) (f : Field) (k : Nat) : Core := c.setFld pg f (wrapAdd f.len (c.fld pg f) k)

/-- Device time with the wraps of R14 counted on. -/
def Core.absTime (c : Core) : Nat := c.wraps * 2 ^ 48 + c.time.toNat

/-- Device time in the low 32 bits (R14). -/
def Core.time32 (c : Core) : Nat := c.time.toNat % 2 ^ 32

/-! ## The page head (R25 to R30) -/

/-- STAT bit of a page. -/
def Core.stat (c : Core) (pg bit : Nat) : Bool := bitOf (c.reg pg 0x08) bit

/-- STKY bit of a page. -/
def Core.stky (c : Core) (pg bit : Nat) : Bool := bitOf (c.reg pg 0x0C) bit

/-- The event count of a page increased by `k`, saturating (R27). -/
def Core.countEvc (c : Core) (pg k : Nat) : Core := c.incSat pg H_EVC_COUNT k

/-- A STKY bit goes from 0 to 1: where it is enabled, ALERT_N is driven again after an alert response (R51). -/
def Core.realert (c : Core) (pg bit : Nat) : Core :=
  if bitOf (c.reg pg 0x10) bit then { c with hst := { c.hst with alertRel := false } } else c

/-- A condition rises or its event occurs: the STKY bit is set, and a bit going from 0 to 1 is a set event, counts in
EVC (R26, R27) and, where enabled, ends the release of ALERT_N (R51). -/
def Core.raise (c : Core) (pg bit : Nat) : Core :=
  if c.stky pg bit then c
  else ((c.setReg pg 0x0C (putBit (c.reg pg 0x0C) bit true)).countEvc pg 1).realert pg bit

/-- A condition's level in STAT becomes `b`; its rise sets the STKY bit (R25, R26). -/
def Core.setLevel (c : Core) (pg bit : Nat) (b : Bool) : Core :=
  let was := c.stat pg bit
  let c := c.setReg pg 0x08 (putBit (c.reg pg 0x08) bit b)
  if b && !was then c.raise pg bit else c

/-- A STAT bit made `b` with no event of its own: where a chapter sets the STKY bit on something other than the rise. -/
def Core.setStat (c : Core) (pg bit : Nat) (b : Bool) : Core := c.setReg pg 0x08 (putBit (c.reg pg 0x08) bit b)

/-- One STKY bit written with 1: `coinc` when a set event falls at the same instant. A level that is present, or a
coincident event, keeps the bit at 1 and counts the clear write; the event counts as well (R8, R26, R27). A bit that stood
at 0 goes to 1 with the event (R51). -/
def Core.clearSticky (c : Core) (pg bit : Nat) (coinc : Bool) : Core :=
  if coinc then
    if c.stky pg bit then c.countEvc pg 2
    else ((c.setReg pg 0x0C (putBit (c.reg pg 0x0C) bit true)).countEvc pg 2).realert pg bit
  else if c.stat pg bit && c.stky pg bit then c.countEvc pg 1
  else c.setReg pg 0x0C (putBit (c.reg pg 0x0C) bit false)

/-- The bits at 1 of a word, lowest first. -/
def bitsOf (w : Word) : List Nat := (List.range 32).filter (fun i => bitOf w i)

/-- A page's interrupt is raised while (STKY AND IEN) is not zero (R30). -/
def Core.irq (c : Core) (pg : Nat) : Bool := (c.reg pg 0x0C &&& c.reg pg 0x10) ≠ 0

/-- The lock group of a field is closed (R29). -/
def Core.locked (c : Core) (pg : Nat) (f : Field) : Bool :=
  match f.acc with
  | .rwl g => bitOf (c.reg pg 0x18) g
  | _ => false

/-- A page's fields returned to reset, but those that `keep` names and the RWL fields of a locked group (R29); IEN and
EVC reset, and STKY left only where a bit stands at 1 and its level is present (R26). LCK is kept (R417). -/
def Core.resetPage (c : Core) (pg : Nat) (keep : Field → Bool) : Core :=
  match kindOf pg with
  | none => c
  | some k =>
    let c := (fieldsOf k).foldl
      (fun c f => if keep f || c.locked pg f then c else c.setFld pg f f.rst) c
    let c := c.setReg pg 0x0C (c.reg pg 0x0C &&& c.reg pg 0x08)
    (c.setReg pg 0x10 (BitVec.ofNat 32 (ienReset k))).setFld pg H_EVC_COUNT 0

/-! ## Free values (log 6) -/

/-- The next free word, and the state that has used it. -/
def Core.takeWord (c : Core) : Word × Core := (Config.freeWord c.free, { c with free := c.free + 1 })

/-- The next free choice, and the state that has used it. -/
def Core.takeBool (c : Core) : Bool × Core := (Config.freeBool c.free, { c with free := c.free + 1 })

/-- A field given a value the manual leaves open. -/
def Core.freeFld (c : Core) (pg : Nat) (f : Field) : Core :=
  let p := c.takeWord
  p.2.setFld pg f p.1.toNat

/-! ## Fault messages (R328, R330) -/

/-- Parity of the low `k` bits of a number: true when an odd number of them is 1. -/
def oddParity : Nat → Nat → Bool
  | 0, _ => false
  | k + 1, v => xor (v % 2 = 1) (oddParity k (v / 2))

/-- The coded message: SOURCE, KIND, ADDR and the two check bits (R328). -/
def mkMsg (src kind addr : Nat) : Word :=
  let top := src % 256 * 2 ^ 24 + kind % 64 * 2 ^ 18 + addr % 65536 * 4
  BitVec.ofNat 32 (top + (if oddParity 15 (top / 2 ^ 17) then 2 else 0) + (if oddParity 15 (top / 4) then 1 else 0))

/-- SOURCE, KIND and ADDR of a message (R328). -/
def msgSrc (w : Word) : Nat := getBits w 24 8
def msgKind (w : Word) : Nat := getBits w 18 6
def msgAddr (w : Word) : Nat := getBits w 2 16

/-- The check bits of a message match (R328, R331). -/
def msgOk (w : Word) : Bool :=
  (oddParity 15 (w.toNat / 2 ^ 17) == bitOf w 1) && (oddParity 15 (w.toNat / 4) == bitOf w 0)

/-- An instance address: ATYPE and INDEX (R328). -/
def mkAddr (atype index : Nat) : Nat := atype * 4096 + index % 4096

/-- A source offers a message, unless one of the same SOURCE and ADDR is still unaccepted (R330). -/
def Core.send (c : Core) (src kind addr : Nat) : Core :=
  let m := mkMsg src kind addr
  if (c.flt.outbox ++ c.flt.waiting).any (fun w => msgSrc w = src && msgAddr w = addr) then c
  else { c with flt := { c.flt with outbox := c.flt.outbox ++ [m] } }

/-- The live level of a source's instance becomes `b` (R333). -/
def Core.setLive (c : Core) (src addr : Nat) (b : Bool) : Core :=
  let rest := c.flt.live.filter (fun p => p ≠ (src, addr))
  { c with flt := { c.flt with live := if b then rest ++ [(src, addr)] else rest } }

/-- The live level of a source's instance. -/
def Core.isLive (c : Core) (src addr : Nat) : Bool := c.flt.live.contains (src, addr)

/-- Some instance of a source is live (R333). -/
def Core.srcLive (c : Core) (src : Nat) : Bool := c.flt.live.any (fun p => p.1 = src)

/-- The present class of a source (R334). -/
def Core.classOf (c : Core) (src : Nat) : Nat := if src = 0x5F then 4 else c.fld pgFSV (FSV_CLS_CLASS src)

/-- Order in which messages that reach the latch together enter it: rising SOURCE, then rising ADDR (R330). -/
def msgBefore (a b : Word) : Bool := msgSrc a < msgSrc b || (msgSrc a = msgSrc b && msgAddr a ≤ msgAddr b)

/-- A message put in its place among those that reach the latch together. -/
def insertMsg (m : Word) : List Word → List Word
  | [] => [m]
  | x :: t => if msgBefore m x then m :: x :: t else x :: insertMsg m t

/-- The latch takes what it has room for; the rest waits at the senders (R330). -/
def Core.fillLatch (c : Core) (offered : List Word) : Core :=
  let all := c.flt.waiting ++ offered
  let room := 16 - c.flt.latch.length
  let latch := c.flt.latch ++ all.take room
  let c := { c with flt := { c.flt with latch := latch, waiting := all.drop room } }
  let c := c.setFld pgFLT FLT_LATCH_MAXDEPTH (max (c.fld pgFLT FLT_LATCH_MAXDEPTH) latch.length)
  if all.drop room = [] then c else c.raise pgFLT 8

/-- The messages a command has sent reach the latch (R330). -/
def Core.flushOutbox (c : Core) : Core :=
  if c.flt.outbox = [] then c
  else
    let o := c.flt.outbox.foldl (fun l m => insertMsg m l) []
    { c with flt := { c.flt with outbox := [] } }.fillLatch o

/-! ## Crumbs (R290) -/

/-- Depths of the producer queues in the order of R290. -/
def crumbDepth (p : Nat) : Nat := if p = 3 then 2 else if p = 4 then 8 else 4

/-- A producer offers a crumb; one whose enable bit is 0 emits nothing, and a full queue drops it, counts the drop and sets CRB_STKY.LOST (R290). -/
def Core.crumb (c : Core) (p ty : Nat) (payload : List Byte) (at_ : Option Nat) : Core :=
  let q := vget c.crb.queues p []
  if !(c.fld pgCRB CRB_CFG_PRODEN).testBit p then c
  else if q.length < crumbDepth p then
    let d := vget c.crb.drops p 0
    { c with crb := { c.crb with queues := vmod c.crb.queues p (· ++ [⟨ty, payload, at_, d⟩]),
                                 drops := vmod c.crb.drops p (fun _ => 0) } }
  else { c with crb := { c.crb with drops := vmod c.crb.drops p (· + 1) } }.raise pgCRB 2

/-! ## Rails, groups and buses -/

/-- The states in which a rail runs for R241 and R329: PROOF, HOLD, SLEW and SOFTOFF. -/
def Rail.runs (r : Rail) : Bool := r.rstate = .proof || r.rstate = .hold || r.rstate = .slew || r.rstate = .softoff

/-- The bus that serves rail `n` (R241). -/
def Core.vinsel (c : Core) (n : Nat) : Nat := c.fld (pgV n) V_CFG_VINSEL

/-- Some rail served by bus `b` is in PROOF, HOLD, SLEW or SOFTOFF (R241). -/
def Core.busServes (c : Core) (b : Nat) : Bool := (List.range 8).any (fun n => c.vinsel n = b && (c.rail n).runs)

/-- The local member ports of rail `n`. -/
def Core.localMembers (c : Core) (n : Nat) : List Nat :=
  ((c.rail n).order.filter (fun x => x.dev = 0 && x.member)).map (·.port)

/-- Rail `n` has a local member port in phase group `g` (R105). -/
def Core.railInGroup (c : Core) (n g : Nat) : Bool := (c.localMembers n).any (fun k => k / 8 = g)

/-- The group is in use: a port of it stands in an active order or is lent over the ring (R106). -/
def Core.groupInUse (c : Core) (g : Nat) : Bool :=
  (List.range 8).any (fun n => (c.rail n).order.any (fun x => x.dev = 0 && x.port / 8 = g)) ||
  (List.range 8).any (fun j => c.flag pgLNK (LNK_LEND_EN (8 * g + j)))

/-- Sides of a comparator (R220). -/
def Core.cmpLo (c : Core) (i : Nat) : Bool := c.prot.lo.getLsbD i
def Core.cmpHi (c : Core) (i : Nat) : Bool := c.prot.hi.getLsbD i

/-- Threshold codes of comparator `i`, LO and HI (R224). -/
def Core.thrLo (c : Core) (i : Nat) : Nat :=
  if i % 2 = 0 then c.fld pgCMP (CMP_THR_LO0 (i / 2)) else c.fld pgCMP (CMP_THR_LO1 (i / 2))
def Core.thrHi (c : Core) (i : Nat) : Nat :=
  if i % 2 = 0 then c.fld pgCMP (CMP_THR_HI0 (i / 2)) else c.fld pgCMP (CMP_THR_HI1 (i / 2))

/-- Divider ratio of bus `b` in 1/16 (R240). -/
def Core.vinDiv (c : Core) (b : Nat) : Nat := if b = 0 then c.fld pgCMP CMP_VINCFG_DIV0 else c.fld pgCMP CMP_VINCFG_DIV1

/-! ## When a path runs (R18, R19, R403) -/

/-- The core is out of reset: BOOT, SEQUENCING, RUN, SAFE or GRAVE (R403). -/
def State.alive (s : State) : Bool := !s.pw.inReset && 2 ≤ s.pw.pstate.code

/-- BOOT has ended (R412). -/
def State.booted (s : State) : Bool := !s.pw.inReset && 3 ≤ s.pw.pstate.code

/-- A control path runs: it stops once every PWM output has gone to mid in full freeze (R18). -/
def State.controlRuns (s : State) : Bool := s.alive && !(s.core.rpr.depth = 2 && s.core.rpr.allMid)

/-- A service path runs: not in a freeze, and after BOOT (R18, R439). -/
def State.serviceRuns (s : State) : Bool := s.booted && s.core.rpr.depth = 0

/-- The core changed by a function, the rest of the state kept. -/
def State.onCore (s : State) (f : Core → Core) : State := { s with core := f s.core }

end Sys2Proof.Machine
end

