-- ==== Sys2Proof/Machine/Maint.lean ====
section
/-! DEFINITION. The maintenance arbiter (R435 to R437). A unit is numbered 0 to 9 for an engine, 16 to 24 for a window
slice and 32 to 57 for a phase slice; the instance of a slice compare is 0 to 7 for the window slice of a rail and
16 + k for the phase slice of port k. -/
namespace Sys2Proof.Machine

/-- Codes of the activities (R435). -/
def actRETEST : Nat := 0
def actBISTBG : Nat := 1
def actRECAL : Nat := 2
def actSHADOW : Nat := 3
def actSLCMP : Nat := 4
def actIDENT : Nat := 5
def actBBWRITE : Nat := 6
def actSCRUB : Nat := 7

/-- The rail that Pk_ASSIGN names for a port. -/
def Core.portRail (c : Core) (k : Nat) : Nat := c.fld (pgP k) P_ASSIGN_RAIL

/-- The rail of an identification: that of the local port, or with the instance 32 × ID + port that of a remote phase
(R206, R435). -/
def Core.identRail (c : Core) (inst : Nat) : Nat :=
  if inst < 32 then c.portRail inst
  else ((List.range 8).find? (fun n => (c.rail n).order.any (fun x => x.dev = inst / 32 && x.port = inst % 32))).getD 0xF

/-- The conflict of one activity with another of the same or a higher code (R436). -/
def Core.conflictUp (c : Core) (a b : Act) : Bool :=
  match a.code, b.code with
  | 0, 1 => true
  | 0, 2 => true
  | 1, 2 => true
  | 1, 3 => a.inst = b.spare
  | 1, 4 => a.inst = b.spare
  | 2, 3 => true
  | 2, 4 => true
  | 2, 5 => true
  | 3, 3 => true
  | 3, 5 => c.identRail b.inst = a.inst
  | 4, 4 => a.spare = b.spare
  | 4, 5 => a.inst = 16 + b.inst
  | 5, 5 => c.identRail a.inst = c.identRail b.inst
  | 6, 6 => true
  | 6, 7 => true
  | 7, 7 => true
  | _, _ => false

/-- Two activities conflict (R436). -/
def Core.conflicts (c : Core) (a b : Act) : Bool :=
  if a.code ≤ b.code then c.conflictUp a b else c.conflictUp b a

/-- An activity of this code and instance is in a list. -/
def hasAct (l : List Act) (code inst : Nat) : Bool := l.any (fun a => a.code = code && a.inst = inst)

/-- An activity of this code runs for this instance. -/
def Core.actRuns (c : Core) (code inst : Nat) : Bool := hasAct c.rpr.running code inst

/-- The records of the queue whose write has not begun. -/
def Core.unwritten (c : Core) : Nat := (c.bkh.queue.filter (fun r => !r.begun)).length

/-- A queued black-box record waits for the arbiter behind the one that BBWRITE runs for (R435, R437). -/
def Core.recordWaits (c : Core) : Bool :=
  c.actRuns actBBWRITE 0 && (if c.unwritten = c.bkh.queue.length then 2 else 1) ≤ c.unwritten

/-- The level of RPR_STAT.PEND follows the requests that wait (R444). -/
def Core.syncPend (c : Core) : Core := c.setLevel pgRPR 12 (c.rpr.waiting ≠ [] || c.recordWaits)

/-- An activity starts. -/
def Core.startAct (c : Core) (a : Act) : Core :=
  { c with rpr := { c.rpr with running := c.rpr.running ++ [a], shadowPend := c.rpr.shadowPend || a.code = actSHADOW } }

/-- A request reaches the arbiter: merged with the same request, started when nothing running or waiting conflicts, else
it waits; in a freeze the arbiter starts nothing (R437). -/
def Core.requestAct (c : Core) (a : Act) : Core :=
  if hasAct (c.rpr.running ++ c.rpr.waiting) a.code a.inst then c
  else if c.rpr.depth = 0 && !(c.rpr.running ++ c.rpr.waiting).any (c.conflicts a) then c.startAct a
  else ({ c with rpr := { c.rpr with waiting := c.rpr.waiting ++ [a] } }).syncPend

/-- The black box asks for BBWRITE while a record waits to be written, and no longer when none is queued (R382, R435). -/
def Core.askRecord (c : Core) : Core :=
  if c.bkh.queue = [] then
    let other (a : Act) : Bool := a.code ≠ actBBWRITE
    if (c.rpr.running ++ c.rpr.waiting).all other then c
    else ({ c with rpr := { c.rpr with running := c.rpr.running.filter other, waiting := c.rpr.waiting.filter other } }).syncPend
  else if c.unwritten = 0 then c
  else (c.requestAct ⟨actBBWRITE, 0, 0⟩).syncPend

/-- An activity ends. -/
def Core.endAct (c : Core) (code inst : Nat) : Core :=
  { c with rpr := { c.rpr with running := c.rpr.running.filter (fun a => !(a.code = code && a.inst = inst)) } }

/-- The waiting requests in order of code and then of arrival (R437). -/
def Core.waitingInOrder (c : Core) : List Act :=
  (List.range 8).flatMap (fun k => c.rpr.waiting.filter (fun a => a.code = k))

/-- The first request of a pass that may start: nothing running and no request taken before it conflicts with it (R437). -/
def Core.nextGrant (c : Core) : List Act → List Act → Option Act
  | _, [] => none
  | before, a :: t =>
    if (c.rpr.running ++ before).any (c.conflicts a) then c.nextGrant (before ++ [a]) t else some a

/-- A waiting request that may start does so (R437). -/
def Core.grant (c : Core) : Core :=
  match c.nextGrant [] c.waitingInOrder with
  | none => c
  | some a =>
    (({ c with rpr := { c.rpr with waiting := c.rpr.waiting.filter (fun b => b ≠ a) } }).startAct a).syncPend

/-- Bit `k` is 1 while an activity of code `k` stands in the list (RPR_MAINT). -/
def actMask (l : List Act) : Nat := (List.range 8).foldl (fun m k => m + (if l.any (fun a => a.code = k) then 2 ^ k else 0)) 0

end Sys2Proof.Machine
end

