-- ==== Sys2Proof/Machine/Store.lean ====
section
/-! DEFINITION. The nonvolatile store: flash sectors and their mapping, the slot format and its two-phase commit, the
log ring, the control records, host operations, scrub and the hold (R371 to R384), and the repair map's record (R425). -/
namespace Sys2Proof.Machine

/-- What an erased byte reads as (R371). -/
def erasedByte (_ : Nat) : Byte := 0xFF#8

/-! ## Sectors -/

/-- The physical sector behind a logical one: the latest substitution of the map (R372, R373). -/
def Core.physSector (c : Core) (l : Nat) : Nat :=
  ((c.rpr.map.flash.filter (fun p => p.1 = l)).getLast?.map (·.2)).getD l

/-- Physical byte address of a logical one. -/
def Core.physAddr (c : Core) (a : Nat) : Nat := c.physSector (a / 2048) * 2048 + a % 2048

/-- One byte of flash at a logical address. -/
def State.flashByte (s : State) (a : Nat) : Byte := Sparse.get erasedByte s.st.flash (s.core.physAddr a)

/-- Bytes of flash from a logical address. -/
def State.flashRead (s : State) (a n : Nat) : List Byte := (List.range n).map (fun i => s.flashByte (a + i))

/-- One byte of flash replaced. -/
def State.flashPut (s : State) (a : Nat) (b : Byte) : State :=
  { s with st := { s.st with flash := Sparse.put erasedByte s.st.flash (s.core.physAddr a) b } }

/-- Bytes of flash programmed from a logical address. -/
def State.flashWrite (s : State) (a : Nat) : List Byte → State
  | [] => s
  | b :: t => (s.flashPut a b).flashWrite (a + 1) t

/-- A physical sector is erased, and with it the bit errors of its words. -/
def State.flashErase (s : State) (p : Nat) : State :=
  { s with st := { s.st with flash := s.st.flash.filter (fun x => x.1 / 2048 ≠ p), bad := s.st.bad.filter (fun x => x / 512 ≠ p) } }

/-- The words with two bit errors that no read corrects, as word numbers of the physical store (R371). -/
def State.setBad (s : State) (l : List Nat) : State := { s with st := { s.st with bad := l } }

/-- The words of a run of `n` bytes that hold two bit errors, as logical byte addresses (R371). -/
def State.badIn (s : State) (a n : Nat) : List Nat :=
  ((List.range (n / 4)).map (fun i => a + 4 * i)).filter (fun x => s.st.bad.contains (s.core.physAddr x / 4))

/-- A read of a run of bytes counts and reports each word with two bit errors, naming its physical sector; the words with one
are corrected (R371, R396). -/
def State.reportBad (s : State) (a n : Nat) : State :=
  (s.badIn a n).foldl (fun (s : State) x => s.onCore (fun c =>
    ((c.incSat pgNVM NVM_ECC_UNCOR 1).raise pgNVM 4).send 0x42 0 (mkAddr 0xD (c.physSector (x / 2048))))) s

/-- Every byte of a run is erased. -/
def State.flashBlank (s : State) (a n : Nat) : Bool := (s.flashRead a n).all (fun b => b = 0xFF#8)

/-- The word at a logical address. -/
def State.flashWord (s : State) (a : Nat) : Word := bytesWord (s.flashRead a 4)

/-! ## Slots (R378) -/

/-- The commit word of a held slot. -/
def commitWord : Word := 0xC3A55A3C

/-- The states of a slot (R378, R380). -/
inductive SlotState where
  | free | held | void | torn | badCrc
  deriving DecidableEq, Repr

/-- What a slot of 64 bytes is. -/
def slotState (b : List Byte) : SlotState :=
  let commit := bytesWord (b.drop 60)
  if b.all (fun x => x = 0xFF#8) then .free
  else if commit = 0 then .void
  else if commit = commitWord then
    if bytesWord ((b.drop 56).take 4) = crc32 (b.take 56) then .held else .badCrc
  else .torn

/-- The 64 bytes of a committed slot with a body of 56 bytes (R364, R378). -/
def slotBytes (body : List Byte) : List Byte := body ++ wordBytes (crc32 body) ++ wordBytes commitWord

/-- Logical addresses of the log's slots, of the control slots and of the two map sectors (R372). -/
def logAddr (i : Nat) : Nat := 16 * 2048 + 64 * i
def ctlAddr (i : Nat) : Nat := 14 * 2048 + 64 * i
def mapAddr (copy i : Nat) : Nat := (12 + copy) * 2048 + 64 * i

/-- Slots of the log: 33 sectors of 32 (R379). -/
def logSlots : Nat := 1056

def State.slot (s : State) (a : Nat) : List Byte := s.flashRead a 64

/-- The state of the slot at a logical address: a word with two bit errors among those its CRC covers fails that CRC
(R371, R378). -/
def State.slotAt (s : State) (a : Nat) : SlotState :=
  let k := slotState (s.slot a)
  if k = .held && s.badIn a 60 ≠ [] then .badCrc else k

/-- RECSEQ of a record, and its other fields (R364). -/
def recSeq (b : List Byte) : Nat := leBytes ((b.drop 4).take 4)
def recType (b : List Byte) : Nat := (byteAt b 0).toNat
def recInfo (b : List Byte) : Nat := (byteAt b 1).toNat

/-- The held records of the log with their slots, in slot order. -/
def State.heldLog (s : State) : List (Nat × List Byte) :=
  ((List.range logSlots).filter (fun i => s.slotAt (logAddr i) = .held)).map (fun i => (i, s.slot (logAddr i)))

/-- RECSEQ `a` comes before `b` in the order of numbers that wrap from 0xFFFFFFFF to 0 (R365, log 109). -/
def seqBefore (a b : Nat) : Bool := a ≠ b && (b + 2 ^ 32 - a) % 2 ^ 32 < 2 ^ 31

/-- The newest held record: the latest RECSEQ (R364, R365, R380). -/
def newest (l : List (Nat × List Byte)) : Option (Nat × List Byte) :=
  l.foldl (fun a p => match a with
    | some q => if seqBefore (recSeq q.2) (recSeq p.2) then some p else some q
    | none => some p) none

/-! ## Requests for a control record (R384) -/

/-- A control record with changed values is wanted. -/
def Core.wantCtl (c : Core) (f : Ctl → Ctl) : Core :=
  { c with nvm := { c.nvm with next := f c.nvm.next, ctlWant := true } }

/-- Bytes 0 to 55 of a control record (R384). -/
def ctlBody (x : Ctl) : List Byte :=
  toLeBytes 4 x.seq ++ (List.range 4).flatMap (fun k => toLeBytes 4 (vget x.ceil k 0)) ++ toLeBytes 4 x.frceil ++
  toLeBytes 4 x.minver ++ [BitVec.ofNat 8 (b2n x.pref), BitVec.ofNat 8 x.level] ++ toLeBytes 2 x.torn ++
  toLeBytes 4 x.recbase ++ toLeBytes 4 x.logerase ++ List.replicate 16 0

/-- The values of a control record. -/
def ctlParse (b : List Byte) : Ctl :=
  let w (o n : Nat) : Nat := leBytes ((b.drop o).take n)
  { seq := w 0 4, ceil := Vector.ofFn (fun k => w (4 + 4 * k.val) 4), frceil := w 20 4, minver := w 24 4,
    pref := (byteAt b 28).getLsbD 0, level := w 29 1 % 8, torn := w 30 2, recbase := w 32 4, logerase := w 36 4 }

/-- The committed control record with the highest CTLSEQ, and its slot (R384). -/
def State.takenCtl (s : State) : Option (Nat × Ctl) :=
  (((List.range 64).filter (fun i => s.slotAt (ctlAddr i) = .held)).map (fun i => (i, s.slot (ctlAddr i)))).foldl
    (fun a p => match a with
      | some (j, x) => if x.seq < (ctlParse p.2).seq then some (p.1, ctlParse p.2) else some (j, x)
      | none => some (p.1, ctlParse p.2)) none

/-- The registers that show the values of the newest control record (R397, R399). -/
def Core.showCtl (c : Core) : Core :=
  let x := c.nvm.ctl
  let c := (List.range 4).foldl (fun c k => c.setFld pgSEC (SEC_CEIL_CEIL k) (vget x.ceil k 0)) c
  ((c.setFld pgSEC SEC_FRCEIL_CEIL x.frceil).setFld pgNVM NVM_CTLSEQ_CTLSEQ x.seq)

/-! ## Holds and record writes (R378 to R382) -/

/-- What holds flash writes: thermal shutdown, or a SUPPLY or VCC33UV condition of class DEVICE (R381). -/
def Core.holdCause (c : Core) : Bool :=
  c.thm.tsd.on || [0x17, 0x28, 0x29].any (fun x => c.srcLive x && c.classOf x = 3)

/-- Writes are held. -/
def Core.held (c : Core) : Bool := c.stat pgNVM 8 || c.holdCause

/-- No record write and no host program or read is under way (R382). -/
def Core.flashFree (c : Core) : Bool :=
  c.nvm.write.isNone && (match c.nvm.host with | some h => h.op = 2 || !h.begun | none => true)

/-- A control record or a map waits, and goes before every other use of the flash (R382, R426). -/
def Core.ctlWaits (c : Core) : Bool := c.nvm.ctlWant || c.rpr.mapQ ≠ []

/-- A scrub run waits or runs (R382, R435). -/
def Core.scrubOn (c : Core) : Bool := (c.rpr.running ++ c.rpr.waiting).any (fun a => a.code = actSCRUB)

/-- A host operation may begin: no freeze stands against it, no record is being written or waits, no scrub run waits, and none
of those that change the flash is held (R19, R381, R382). -/
def Core.hostReady (c : Core) (op : Nat) : Bool :=
  c.rpr.depth = 0 && c.nvm.write.isNone && !c.ctlWaits && c.bkh.queue = [] && !c.scrubOn && (op = 3 || !c.held)

/-- A record write begins: step 1 of R378. -/
def Core.beginWrite (c : Core) (k : RecKind) (addr : Nat) (bytes : List Byte) : Core :=
  { c with nvm := { c.nvm with write := some ⟨k, addr, bytes, 0, true⟩ } }

/-- The logical byte run that step `i` of a record write programs: bytes 0 to 31, 32 to 59, 60 to 63 (R378). -/
def stepRun (i : Nat) : Nat × Nat := if i = 0 then (0, 32) else if i = 1 then (32, 28) else (60, 4)

/-- The program of a record write's present step reaches the flash. -/
def State.programStep (s : State) (w : RecWrite) : State :=
  let r := stepRun w.steps
  s.flashWrite (w.addr + r.1) ((w.bytes.drop r.1).take r.2)

/-- The log's head, its sector and slot, and the records held, as NVM_LOG and BKH_SUMM show them (R397, R370). -/
def Core.showLog (c : Core) : Core :=
  let c := c.setFld pgNVM NVM_LOG_RECS (min 1024 c.nvm.recs)
  let c := c.setFld pgNVM NVM_LOG_HEADSEC (16 + c.nvm.head / 32)
  let c := c.setFld pgNVM NVM_LOG_HEADSLOT (c.nvm.head % 32)
  c.setFld pgBKH BKH_SUMM_RECS (min 1024 c.nvm.recs)

/-- A sector joins those to be erased. -/
def Core.wantErase (c : Core) (sector : Nat) (why : EraseWhy) : Core :=
  if c.nvm.erases.any (fun e => e.1 = sector) then c
  else { c with nvm := { c.nvm with erases := c.nvm.erases ++ [(sector, why)] } }

/-- The sector of the ring after `sec`, 0 to 32, that is not skipped (R373, R379). -/
def Core.nextLog (c : Core) (sec : Nat) : Nat :=
  ((List.range 33).map (fun i => (sec + 1 + i) % 33)).find? (fun x => !c.nvm.skipped.contains (16 + x)) |>.getD ((sec + 1) % 33)

/-- The sector after the head is erased in the background (R379). -/
def Core.eraseAhead (c : Core) : Core := c.wantErase (16 + c.nextLog (c.nvm.head / 32)) .log

/-- The head moves to the next slot, past sectors that are skipped; on entering a sector, the sector after it is erased in
the background (R373, R379). -/
def Core.advanceHead (c : Core) : Core :=
  if c.nvm.head % 32 = 31 then
    ({ c with nvm := { c.nvm with head := c.nextLog (c.nvm.head / 32) * 32 } }).eraseAhead
  else { c with nvm := { c.nvm with head := c.nvm.head + 1 } }

/-- The sector that the head is in is not erased yet, so no record goes there (R379). -/
def Core.headBusy (c : Core) : Bool := c.nvm.erases.any (fun e => e.1 = 16 + c.nvm.head / 32)

/-- The control sector that the next record goes to is not erased yet (R384). -/
def Core.ctlBusy (c : Core) : Bool := c.nvm.erases.any (fun e => e.1 = 14 + c.nvm.ctlSlot / 32)

/-- The queue of black-box records loses its head, which has been committed. -/
def Core.popRecord (c : Core) : Core := { c with bkh := { c.bkh with queue := c.bkh.queue.drop 1 } }

/-- The head moves on past the slot at `addr`; a log erase may have moved it already (R379, R395). -/
def Core.passSlot (c : Core) (addr : Nat) : Core := if addr = logAddr c.nvm.head then c.advanceHead else c

/-- A record of the log at `addr` commits (R378): BKH_BBSEQ takes its RECSEQ, the head moves on, and the summary of the log
takes the record in (R367). -/
def Core.commitLog (c : Core) (addr : Nat) (b : List Byte) : Core :=
  let c := (c.setFld pgBKH BKH_BBSEQ_RECSEQ (recSeq b)).popRecord
  let i := (addr - logAddr 0) / 64
  let c := { c with nvm := { c.nvm with recs := c.nvm.recs + 1, recseq := (recSeq b + 1) % 2 ^ 32 },
                    bkh := { c.bkh with reportDue := true, fresh := if c.bkh.scanned then [] else i :: c.bkh.fresh } }
  (((c.passSlot addr).showLog).endAct actBBWRITE 0).syncPend

/-- A control record commits: NVM_CTLSEQ and the committed ceilings take its values, and a raised ceiling or a reservation that
it carries sets RESERVE; when the writer has moved on to the other control sector, the sector left is erased (R378, R384, R389, R393). -/
def Core.commitCtl (c : Core) (x : Ctl) : Core :=
  let old := c.nvm.ctl
  let up := (List.range 4).any (fun k => vget old.ceil k 0 < vget x.ceil k 0) || old.frceil < x.frceil
  let want := Vector.ofFn (fun (k : Fin 5) =>
    match vget c.sec.want k.val none with
    | some v => if v ≤ (if k.val < 4 then vget x.ceil k.val 0 else x.frceil) then none else some v
    | none => none)
  let up := up || c.sec.want ≠ want
  let at_ := c.nvm.ctlSlot
  let last := c.nvm.ctlLast
  let c := { c with nvm := { c.nvm with ctl := x, ctlSlot := (at_ + 1) % 64, ctlLast := at_ }, sec := { c.sec with want := want } }
  let c := if at_ / 32 ≠ last / 32 then c.wantErase (14 + last / 32) .ctl else c
  let c := c.showCtl
  if up then c.raise pgSEC 2 else c

/-! ## The repair map's record (R425) -/

/-- A number of `k` fields of `w` bits, the first lowest. -/
def packFields (w : Nat) : List Nat → Nat
  | [] => 0
  | x :: t => x % 2 ^ w + 2 ^ w * packFields w t

/-- Bytes 0 to 55 of a map. -/
def mapBody (m : RepairMap) : List Byte :=
  toLeBytes 4 m.seq ++ toLeBytes 4 (packFields 4 m.eng.toList) ++ toLeBytes 3 (packFields 2 m.engSt.toList) ++
  toLeBytes 4 (packFields 4 m.wsl.toList) ++ toLeBytes 2 m.wret.toNat ++ [BitVec.ofNat 8 m.sp24, BitVec.ofNat 8 m.sp25] ++
  toLeBytes 4 m.pret.toNat ++ ([0] : List Byte) ++
  (List.range 8).flatMap (fun i => match m.flash[i]? with
    | some (l, p) => toLeBytes 2 (l + 64 * p + 2 ^ 15)
    | none => ([0, 0] : List Byte)) ++
  (List.range 8).map (fun i => match (m.sram.filter (fun x => x.1 = i / 2))[i % 2]? with
    | some (_, r) => BitVec.ofNat 8 (r + 128)
    | none => 0) ++
  toLeBytes 8 m.taps.toNat

/-- The map a record holds. -/
def mapParse (b : List Byte) : RepairMap :=
  let w (o n : Nat) : Nat := leBytes ((b.drop o).take n)
  { seq := w 0 4
    eng := Vector.ofFn (fun n => w 4 4 / 16 ^ n.val % 16)
    engSt := Vector.ofFn (fun j => w 8 3 / 4 ^ j.val % 4)
    wsl := Vector.ofFn (fun n => w 11 4 / 16 ^ n.val % 16)
    wret := BitVec.ofNat 9 (w 15 2)
    sp24 := w 17 1 % 32
    sp25 := w 18 1 % 32
    pret := BitVec.ofNat 26 (w 19 4)
    flash := ((List.range 8).filter (fun i => w (24 + 2 * i) 2 / 2 ^ 15 % 2 = 1)).map
      (fun i => (w (24 + 2 * i) 2 % 64, w (24 + 2 * i) 2 / 64 % 64))
    sram := ((List.range 8).filter (fun i => w (40 + i) 1 / 128 = 1)).map (fun i => (i / 2, w (40 + i) 1 % 128))
    taps := BitVec.ofNat 64 (w 48 8) }

/-- The committed map with the highest MAPSEQ in either copy sector; none when neither holds one (R426). -/
def State.storedMap (s : State) : Option RepairMap :=
  (((List.range 64).filter (fun i => s.slotAt (mapAddr (i / 32) (i % 32)) = .held)).map
      (fun i => s.slot (mapAddr (i / 32) (i % 32)))).foldl
    (fun a b => match a with
      | some m => if m.seq < (mapParse b).seq then some (mapParse b) else some m
      | none => some (mapParse b)) none

/-- The registers of page RPR and NVM that show the map (R397, R445). -/
def Core.showMap (c : Core) : Core :=
  let c := c.setFld pgRPR RPR_MAPSEQ_MAPSEQ c.rpr.map.seq
  c.setFld pgNVM NVM_SPARE_FREE (8 - min 8 c.rpr.map.flash.length)

/-- A new map is queued to be written (R426). Its MAPSEQ is one more than that of the map before it. -/
def Core.queueMap (c : Core) : Core :=
  let m := { c.rpr.map with seq := (c.rpr.map.seq + c.rpr.mapQ.length + 1) % 2 ^ 32 }
  { c with rpr := { c.rpr with mapQ := c.rpr.mapQ ++ [m] } }

/-- The first free slot of a copy sector. -/
def State.freeMapSlot (s : State) (copy : Nat) : Option Nat :=
  (List.range 32).find? (fun i => s.slotAt (mapAddr copy i) = .free)

/-- The record of a map begins to be written into the first free slot of its copy sector; a sector without a free slot is
erased before (R426). -/
def State.writeMap (s : State) (k : RecKind) (bytes : List Byte) : State :=
  let copy := if k = .map1 then 0 else 1
  match s.freeMapSlot copy with
  | some i => s.onCore (fun c => c.beginWrite k (mapAddr copy i) bytes)
  | none => (s.flashErase (12 + copy)).onCore (fun c => c.beginWrite k (mapAddr copy 0) bytes)

/-- A copy of the map begins to be written (R426). -/
def State.beginMap (s : State) (k : RecKind) (m : RepairMap) : State := s.writeMap k (slotBytes (mapBody m))

/-- The second copy commits: the map's MAPSEQ is in force, and MAPWR is set (R426). -/
def Core.commitMap (c : Core) : Core :=
  match c.rpr.mapQ with
  | [] => c
  | m :: t =>
    (({ c with rpr := { c.rpr with mapQ := t, mapHalf := false, map := { c.rpr.map with seq := m.seq } } }).showMap).raise pgRPR 3

/-! ## Steps of a record write -/

/-- What the commit of a record brings: the values of a log or a control record, the second copy of a map, or the map
itself (R364, R384, R426). In a freeze or under a hold the second copy does not begin, and waits (R19, R381, R439). -/
def State.commitRecord (s : State) (w : RecWrite) : State :=
  match w.kind with
  | .log => s.onCore (fun c => c.commitLog w.addr w.bytes)
  | .ctl => s.onCore (fun c => c.commitCtl (ctlParse w.bytes))
  | .map1 => match s.core.rpr.mapQ with
    | m :: _ =>
      if s.core.rpr.depth = 0 && !s.core.held then s.beginMap .map2 m
      else s.onCore (fun c => { c with rpr := { c.rpr with mapHalf := true } })
    | [] => s
  | .map2 => s.onCore (fun c => c.commitMap)

/-- The page program of a record write ends: its next step begins when no hold and no full freeze stands against it, and
the third one commits the record (R378, R381, R440). -/
def State.recordStep (s : State) : State :=
  match s.core.nvm.write with
  | none => s
  | some w =>
    if !w.going then s
    else
      let s := s.programStep w
      if w.steps < 2 then
        let go := !s.core.held && s.core.rpr.depth ≠ 2
        s.onCore (fun c => { c with nvm := { c.nvm with write := some { w with steps := w.steps + 1, going := go } } })
      else
        (s.onCore (fun c => { c with nvm := { c.nvm with write := none } })).commitRecord w

/-- A control record begins to be written into the next free slot (R384). -/
def State.beginCtl (s : State) : State :=
  let x := { s.core.nvm.next with seq := (s.core.nvm.ctl.seq + 1) % 2 ^ 32 }
  s.onCore (fun c => ({ c with nvm := { c.nvm with ctlWant := false } }).beginWrite .ctl (ctlAddr c.nvm.ctlSlot)
    (slotBytes (ctlBody x)))

/-- The body of the black-box record at the head of the queue, with its RECSEQ (R364). -/
def recBody (r : BRec) (seq : Nat) : List Byte :=
  [BitVec.ofNat 8 r.ty, BitVec.ofNat 8 r.info] ++ toLeBytes 2 r.repeats ++ toLeBytes 4 seq ++ r.body

/-- The record at the head of the queue begins to be written (R378, R379). -/
def Core.beginLog (c : Core) : Core :=
  match c.bkh.queue with
  | [] => c
  | r :: t =>
    let c := { c with bkh := { c.bkh with queue := { r with begun := true } :: t } }
    (c.beginWrite .log (logAddr c.nvm.head) (slotBytes (recBody r c.nvm.recseq))).syncPend

/-- A record abandoned in its slot is written again whole into the next free slot, with the same sequence number (R381,
R426). -/
def State.rewrite (s : State) (w : RecWrite) : State :=
  match w.kind with
  | .log => s.onCore (fun c => let c := c.passSlot w.addr; c.beginWrite .log (logAddr c.nvm.head) w.bytes)
  | .ctl => s.onCore (fun c =>
      let slot := (c.nvm.ctlSlot + 1) % 64
      ({ c with nvm := { c.nvm with ctlSlot := slot } }).beginWrite .ctl (ctlAddr slot) w.bytes)
  | k => s.writeMap k w.bytes

/-- The hold ends: a record with two steps ended receives its commit word, one whose step 2 had not begun is left torn and
written again (R381). In full freeze no further step follows, and the record stays torn (R440). -/
def State.endHold (s : State) : State :=
  let s := s.onCore (fun c => c.setLevel pgNVM 8 false)
  match s.core.nvm.write with
  | none => s
  | some w =>
    if w.going || s.core.rpr.depth = 2 then s
    else if w.steps = 2 then s.onCore (fun c => { c with nvm := { c.nvm with write := some { w with going := true } } })
    else s.rewrite w

/-! ## Erases and retirement (R373, R379, R384, R395) -/

/-- The lowest physical spare that no substitution uses (R373). -/
def Core.freeSpare (c : Core) : Option Nat :=
  ([56, 57, 58, 59, 60, 61, 62, 63].filter (fun p => !c.rpr.map.flash.any (fun x => x.2 = p))).head?

/-- A log sector that can no longer be erased is skipped: the sector after it is erased in its place, and a head that stands in it
moves on to that sector, which is erased first unless it is blank (R373, R379). -/
def State.skipSector (s : State) (l : Nat) : State :=
  let here := s.core.nvm.head / 32
  let ahead : Bool := 16 + s.core.nextLog here = l
  let s := s.onCore (fun c => { c with nvm := { c.nvm with skipped := l :: c.nvm.skipped } })
  let h := s.core.nextLog here
  if 16 + here = l then
    let s := s.onCore (fun c => { c with nvm := { c.nvm with head := 32 * h } })
    (if s.flashBlank ((16 + h) * 2048) 2048 then s else s.onCore (fun c => c.wantErase (16 + h) .log)).onCore Core.eraseAhead
  else if ahead then s.onCore Core.eraseAhead
  else s

/-- A sector is retired: a spare is mapped in its place and the map written; with no spare it stays, and a log sector is
skipped. NVM_STAT.SPARE rises when none remains (R373, R396). -/
def State.retireSector (s : State) (l : Nat) (failed : Bool) : State :=
  match s.core.freeSpare with
  | some p =>
    let old := s.core.physSector l
    let s := s.flashErase p
    let s := s.onCore (fun c =>
      let m := c.rpr.map
      let c := { c with rpr := { c.rpr with map := { m with flash := m.flash ++ [(l, p)] } },
                        nvm := { c.nvm with retire := c.nvm.retire.filter (· ≠ l) } }
      (c.queueMap.showMap).setFld pgNVM NVM_SPARE_LASTRET old)
    if s.core.freeSpare.isNone then s.onCore (fun c => (c.setLevel pgNVM 5 true).send 0x43 0 0) else s
  | none =>
    let s := s.onCore (fun c => (c.setLevel pgNVM 5 true).send 0x43 0 0)
    if failed && 16 ≤ l && l ≤ 48 && !s.core.nvm.skipped.contains l then s.skipSector l else s

/-- Records held in a log sector. -/
def State.heldIn (s : State) (l : Nat) : Nat :=
  ((List.range 32).filter (fun i => s.slotAt (l * 2048 + 64 * i) = .held)).length

/-- The erase under way ends, verified or not (R373, R379, R384, R395). -/
def State.eraseDone (s : State) (ok : Bool) : State :=
  match s.core.nvm.erases with
  | [] => s
  | (l, why) :: t =>
    let lost := if 16 ≤ l && l ≤ 48 then s.heldIn l else 0
    let s := if ok then s.flashErase (s.core.physSector l) else s
    let s := if !ok || s.core.nvm.retire.contains l then s.retireSector l (!ok) else s
    let s := s.onCore (fun c => { c with nvm := { c.nvm with erases := c.nvm.erases.drop 1, recs := c.nvm.recs - lost },
                                         bkh := { c.bkh with reportDue := c.bkh.reportDue || lost ≠ 0 } })
    let s := if 16 ≤ l && l ≤ 48 then s.onCore (fun c =>
        let e := satAdd 24 c.nvm.next.logerase 1
        ((c.setFld pgNVM NVM_WEAR_LOGERASE e).wantCtl (fun x => { x with logerase := e })).showLog)
      else s
    if why = .bb && !t.any (fun e => e.2 = .bb) then
      s.onCore (fun c => (c.setFld pgNVM NVM_BBERASE_GO 0).raise pgNVM 10)
    else s

/-- The RECSEQ that the next record takes: a record being written has taken its own (R364, R378). -/
def Core.nextRecseq (c : Core) : Nat :=
  if c.nvm.write.any (fun w => w.kind = .log) then (c.nvm.recseq + 1) % 2 ^ 32 else c.nvm.recseq

/-- The log is erased: the erased sector after the head becomes the head, RECBASE keeps the next RECSEQ, and the other
32 sectors are erased in ring order (R395). -/
def Core.eraseLog (c : Core) : Core :=
  if c.flag pgNVM NVM_BBERASE_GO then c
  else
    let h := c.nextLog (c.nvm.head / 32)
    let c := { c with nvm := { c.nvm with head := h * 32 } }
    let c := (c.setFld pgNVM NVM_BBERASE_GO 1).wantCtl (fun x => { x with recbase := c.nextRecseq })
    ((List.range 32).foldl (fun c i =>
      let l := 16 + (h + 1 + i) % 33
      { c with nvm := { c.nvm with erases := c.nvm.erases.filter (fun e => e.1 ≠ l) ++ [(l, EraseWhy.bb)] } }) c).showLog

/-! ## Host operations (R377) -/

/-- First logical sector and number of sectors of an area; none for a code that is refused (R377). -/
def Core.areaOf (c : Core) (area : Nat) : Option (Nat × Nat) :=
  let b := c.flag pgNVM NVM_IMG_ACTIVE
  match area with
  | 0 => some (if b then (0, 4) else (6, 4))
  | 1 => some (if b then (4, 2) else (10, 2))
  | 2 => some (if b then (6, 4) else (0, 4))
  | 3 => some (if b then (10, 2) else (4, 2))
  | 4 => some (16, 33)
  | 5 => some (14, 2)
  | _ => none

/-- The page buffer. -/
def Core.nvmBuf (c : Core) : List Word := (List.range 8).map (fun i => BitVec.ofNat 32 (c.fld pgNVM (NVM_BUF_DATA i)))

/-- Words of the buffer that are to be programmed meet erased words of the page (R377). -/
def State.pageProgrammable (s : State) (a : Nat) : Bool :=
  (List.range 8).all (fun i => (s.core.nvmBuf[i]?).getD 0 = 0xFFFFFFFF#32 || s.flashWord (a + 4 * i) = 0xFFFFFFFF#32)

/-- A host operation that may begin does; an erase then takes its sectors in turn (R377, R382). -/
def Core.letHost (c : Core) : Core :=
  match c.nvm.host with
  | none => c
  | some h =>
    if h.begun || !c.hostReady h.op then c
    else
      let c := { c with nvm := { c.nvm with host := some { h with begun := true } } }
      match (if h.op = 2 then c.areaOf h.area else none) with
      | some (sec, n) => (List.range n).foldl (fun c i => c.wantErase (sec + i) .host) c
      | none => c

/-- NVM_OP.GO is written: the operation that OP names starts, or is refused with OPREJ (R377). -/
def State.nvmGo (s : State) : State :=
  let c := s.core
  let op := c.fld pgNVM NVM_OP_OP
  let area := c.fld pgNVM NVM_OPADDR_AREA
  let off := c.fld pgNVM NVM_OPADDR_OFFSET
  let rej := s.onCore (fun c => c.raise pgNVM 1)
  match c.areaOf area with
  | none => rej
  | some (sec, n) =>
    if c.nvm.host.isSome || op = 0 || off % 32 ≠ 0 || n * 2048 ≤ off || (op ≠ 3 && 2 ≤ area) then rej
    else if op = 1 && !s.pageProgrammable (sec * 2048 + off) then rej
    else s.onCore (fun c =>
      (({ c with nvm := { c.nvm with host := some ⟨op, area, off, c.nvmBuf, false⟩ } }).setFld pgNVM NVM_OP_BUSY 1).letHost)

/-- The page of a host's program reaches the flash (R377). -/
def State.hostProgram (s : State) (h : HostOp) (a : Nat) : State :=
  (List.range 8).foldl (fun s i =>
    let w := (h.buf[i]?).getD 0xFFFFFFFF#32
    if w = 0xFFFFFFFF#32 then s else s.flashWrite (a + 4 * i) (wordBytes w)) s

/-- A host operation ends: a page is programmed, or the buffer filled; an erase ends with its last sector (R377). -/
def State.nvmDone (s : State) : State :=
  match s.core.nvm.host with
  | none => s
  | some h =>
    match s.core.areaOf h.area with
    | none => s
    | some (sec, _) =>
      let a := sec * 2048 + h.off
      let s := if h.op = 1 then s.hostProgram h a
        else if h.op = 3 then
          (s.reportBad a 32).onCore (fun c => (List.range 8).foldl (fun c i => c.setFld pgNVM (NVM_BUF_DATA i) (s.flashWord (a + 4 * i)).toNat) c)
        else s
      s.onCore (fun c => (({ c with nvm := { c.nvm with host := none } }).setFld pgNVM NVM_OP_BUSY 0).raise pgNVM 0)

/-! ## Scrub and the log scan (R380, R382) -/

/-- A scrub run has read a physical sector and found `corr` words with one bit error and `uncor` with two (R371, R373,
R382). -/
def Core.scrub (c : Core) (p corr uncor : Nat) : Core :=
  let c := if corr = 0 then c else
    ((c.incSat pgNVM NVM_ECC_CORR corr).raise pgNVM 3).send 0x41 0 (mkAddr 0xD p)
  let c := if uncor = 0 then c else
    ((c.incSat pgNVM NVM_ECC_UNCOR uncor).raise pgNVM 4).send 0x42 0 (mkAddr 0xD p)
  let logical := ((List.range 33).map (· + 16) ++ [14, 15]).filter (fun l => c.physSector l = p)
  let many := zeroAsOne (c.fld pgNVM NVM_CFG_RETN) ≤ corr
  let c := if many then { c with nvm := { c.nvm with retire := c.nvm.retire ++ logical } } else c
  { c with nvm := { c.nvm with corrected := if p = 63 then [] else c.nvm.corrected ++ [(p, corr)] } }

/-- The scrub run of sector `p` ends: `words` are the words with two bit errors that it finds beside those already known
(R371, R382). -/
def State.scrubDone (s : State) (p corr : Nat) (words : List Nat) : State :=
  let new := (words.filter (fun w => w < 512)).map (fun w => 512 * p + w)
  let bad := s.st.bad ++ (new.filter (fun x => !s.st.bad.contains x)).eraseDups
  (s.setBad bad).onCore (fun c => (c.scrub p corr (bad.filter (fun x => x / 512 = p)).length).endAct actSCRUB p)

/-- The slot that a record write occupies. -/
def Core.writingAt (c : Core) (a : Nat) : Bool := match c.nvm.write with | some w => w.addr = a | none => false

/-- One slot of the log is scanned: a torn slot or one with a wrong CRC is voided, counted and reported (R380). -/
def State.scanSlot (s : State) (i : Nat) : State :=
  let a := logAddr i
  if s.core.writingAt a then s
  else match s.slotAt a with
    | .torn =>
      (s.flashWrite (a + 60) (wordBytes 0)).onCore (fun c =>
        let t := satAdd 16 c.nvm.next.torn 1
        (((c.setFld pgNVM NVM_TORN_COUNT t).wantCtl (fun x => { x with torn := t })).raise pgNVM 2).send 0x40 0
          (0xD000 + 0x100 + i))
    | .badCrc =>
      (s.flashWrite (a + 60) (wordBytes 0)).onCore (fun c =>
        ((c.incSat pgNVM NVM_ECC_UNCOR 1).raise pgNVM 4).send 0x42 0 (0xD000 + 0x100 + i))
    | _ => s

/-- The full scan of the log ends (R367, R371, R380). -/
def State.scanLog (s : State) : State :=
  let s := (List.range 33).foldl (fun (s : State) i => s.reportBad ((16 + i) * 2048) 2048) s
  let s := (List.range logSlots).foldl State.scanSlot s
  s.onCore (fun c =>
    let c := ((c.raise pgNVM 9).setFld pgBKH BKH_SUMM_PART 0).setLevel pgBKH 9 false
    { c with bkh := { c.bkh with scanned := true, fresh := [], reportDue := true } })

/-- Slots of log sector `sec`, 0 to 32, up to the last one that is not free (R378, R380). -/
def State.usedIn (s : State) (sec : Nat) : Nat :=
  ((List.range 32).filter (fun j => s.slotAt (logAddr (32 * sec + j)) ≠ .free)).foldl (fun m j => max m (j + 1)) 0

/-- The head of the log from sector `sec` on: the slot after the last one used, as torn and void slots are not used again
until their sector is erased; a full sector is passed, or, where it still holds records, is the head once it is erased
(R379, R380). -/
def State.headFrom (s : State) : Nat → Nat → Nat
  | 0, sec => 32 * sec
  | k + 1, sec =>
    if s.usedIn sec < 32 then 32 * sec + s.usedIn sec
    else if s.heldIn (16 + sec) ≠ 0 then 32 * sec
    else s.headFrom k ((sec + 1) % 33)

/-- At BOOT the head, the records held and the next RECSEQ are found, and BOOTCNT from the newest BOOT record
(R365, R380, R384). -/
def State.findHead (s : State) : State :=
  let held := s.heldLog
  let boots := held.filter (fun p => recType p.2 = 2)
  let cnt := match newest boots with
    | some (_, b) => satAdd 16 (leBytes ((b.drop 14).take 2)) 1
    | none => 0
  let (h, seq, last) := match newest held with
    | some (i, b) =>
      let sec := i / 32
      let h := if s.usedIn sec < 32 then 32 * sec + s.usedIn sec else s.headFrom 33 ((sec + 1) % 33)
      (h, (recSeq b + 1) % 2 ^ 32, recSeq b)
    | none => (s.headFrom 33 (((List.range 33).find? (fun x => s.usedIn x ≠ 0)).getD 0), s.core.nvm.ctl.recbase, 0)
  s.onCore (fun c =>
    let c := { c with nvm := { c.nvm with head := h, recs := held.length, recseq := seq } }
    let c := (c.setFld pgBKH BKH_BOOTCNT_COUNT cnt).setFld pgBKH BKH_BBSEQ_RECSEQ last
    let c := if s.slotAt (logAddr h) = .free then c else c.wantErase (16 + h / 32) .log
    let nxt := 16 + (h / 32 + 1) % 33
    let c := if s.flashBlank (nxt * 2048) 2048 then c else c.wantErase nxt .log
    c.showLog)

end Sys2Proof.Machine
end

