-- ==== Sys2Proof/Machine/Security.lean ====
section
/-! DEFINITION. OTP, keys, counters with committed ceilings, and the failure rate limit (R385 to R394). -/
namespace Sys2Proof.Machine

/-! ## OTP and keys (R385 to R388) -/

/-- A word of OTP. -/
def State.otp (s : State) (i : Nat) : Word := vget s.st.otp i 0

/-- A word of OTP burned: its bits at 1 join those there. -/
def State.otpBurn (s : State) (i : Nat) (w : Word) : State :=
  { s with st := { s.st with otp := vmod s.st.otp i (fun x => x ||| w) } }

/-- The 16 bytes of key `k`. -/
def State.keyBytes (s : State) (k : Nat) : List Byte := (List.range 4).flatMap (fun i => wordBytes (s.otp (4 * k + i)))

/-- Flags of slot `k`: provisioned, revoked, damaged; and usable, which is provisioned and not revoked (R386, R387). -/
def State.keyProv (s : State) (k : Nat) : Bool := s.otp (18 + k) ≠ 0
def State.keyRev (s : State) (k : Nat) : Bool := s.otp (22 + k) ≠ 0
def State.keyDamaged (s : State) (k : Nat) : Bool := !s.keyProv k && (List.range 4).any (fun i => s.otp (4 * k + i) ≠ 0)
def State.keyUsable (s : State) (k : Nat) : Bool := s.keyProv k && !s.keyRev k

def State.provClosed (s : State) : Bool := s.otp 26 ≠ 0
def State.imgAuth (s : State) : Bool := s.otp 28 ≠ 0
def State.imgKey (s : State) : Nat := getBits (s.otp 27) 0 2

/-- CMD_UID0 and CMD_UID1 as bytes (R385). -/
def State.uidBytes (s : State) : List Byte := wordBytes (s.otp 16) ++ wordBytes (s.otp 17)

/-- The CRC of word 62 over words 16, 17 and 32 to 61 (R385, R414). -/
def State.otpOk (s : State) : Bool :=
  s.otp 62 = crc32 (s.uidBytes ++ (List.range 30).flatMap (fun i => wordBytes (s.otp (32 + i))))

/-- The first 8 bytes of a CMAC under slot `k`, and the count of computations in SEC_CNT.MACS. -/
def State.keyTag (s : State) (k : Nat) (msg : List Byte) : List Byte := tag8 (s.keyBytes k) msg
def Core.countMac (c : Core) : Core := c.incWrap pgSEC SEC_CNT_MACS 1

/-- The check value of slot `k` is computed: the first 4 bytes of the CMAC of the UID, 0 for a slot that is not usable
(R386). -/
def State.showKey (s : State) (k : Nat) : State :=
  if s.keyUsable k then
    s.onCore (fun c => (c.setFld pgSEC (SEC_KCV_KCV k) (bytesWord ((s.keyTag k s.uidBytes).take 4)).toNat).countMac)
  else s.onCore (fun c => c.setFld pgSEC (SEC_KCV_KCV k) 0)

/-- The check values of the four slots. -/
def State.showKeys (s : State) : State := (List.range 4).foldl State.showKey s

/-- The key registers as bytes written (R386). -/
def Core.keyLoad (c : Core) : List Word := (List.range 4).map (fun i => BitVec.ofNat 32 (c.fld pgSEC (SEC_KLD_KEY i)))

/-- A refused request of SEC_KPROG. -/
def Core.provRej (c : Core) : Core := c.raise pgSEC 4

/-- A burn that waits begins: no hold and no freeze stands against it (R19, R381). -/
def Core.letBurn (c : Core) : Core :=
  if c.sec.burn.isSome && !c.sec.burnOn && !c.held && c.rpr.depth = 0 then { c with sec := { c.sec with burnOn := true } } else c

/-- A burn begins, or waits for the end of a hold or of a freeze: BUSY reads 1 (R19, R381, R386). -/
def Core.beginBurn (c : Core) (b : Burn) : Core :=
  ({ c with sec := { c.sec with burn := some b, burnOn := false } }).letBurn.setFld pgSEC SEC_KPROG_BUSY 1

/-- SEC_KPROG.GO: slot `k` is provisioned, or the request is refused (R386). -/
def State.keyGo (s : State) (k : Nat) : State :=
  if s.provClosed || s.keyProv k || s.keyRev k || s.keyDamaged k || s.core.sec.burn.isSome then s.onCore Core.provRej
  else s.onCore (fun c => c.beginBurn (.slot k c.keyLoad))

/-- SEC_KPROG.IMGAUTH: IMGKEY and the IMGAUTH flag are burned (R386). -/
def State.imgAuthGo (s : State) (k : Nat) : State :=
  if s.provClosed || !s.keyProv k || s.core.sec.burn.isSome then s.onCore Core.provRej
  else s.onCore (fun c => c.beginBurn (.imgauth k))

/-- SEC_KPROG.CLOSE: PROVCLOSED is burned (R386). -/
def State.closeGo (s : State) : State :=
  if s.provClosed || s.core.sec.burn.isSome then s.onCore Core.provRej
  else s.onCore (fun c => c.beginBurn .close)

/-- A revocation's burn begins and acts at once on every later check; the check value of a slot that is no longer usable
reads 0 (R386, R387). -/
def State.revokeNow (s : State) (mask : Nat) : State :=
  let s := (List.range 4).foldl (fun s k => if mask.testBit k then (s.otpBurn (22 + k) 1).showKey k else s) s
  s.onCore (fun c => ((c.beginBurn (.revoke mask)).raise pgSEC 5))

/-- No burn, hold or freeze stands against a burn of a revocation (R19, R381, R387). -/
def Core.mayRevoke (c : Core) : Bool := c.sec.burn.isNone && !c.held && c.rpr.depth = 0

/-- A write of SEC_REVOKE by an authenticated item; it waits for a burn or a hold in force (R381, R387). -/
def State.revoke (s : State) (mask : Nat) : State :=
  if mask % 16 = 0 then s
  else if !s.core.mayRevoke then
    s.onCore (fun c => { c with sec := { c.sec with revokeWait := c.sec.revokeWait ||| (mask % 16) } })
  else s.revokeNow (mask % 16)

/-- What a burn leaves in OTP (R386). -/
def State.burnInto (s : State) (b : Burn) : State :=
  match b with
  | .slot k key => ((List.range 4).foldl (fun (s : State) i => s.otpBurn (4 * k + i) ((key[i]?).getD 0)) s).otpBurn (18 + k) 1
  | .imgauth k => (s.otpBurn 27 (BitVec.ofNat 32 (2 ^ 31 + k))).otpBurn 28 1
  | .close => s.otpBurn 26 1
  | .revoke _ => s

/-- The registers after a burn: for a slot the key load is cleared, PROVDONE set and the check value computed (R386). -/
def State.burnShown (s : State) (b : Burn) : State :=
  match b with
  | .slot k _ => (s.onCore (fun c => ((List.range 4).foldl (fun (c : Core) i => c.setFld pgSEC (SEC_KLD_KEY i) 0) c).raise pgSEC 3)).showKey k
  | _ => s

/-- A revocation that waited for a burn, a hold or a freeze begins (R19, R381, R387). -/
def State.revokeNext (s : State) : State :=
  if s.core.sec.revokeWait ≠ 0 && s.core.mayRevoke then
    (s.onCore (fun c => { c with sec := { c.sec with revokeWait := 0 } })).revokeNow s.core.sec.revokeWait
  else s

/-- The burn under way ends (R386, R387). -/
def State.burnDone (s : State) : State :=
  match s.core.sec.burn with
  | none => s
  | some b =>
    let s := (s.burnInto b).onCore (fun c => ({ c with sec := { c.sec with burn := none } }).setFld pgSEC SEC_KPROG_BUSY 0)
    (s.burnShown b).revokeNext

/-- A reset during a burn of a key slot leaves some first words of the key burned and the flag clear: how many is open
(R418, log 6); a burn that has not begun leaves none. -/
def State.stopBurn (s : State) : State :=
  match s.core.sec.burn with
  | some (.slot k key) =>
    let n := if s.core.sec.burnOn then (Config.freeWord s.core.free).toNat % 5 else 0
    (List.range n).foldl (fun (t : State) i => t.otpBurn (4 * k + i) ((key[i]?).getD 0)) s
  | _ => s

/-! ## Counters and ceilings (R389 to R393) -/

/-- The reservation step S = 2^RSK (R389). -/
def Core.resStep (c : Core) : Nat := 2 ^ (max 8 (min 20 (c.fld pgSEC SEC_CFG_RSK)))

/-- Last accepted counter and committed ceiling of slot `k` (R389). -/
def Core.lastCtr (c : Core) (k : Nat) : Nat := c.fld pgSEC (SEC_CTR_LAST k)
def Core.ceiling (c : Core) (k : Nat) : Nat := c.fld pgSEC (SEC_CEIL_CEIL k)

/-- A ceiling is reserved for slot `k`, 4 standing for FRCNT: a control record with it is wanted (R389, R391, R393). -/
def Core.reserve (c : Core) (k v : Nat) : Core :=
  let v := min v 0xFFFFFFFF
  let c := { c with sec := { c.sec with want := vmod c.sec.want k (fun _ => some v),
                                        made := vmod c.sec.made k (fun _ => some c.absTime),
                                        failed := vmod c.sec.failed k (fun _ => false) } }
  c.wantCtl (fun x => if k < 4 then { x with ceil := vmod x.ceil k (fun o => max o v) } else { x with frceil := max x.frceil v })

/-- CTRFAIL of a slot (R391, R393). -/
def Core.ctrFail (c : Core) (k : Nat) : Core :=
  if vget c.sec.failed k false then c
  else (({ c with sec := { c.sec with failed := vmod c.sec.failed k (fun _ => true) } }).raise pgSEC 1).send 0x46 0
    (if k < 4 then mkAddr 9 (256 * k) else 0x9000)

/-- The counter of slot `k` is accepted: within half a step of the ceiling a reservation starts, and a counter that
reaches the ceiling before a pending one commits is reported (R389, R391). -/
def Core.takeCounter (c : Core) (k v : Nat) : Core :=
  let c := c.setFld pgSEC (SEC_CTR_LAST k) v
  let ceil := c.ceiling k
  let pendingOne := (vget c.sec.want k none).isSome
  let c := if ceil ≤ v + c.resStep / 2 && !pendingOne then c.reserve k (v + c.resStep) else c
  if v = ceil && (vget c.sec.want k none).isSome then c.ctrFail k else c

/-- A counter above the ceiling was refused: a reservation starts unless one is pending or was made within the last
second, 400,000,000 periods (R391). -/
def Core.overCeiling (c : Core) (k v : Nat) : Core :=
  let recent := match vget c.sec.made k none with
    | some t => c.absTime < t + 400000000
    | none => false
  if (vget c.sec.want k none).isSome || recent then c else c.reserve k (v + c.resStep)

/-! ## Failure rate limit (R394) -/

/-- A hold-off of the present LEVEL begins (R394). The time left is shown in REMAIN from device time. -/
def Core.beginHoldoff (c : Core) (addr : Nat) : Core :=
  let level := c.fld pgSEC SEC_FAIL_LEVEL
  let units := zeroAsOne (c.fld pgSEC SEC_CFG_HOLDT) * 2 ^ (level - 1)
  let c := { c with sec := { c.sec with holdEnd := c.absTime + units * 4000000 } }
  let c := (c.setLevel pgSEC 0 true).setLevel pgCMD 8 true
  (c.setLive 0x45 addr true).send 0x45 0 addr

/-- REPLAY or BADTAG: a failure is counted, and the eighth begins a hold-off of the next LEVEL (R394). -/
def Core.secFailure (c : Core) (ctx slot : Nat) : Core :=
  let n := min 8 (c.fld pgSEC SEC_FAIL_FCNT + 1)
  let c := (c.setFld pgSEC SEC_FAIL_FCNT n).incSat pgSEC SEC_CNT_FAILS 1
  if n = 8 then
    let level := min 7 (c.fld pgSEC SEC_FAIL_LEVEL + 1)
    let c := (c.setFld pgSEC SEC_FAIL_LEVEL level).wantCtl (fun x => { x with level := level })
    c.beginHoldoff (mkAddr 9 (ctx % 128 + 256 * (slot % 4)))
  else c

/-- An item is accepted: FCNT and LEVEL go to 0, and a changed LEVEL is kept in a control record (R384, R394). -/
def Core.secPass (c : Core) : Core :=
  let was := c.fld pgSEC SEC_FAIL_LEVEL
  let c := (c.setFld pgSEC SEC_FAIL_FCNT 0).setFld pgSEC SEC_FAIL_LEVEL 0
  if was = 0 then c else c.wantCtl (fun x => { x with level := 0 })

/-- The hold-off ends with FCNT 7 (R394). -/
def Core.endHoldoff (c : Core) : Core :=
  let c := { c with flt := { c.flt with live := c.flt.live.filter (fun p => p.1 ≠ 0x45) }, sec := { c.sec with holdEnd := 0 } }
  ((c.setLevel pgSEC 0 false).setLevel pgCMD 8 false).setFld pgSEC SEC_FAIL_FCNT 7

/-- A time without a failure lowers FCNT by 1, in a hold-off as well (R394). -/
def Core.failDecay (c : Core) : Core := c.setFld pgSEC SEC_FAIL_FCNT (c.fld pgSEC SEC_FAIL_FCNT - 1)

/-- REMAIN: what is left of the hold-off, in steps of 10 ms (R394). -/
def Core.holdRemain (c : Core) : Nat :=
  if c.stat pgSEC 0 then (c.sec.holdEnd - c.absTime + 3999999) / 4000000 else 0

/-- At BOOT each L takes its committed ceiling, FRCNT takes FRCEIL, and ceilings raised by a step `s` are wanted (R390,
R393). -/
def Core.bootCounters (c : Core) (s : Nat) : Core :=
  let x := c.nvm.ctl
  let c := (List.range 4).foldl (fun c k =>
    (c.setFld pgSEC (SEC_CTR_LAST k) (vget x.ceil k 0)).wantCtl
      (fun y => { y with ceil := vmod y.ceil k (fun o => min (o + s) 0xFFFFFFFF) })) c
  (c.setFld pgBKH BKH_FRCNT_COUNT x.frceil).wantCtl (fun y => { y with frceil := min (y.frceil + s) 0xFFFFFFFF })

end Sys2Proof.Machine
end

