-- ==== Sys2Proof/Machine/BakeCore.lean ====
section
/-! DEFINITION. What the Bakehouse keeps: the running program and its flags, the program check, SEQ pins, the black-box
queue and the fleet report (R348 to R368). -/
namespace Sys2Proof.Machine

/-! ## Steps (R349 to R351) -/

def stOp (w : BitVec 64) : Nat := w.toNat / 2 ^ 60
def stTgt (w : BitVec 64) : Nat := w.toNat / 2 ^ 52 % 256
def stFlg (w : BitVec 64) : Nat := w.toNat / 2 ^ 48 % 16
def stArg (w : BitVec 64) : Nat := w.toNat / 2 ^ 32 % 65536
def stDat (w : BitVec 64) : Nat := w.toNat % 2 ^ 32

/-- Target kinds of R351: rail, aux channel, SEQ pin, release. -/
def tgtRail (t : Nat) : Bool := t < 8
def tgtAux (t : Nat) : Bool := 8 ≤ t && t < 0xC
def tgtSeq (t : Nat) : Bool := 0x10 ≤ t && t < 0x20
def tgtRel (t : Nat) : Bool := (0x40 ≤ t && t ≤ 0x4B) || t = 0x4F

/-- A step is defined, and its branch points forward within the program (R349, R350). -/
def stepOk (i n : Nat) (w : BitVec 64) : Bool :=
  let t := stTgt w
  let f := stFlg w
  let a := stArg w
  let d := stDat w
  match stOp w with
  | 0x0 => t = 0 && f < 2 && a = 0 && d < 256
  | 0x1 => (tgtRail t || tgtAux t || tgtSeq t || tgtRel t) && f < (if tgtRail t then 4 else 2) &&
      (!tgtRel t || f % 2 = 1) && a = 0 && d = 0
  | 0x3 => (tgtRail t || tgtAux t || tgtSeq t) && f < 2 && d = 0
  | 0x4 => t = 0 && f < 2 && d = 0
  | 0x5 => t = 0 && f < 4
  | 0x6 => t = 0 && (f < 6 || f = 15) && a < 64 && d = 0 && i < a && a < n
  | 0x7 => t = 0 && f < 4 && a < 256 && d < 65536
  | _ => false

/-- Every step is defined and the last is END (R349). -/
def stepsOk (n : Nat) : Nat → List (BitVec 64) → Bool
  | _, [] => false
  | i, [w] => stOp w = 0 && stepOk i n w
  | i, w :: t => stepOk i n w && stepsOk n (i + 1) t

/-- What a program area holds: absent, failing its check, or its steps (R348, R349). -/
inductive Loaded where
  | absent
  | bad
  | steps (l : List (BitVec 64))
  deriving DecidableEq, Repr

/-- The program in a 1 KiB area; a word with two bit errors fails its CRC (R348, R349, R371). -/
def State.readProgram (s : State) (a : Nat) : Loaded :=
  let h := s.flashRead a 8
  let n := (byteAt h 1).toNat
  if n = 0 then .absent
  else if 64 < n || byteAt h 0 ≠ 1 then .bad
  else
    let b := s.flashRead (a + 8) (8 * n)
    let l := (List.range n).map (fun i => BitVec.ofNat 64 (leBytes ((b.drop (8 * i)).take 8)))
    if crc32 b = bytesWord (h.drop 4) && s.badIn (a + 4) (4 + 8 * n) = [] && stepsOk n 0 l then .steps l else .bad

/-! ## SEQ pins (R357 to R359) -/

/-- Role of SEQi: 0 unused, 1 OUT, 2 IN; code 3 is stored as 0 (R357). -/
def Core.seqRole (c : Core) (i : Nat) : Nat := c.fld pgBKH (BKH_SEQROLE_ROLE i) % 3

/-- An OUT pin is driven low; in reset and in BOOT every pin is released (R357). -/
def Core.seqDriven (c : Core) (i : Nat) : Bool :=
  c.bkh.outEn && c.seqRole i = 1 && (c.fld pgBKH BKH_SEQOUT_DRV).testBit i

/-- Level at the ball of SEQi: low while it is driven. -/
def Core.seqLevel (c : Core) (i : Nat) : Bool := c.bkh.seqIn.getLsbD i && !c.seqDriven i

/-- The 16 ball levels. -/
def Core.seqLevels (c : Core) : Nat := (List.range 16).foldl (fun a i => a + b2n (c.seqLevel i) * 2 ^ i) 0

/-- The good level of input SEQi (R357). -/
def Core.seqGood (c : Core) (i : Nat) : Bool := xor (c.bkh.seqIn.getLsbD i) ((c.fld pgBKH BKH_SEQINV_INV).testBit i)

/-- A watched pin that is not good (R359). -/
def Core.seqBad (c : Core) (i : Nat) : Bool := c.bkh.watch.getLsbD i && !c.seqGood i

/-- BKH_SEQST.WATCH, STAT.SEQPG and the live levels of SEQPG follow the watched pins; a watched pin that loses good
sends SEQPG (R359). -/
def Core.syncWatch (c : Core) : Core :=
  let bad := (List.range 16).foldl (fun a i => a + b2n (c.seqBad i) * 2 ^ i) 0
  let old := c.fld pgBKH BKH_SEQST_WATCH
  let c := c.setFld pgBKH BKH_SEQST_WATCH bad
  let fell := (List.range 16).filter (fun i => bad.testBit i && !old.testBit i)
  let c := (c.setStat pgBKH 4 (bad ≠ 0)).setLive 0x4A 0 (bad ≠ 0)
  fell.foldl (fun c i => (c.raise pgBKH 4).send 0x4A i 0) c

/-- SEQi is driven low or released by its bit of BKH_SEQOUT (R350, R357). -/
def Core.seqDrive (c : Core) (i : Nat) (b : Bool) : Core :=
  let w := c.fld pgBKH BKH_SEQOUT_DRV
  let off := w - (if w.testBit i then 2 ^ i else 0)
  c.setFld pgBKH BKH_SEQOUT_DRV (off + if b then 2 ^ i else 0)

/-- Every OUT pin is released (R358, R370). -/
def Core.seqReleaseAll (c : Core) : Core := c.setFld pgBKH BKH_SEQOUT_DRV 0

/-- No pin is watched any more (R359). -/
def Core.unwatch (c : Core) : Core := ({ c with bkh := { c.bkh with watch := 0 } }).syncWatch

/-- Pins stop being watched when the OUT pin named for them is turned off (R359). -/
def Core.unwatchPaired (c : Core) (out : Nat) : Core :=
  let keep := (List.range 16).filter (fun i => c.bkh.watch.getLsbD i && c.fld pgBKH (BKH_SEQPAIR_PAIR i) ≠ out)
  ({ c with bkh := { c.bkh with watch := BitVec.ofNat 16 (keep.foldl (fun a i => a + 2 ^ i) 0) } }).syncWatch

/-! ## The running program (R353, R355, R356) -/

/-- The program number and step shown in BKH_PROG. -/
def Core.showProg (c : Core) : Core :=
  ((c.setFld pgBKH BKH_PROG_PROG c.bkh.prog).setFld pgBKH BKH_PROG_ACTIVE (b2n c.bkh.running)).setFld pgBKH
    BKH_PROG_STEP c.bkh.step

/-- Program `p` starts at step 0 with CF and FF 0; DOWN and FAULT end every watch (R353, R359). -/
def Core.startProg (c : Core) (p : Nat) (dflt : Bool) : Core :=
  let c := { c with bkh := { c.bkh with running := true, prog := p, step := 0, wait := .none, default_ := dflt } }
  let c := (c.setFld pgBKH BKH_PROG_CF 0).setFld pgBKH BKH_PROG_FF 0
  let c := (c.showProg).setLevel pgBKH 0 true
  if p = 1 || p = 2 then c.unwatch else c

/-- The running program stops where it is. -/
def Core.stopProg (c : Core) : Core :=
  (({ c with bkh := { c.bkh with running := false, wait := .none, default_ := false } }).showProg).setLevel pgBKH 0 false

/-- Program `p` is present. -/
def Core.progPresent (c : Core) (p : Nat) : Bool := vget c.bkh.progs p [] ≠ []

/-- FF is set (R353). -/
def Core.setFF (c : Core) : Core := c.setFld pgBKH BKH_PROG_FF 1

/-- The device leaves SEQUENCING when UP ends: RUN, or SAFE while DEVSAFE is 1, where no pin is watched (R356, R359,
R404). -/
def State.leaveSequencing (s : State) : State :=
  if s.pw.pstate = .sequencing then
    if s.core.stat pgFLT 3 then { s.onCore Core.unwatch with pw := { s.pw with pstate := .safe } }
    else { s with pw := { s.pw with pstate := .run } }
  else s

/-- Entry to SEQUENCING with UP, or past it when UP is absent (R356). -/
def State.startUp (s : State) : State :=
  let s := { s with pw := { s.pw with pstate := .sequencing } }
  if s.core.progPresent 0 then s.onCore (fun c => c.startProg 0 false) else s.leaveSequencing

/-! ## Black box (R363, R364) -/

/-- A voltage or a current of the host view. -/
def Core.hostView (c : Core) (ch : Nat) : Int := vget c.tlm.stable ch 0

/-- Rail voltage in the host view, 0.5 mV (R287). -/
def Core.hostVolt (c : Core) (n : Nat) : Nat := (clampInt 0 4095 (roundDiv (c.hostView n) 4)).toNat

/-- The hottest valid TMON in °C; 0x80 when none is valid (R364). -/
def Core.hottestStage (c : Core) : Nat :=
  match ((List.range 3).filter (fun g => c.flag pgTHM (THM_TMON_VALID g))).map (fun g => c.sfld pgTHM (THM_TMON_TEMP g)) with
  | [] => 0x80
  | x :: t => ofSignedSat 8 (roundDiv (t.foldl max x) 16)

/-- Bits 0 to 11 of HOLD: the targets that are held (R364). -/
def Core.holdMask (c : Core) : Nat :=
  (List.range 12).foldl (fun a t => a + b2n (vget c.flt.holds t {}).held * 2 ^ t) 0

/-- Bytes 8 to 55 of a record captured now (R364). -/
def State.recordBody (s : State) (msg : Word) : List Byte :=
  let c := s.core
  let rail (n : Nat) : Nat := (c.rail n).rstate.code + 8 * b2n (c.stat (pgV n) 0) + 16 * c.hostVolt n
  let bus (b : Nat) : Nat := (clampInt 0 65535 (roundDiv (c.hostView (0x50 + b)) 20)).toNat
  toLeBytes 6 c.time.toNat ++ toLeBytes 2 (c.fld pgBKH BKH_BOOTCNT_COUNT) ++ wordBytes msg ++
  toLeBytes 4 (c.fld pgFLT FLT_FIRST_MSG) ++ [BitVec.ofNat 8 s.pw.pstate.code, BitVec.ofNat 8 (64 * c.bkh.prog + c.bkh.step)] ++
  toLeBytes 2 (c.fld pgTHM THM_TJ_TJ) ++ toLeBytes 2 (bus 0) ++ toLeBytes 2 (bus 1) ++
  (List.range 8).flatMap (fun n => toLeBytes 2 (rail n)) ++
  toLeBytes 2 (c.holdMask + 2 ^ 12 * b2n (c.stat pgFLT 3) + 2 ^ 13 * b2n s.pw.grave) ++ toLeBytes 2 c.seqLevels ++
  [BitVec.ofNat 8 ((List.range 4).foldl (fun a n => a + b2n (c.stat pgAUX n) * 2 ^ n +
    b2n ((c.xch n).st = .safe) * 2 ^ (4 + n)) 0), BitVec.ofNat 8 c.hottestStage, 0, 0]

/-- A record enters the queue of 16: a FAULT message equal in SOURCE and ADDR to one queued and not begun is merged, and
a full queue drops the record (R363). -/
def State.queueRecord (s : State) (ty info : Nat) (msg : Word) : State :=
  let same (r : BRec) : Bool := ty = 1 && r.ty = 1 && !r.begun && msgSrc r.msg = msgSrc msg && msgAddr r.msg = msgAddr msg
  let q := s.core.bkh.queue
  if q.any same then
    s.onCore (fun c => { c with bkh := { c.bkh with queue := q.map (fun r => if same r then { r with repeats := satAdd 16 r.repeats 1 } else r) } })
  else if q.length < 16 then
    let r : BRec := ⟨ty, info, 0, msg, s.recordBody msg, false⟩
    s.onCore (fun c => { c with bkh := { c.bkh with queue := q ++ [r] } }.syncPend)
  else s.onCore (fun c => ({ c with bkh := { c.bkh with reportDue := true } }.incSat pgBKH BKH_BBCNT_DROP 1).raise pgBKH 6)

/-! ## What the end of a program brings (R355, R356, R361, R362) -/

/-- DOWN starts, or the default DOWN in its place (R355, R356). -/
def Core.startDown (c : Core) : Core := c.startProg 1 (!c.progPresent 1)

/-- DOWN has ended: a PARK record is queued; MAINEN waits for the records, or with WAKE above its HI threshold UP runs
again (R361, R362). -/
def State.downEnded (s : State) : State :=
  let s := (s.onCore (fun c => { c with bkh := { c.bkh with park := false } })).queueRecord 3 0 0
  if s.pw.hi51 then s.startUp
  else s.onCore (fun c => { c with bkh := { c.bkh with parking := true } })

/-- After a program has stopped: UP's end leaves SEQUENCING, DOWN's end parks, and a park request that waits starts
DOWN (R355, R356, R361). -/
def State.afterProg (s : State) (p : Nat) (aborted : Bool) : State :=
  let s := if p = 0 then s.leaveSequencing else s
  if p = 1 then
    if aborted then s.onCore (fun c => { c with bkh := { c.bkh with park := false } }) else s.downEnded
  else if s.core.bkh.park then s.onCore Core.startDown
  else s

/-- BKH_CTRL.ABORT, and the page reset of BKH: the running program stops without END (R355, R370). -/
def State.abortProg (s : State) : State :=
  if s.core.bkh.running then
    let p := s.core.bkh.prog
    (s.onCore Core.stopProg).afterProg p true
  else s

/-- BKH_CTRL.RUNSVC: SVC starts, or is refused while a program runs; an absent SVC starts nothing (R355). -/
def Core.runSvc (c : Core) : Core :=
  if c.bkh.running then c.raise pgBKH 5
  else if c.progPresent 3 then c.startProg 3 false
  else c

/-- A park request (R361): DOWN runs now, or after the program that runs (R355). -/
def Core.parkRequest (c : Core) : Core :=
  if c.bkh.park || c.bkh.parking then c
  else
    let c := { c with bkh := { c.bkh with park := true } }
    if c.bkh.running then c else c.startDown

/-- DEVSAFE has risen with SEQSAFE at 1: every OUT pin is released (R358). -/
def Core.seqDevSafe (c : Core) : Core := if c.flag pgBKH BKH_CFG_SEQSAFE then c.seqReleaseAll else c

/-- DEVSAFE has risen: any program but FAULT stops, and FAULT runs (R355). A DOWN that is stopped, or a DOWN that a park
request waits for, runs after FAULT, or at once when FAULT is absent. -/
def Core.bakeDevSafe (c : Core) : Core :=
  if c.bkh.running && c.bkh.prog = 2 then c
  else
    let c := if c.bkh.running then c.stopProg else c
    if c.progPresent 2 then c.startProg 2 false
    else if c.bkh.park then c.startDown
    else c

/-! ## Fleet report (R366 to R368) -/

/-- FAULT records of a list, newest first. -/
def faultsNewestFirst (l : List (Nat × List Byte)) : List (List Byte) :=
  let f := (l.filter (fun p => recType p.2 = 1)).map (·.2)
  (f.foldl (fun (acc : List (List Byte)) b =>
    (acc.filter (fun x => seqBefore (recSeq b) (recSeq x))) ++ [b] ++ (acc.filter (fun x => !seqBefore (recSeq b) (recSeq x)))) [])

/-- REPEAT of a record. -/
def recRepeat (b : List Byte) : Nat := leBytes ((b.drop 2).take 2)

/-- The records that the summary of the log covers: all that are held, or, while PART is 1, those committed since BOOT
(R367, log 21). -/
def State.summed (s : State) : List (Nat × List Byte) :=
  if s.core.bkh.scanned then s.heldLog else s.heldLog.filter (fun p => s.core.bkh.fresh.contains p.1)

/-- Bytes 24 to 87 of the report: the time, the summary of the log, and the newest FAULT records held (R366, R367). -/
def State.reportBody (s : State) (tjNone : Nat) : List Byte :=
  let c := s.core
  let log := s.summed
  let faults := faultsNewestFirst log
  let cls (n : Nat) : Nat := (faults.filter (fun b => recInfo b = n)).foldl (fun a b => satAdd 16 a (1 + recRepeat b)) 0
  let sev := (faults.filter (fun b => 3 ≤ recInfo b)).head?
  let tj (b : List Byte) : Int := toSigned 16 (leBytes ((b.drop 26).take 2))
  let tjmax := match log with
    | [] => tjNone
    | p :: t => ofSigned 16 (t.foldl (fun a q => max a (tj q.2)) (tj p.2))
  let latest := faultsNewestFirst s.heldLog
  let f (i : Nat) : List Byte := (latest[i]?).getD (List.replicate 64 0)
  toLeBytes 6 c.time.toNat ++ toLeBytes 2 (c.fld pgBKH BKH_BOOTCNT_COUNT) ++ toLeBytes 4 (c.fld pgBKH BKH_BBSEQ_RECSEQ) ++
  toLeBytes 2 (min 1024 log.length) ++ toLeBytes 2 (c.fld pgNVM NVM_TORN_COUNT) ++
  (List.range 5).flatMap (fun n => toLeBytes 2 (cls n)) ++ toLeBytes 2 (c.fld pgBKH BKH_BBCNT_DROP) ++
  wordBytes s.pw.graveMsg ++ toLeBytes 4 (match sev with | some b => recSeq b | none => 0xFFFFFFFF) ++
  toLeBytes 2 tjmax ++ [0, 0] ++ (List.range 4).flatMap (fun i => ((f i).drop 16).take 4) ++
  (List.range 4).flatMap (fun i => ((f i).drop 4).take 2)

/-- A new report is formed, signed when its key is usable and FRCNT may rise (R366 to R368, R393). -/
def State.formReport (s : State) : State :=
  let c := s.core
  let cnt := c.fld pgBKH BKH_FRCNT_COUNT
  let ceil := c.fld pgSEC SEC_FRCEIL_CEIL
  let room := cnt < ceil
  let key := c.fld pgBKH BKH_CFG_FRKEY
  let signed := room && c.flag pgBKH BKH_CFG_FREN && s.keyUsable key
  let cnt' := if room then cnt + 1 else cnt
  let flags := b2n (c.flag pgBKH BKH_SUMM_PART) + 2 * b2n (!signed) + 4 * b2n c.bkh.nonceNew
  let nonce (i : Nat) : List Byte := toLeBytes 4 (c.fld pgBKH (BKH_FRNONCE_NONCE i))
  let head := [0x01#8, BitVec.ofNat 8 (if signed then key else 0xFF), BitVec.ofNat 8 flags, 0#8] ++ s.uidBytes ++
    toLeBytes 4 cnt' ++ nonce 0 ++ nonce 1 ++ s.reportBody (Config.freeWord c.free).toNat
  let tag := if signed then s.keyTag key head else List.replicate 8 0
  s.onCore (fun c =>
    let c := { c with bkh := { c.bkh with report := head ++ tag, reportDue := false, nonceNew := false }, free := c.free + 1 }
    let c := c.setFld pgBKH BKH_FRCNT_COUNT cnt'
    let c := if signed then c.countMac else c
    let c := if !room then c.ctrFail 4 else c
    if room && ceil ≤ cnt' + c.resStep / 2 && (vget c.sec.want 4 none).isNone then c.reserve 4 (cnt' + c.resStep) else c)

end Sys2Proof.Machine
end

