-- ==== Sys2Proof/Machine/Items.lean ====
section
/-! DEFINITION. Tagged items from completion to the return of their tag: the outcome of an item, the bytes of its record,
the delivery queues, and the orphan queue (R148, R150, R160 to R168, R174, R182). -/
namespace Sys2Proof.Machine

/-- Opcodes of R148. -/
def opNOP : Nat := 0x00
def opVSET : Nat := 0x01
def opVREL : Nat := 0x02
def opPHREQ : Nat := 0x03
def opVQUERY : Nat := 0x04
def opTLMRD : Nat := 0x05
def opVSETA : Nat := 0x11
def opAUWR : Nat := 0x12

/-- The opcode is executed (R148). -/
def opKnown (o : Nat) : Bool := o ≤ 5 || o = opVSETA || o = opAUWR

/-- The opcode acts on a rail (R149). -/
def opOnRail (o : Nat) : Bool := (1 ≤ o && o ≤ 5) || o = opVSETA

/-- The opcode is critical (R148). -/
def opCritical (o : Nat) : Bool := o = opVSETA || o = opAUWR

/-- The opcode moves a rail's vote (R159). -/
def opVolt (o : Nat) : Bool := o = opVSET || o = opVREL || o = opVSETA

/-- Statuses of R160 and codes of R161. -/
def stDONE : Nat := 0
def stSUPERSEDED : Nat := 1
def stABORTLOAD : Nat := 2
def stABORTFLUSH : Nat := 3
def stFAILED : Nat := 4
def stREFUSED : Nat := 5
def cdITEMCRC : Nat := 0x01
def cdBADLEN : Nat := 0x02
def cdBADFMT : Nat := 0x03
def cdBADOPC : Nat := 0x04
def cdBADARG : Nat := 0x05
def cdDENIED : Nat := 0x06
def cdRAILSAFE : Nat := 0x07
def cdRAILOFF : Nat := 0x08
def cdDEPARTED : Nat := 0x09
def cdCMDRESET : Nat := 0x0A
def cdNEEDAUTH : Nat := 0x21
def cdOVFCTX : Nat := 0x22
def cdKEYSLOT : Nat := 0x23
def cdRATELIM : Nat := 0x24
def cdREPLAY : Nat := 0x25
def cdBADTAG : Nat := 0x26
def cdCTREND : Nat := 0x27

/-! ## Values a record carries (R148) -/

/-- Members of a rail: the ports that take turns, and until a shed ends the ports that leave (R126, R128). -/
def Rail.nact (r : Rail) : Nat := (r.order.filter (fun x => x.member || x.trans = .leaving)).length

/-- Ports of the active order. -/
def Rail.nassign (r : Rail) : Nat := r.order.length

/-- Vref in 0.5 mV, truncated (R98). -/
def Rail.vrefCode (r : Rail) : Nat := r.vref / 102400

/-- Arbitration winner of rail `n` (Vn_REF.WIN). -/
def Core.win (c : Core) (n : Nat) : Nat := c.fld (pgV n) V_REF_WIN

/-- Rail current in the host view, 1/8 A (R287). -/
def Core.hostAmp8 (c : Core) (n : Nat) : Int := clampInt (-32768) 32767 (roundDiv (c.hostView (0x08 + n)) 8)

/-- VAL0 and VAL1 of an item that has been applied, or whose rail has ended it (R148). -/
def Core.itemVals (c : Core) (t : Nat) : Nat × Nat :=
  let x := c.item t
  let r := c.rail x.rail
  if x.opc = opNOP then (x.ctx, c.cmd.free.length)
  else if opVolt x.opc then (c.win x.rail, r.vrefCode)
  else if x.opc = opPHREQ then (r.nact, r.ntarget)
  else if x.opc = opVQUERY then
    (c.win x.rail, r.rstate.code + 8 * b2n (c.stat (pgV x.rail) 0) + 256 * c.fld pgCMD (CMD_RAIL_WCTX x.rail))
  else if x.opc = opTLMRD then
    ((clampInt 0 65535 (roundDiv (c.hostView x.rail) 4)).toNat, ofSigned 16 (c.hostAmp8 x.rail))
  else (0, 0)

/-! ## Tags and the orphan queue (R150, R167, R168) -/

/-- Tags that a context holds. -/
def Core.inflight (c : Core) (ctx : Nat) : Nat := (c.cmd.tags.toList.filter (fun x => x.phase ≠ 0 && x.ctx = ctx)).length

/-- CMD_STAT.TAGSFULL follows the free list (R150). -/
def Core.syncTags (c : Core) : Core := c.setLevel pgCMD 4 (c.cmd.free = [])

/-- A tag returns to the tail of the free list, and its TAGt_ENT reads 0 (DESIGN CHOICE, log 114); a departing context whose last
tag it was becomes free (R150, R166). -/
def Core.freeTag (c : Core) (t : Nat) : Core :=
  let ctx := (c.item t).ctx
  let c := { c.modItem t (fun _ => {}) with cmd := { (c.modItem t (fun _ => {})).cmd with
    free := c.cmd.free ++ [t], checks := c.cmd.checks.filter (fun p => p.1 ≠ t) } }
  let c := if ctx < 64 && (c.ctx ctx).st = 2 && c.inflight ctx = 0 then c.modCtx ctx (fun _ => {}) else c
  c.syncTags

/-- Bytes 0 to 15 of the record of a completed item (R162). -/
def Core.recordHead (c : Core) (t : Nat) : List Byte :=
  let x := c.item t
  let d := x.done.getD ⟨0, 0, 0, 0, 0, 0⟩
  let b := [BitVec.ofNat 8 (0x40 + 0x20 * b2n x.signed), BitVec.ofNat 8 x.opc, BitVec.ofNat 8 x.rqid, BitVec.ofNat 8 (t % 128),
    BitVec.ofNat 8 (d.status + d.flags), BitVec.ofNat 8 d.code] ++ toLeBytes 2 d.val0 ++ toLeBytes 2 d.val1 ++
    toLeBytes 4 d.time ++ [0#8]
  b ++ [crc8 b]

/-- The record as it is written to the requester: 32 bytes and signed when the item passed the KEYSLOT check
(R162, R174). -/
def State.recordSent (s : State) (t : Nat) : List Byte :=
  let x := s.core.item t
  let h := s.core.recordHead t
  if x.signed then
    let b := h ++ toLeBytes 4 x.counter ++ [BitVec.ofNat 8 x.key, 0#8, 0#8, 0#8]
    b ++ s.keyTag x.key (s.uidBytes ++ b)
  else h

/-- A record enters the orphan queue, or is counted lost when 64 are held; either way its tag returns (R166 to R168). -/
def Core.toOrphan (c : Core) (t : Nat) : Core :=
  let x := c.item t
  let c :=
    if c.cmd.orp.length < 64 then
      let o : Orphan := ⟨c.recordHead t, x.bus, x.da, x.ctx, x.pid, if x.auth then x.counter else 0⟩
      let c := { c with cmd := { c.cmd with orp := c.cmd.orp ++ [o] } }
      (c.raise pgCMD 1).send 0x31 0 (mkAddr 9 (x.ctx + 256 * (if x.auth then x.key else 0)))
    else ((c.incSat pgORP ORP_LOST_COUNT 1).raise pgCMD 2).send 0x32 0 (mkAddr 0xA t)
  c.freeTag t

/-! ## Delivery (R163) -/

/-- Completed items that wait enter the delivery queue of a bus while it holds fewer than 16. -/
def Core.pullQueue (c : Core) (b : Nat) : Core :=
  let room := 16 - (c.bus b).queue.length
  let go := (c.bus b).waitq.take room
  let c := c.modBus b (fun x => { x with queue := x.queue ++ go, waitq := x.waitq.drop room })
  go.foldl (fun c t => c.modItem t (fun x => { x with phase := 4 })) c

/-- The record of an item that has completed goes to the delivery queue of its bus, or waits there in phase 3; the record
of a requester that has departed goes to ORP (R163, R166). -/
def Core.deliver (c : Core) (t : Nat) : Core :=
  let x := c.item t
  if x.gone then c.toOrphan t
  else
    let c := c.modItem t (fun x => { x with phase := 3 })
    (c.modBus x.bus (fun q => { q with waitq := q.waitq ++ [t] })).pullQueue x.bus

/-- An item completes: its outcome is fixed, its context counts it, its ITEM crumb is offered and its record goes on its
way. `onRail` says that the item names a rail, so the IDLE flag can apply (R159 to R163, R291). -/
def Core.finishItem (c : Core) (t status code : Nat) (onRail : Bool) (vals : Nat × Nat) : Core :=
  let x := c.item t
  let st := (c.rail x.rail).rstate
  let idle := onRail && opOnRail x.opc && x.rail < 8 && (st = .off || st = .precheck || st = .softoff)
  let flags := x.flags + 0x40 * b2n (x.ctx = 64) + 0x80 * b2n idle
  let c := c.modItem t (fun x => { x with done := some ⟨status, code, flags, vals.1 % 65536, vals.2 % 65536, c.time32⟩ })
  let c :=
    if status = stFAILED || status = stREFUSED then
      let c := (c.setFld pgCMD CMD_LASTERR_TAG t).setFld pgCMD CMD_LASTERR_REFUSED (b2n (status = stREFUSED))
      (c.setFld pgCMD CMD_LASTERR_CODE code).setFld pgCMD CMD_LASTERR_CTX x.ctx
    else c
  let c := if 1 ≤ code && code ≤ 5 then c.raise pgCMD 5 else c
  let c := if x.ctx < 64 then c.modCtx x.ctx (fun k => { k with items := (k.items + 1) % 65536 }) else c
  let c := c.crumb 1 4 [BitVec.ofNat 8 t, BitVec.ofNat 8 (status + flags), BitVec.ofNat 8 code, BitVec.ofNat 8 x.ctx]
    (some c.time.toNat)
  c.deliver t

/-- An item whose record shows the values of R148. -/
def Core.completeItem (c : Core) (t status code : Nat) : Core := c.finishItem t status code true (c.itemVals t)

/-- An item that has failed a check: the manual states no VAL0 and VAL1 for it, so they are free values (log 6). -/
def Core.failItem (c : Core) (t status code : Nat) (onRail : Bool) : Core :=
  let a := c.takeWord
  let b := a.2.takeWord
  b.2.finishItem t status code onRail (a.1.toNat, b.1.toNat)

/-! ## Items that wait for their rail (R132, R159) -/

/-- Tags of items of this opcode class that are applied and not completed on rail `n`. -/
def Core.openItems (c : Core) (n : Nat) (sel : Nat → Bool) : List Nat :=
  (List.range 128).filter (fun t =>
    let x := c.item t
    x.phase = 3 && x.done.isNone && x.rail = n && sel x.opc)

/-- Every voltage item that waits for rail `n` completes (R159). -/
def Core.endVolts (c : Core) (n status code : Nat) : Core :=
  (c.openItems n opVolt).foldl (fun c t => c.completeItem t status code) c

/-- The phase-count item whose transition is under way on rail `n` completes (R132). -/
def Core.endPhases (c : Core) (n status code : Nat) : Core :=
  (c.openItems n (fun o => o = opPHREQ)).foldl (fun c t => c.completeItem t status code) c

/-- A rail event of R293 is offered to the crumb stream when its code is enabled. -/
def Core.railEvent (c : Core) (n code : Nat) : Core :=
  if (c.fld pgCRB CRB_EVEN_CODES).testBit code then
    c.crumb 2 5 [BitVec.ofNat 8 (32 * n + code)] (some c.time.toNat)
  else c

end Sys2Proof.Machine
end

