-- ==== Sys2Proof/Machine/Rails.lean ====
section
/-! DEFINITION. The parts of a rail that its loop, its phase manager and its protection share: slots of the active order,
the state a port takes (R252), the target count and transitions (R126 to R132), the arbitration winner (R155, R156), and
the changes of reference state (R88 to R94). -/
namespace Sys2Proof.Machine

/-! ## Slots and ports (R71, R72, R109) -/

/-- Every slot of a rail's order that names this phase, changed. -/
def Core.modSlot (c : Core) (n dev port : Nat) (f : Slot → Slot) : Core :=
  c.modRail n (fun r => { r with order := r.order.map (fun x => if x.dev = dev && x.port = port then f x else x) })

/-- The slot of a local port in the order of the rail it is assigned to. -/
def Core.slotOf (c : Core) (k : Nat) : Option Slot :=
  (c.rail (c.portRail k)).order.find? (fun x => x.dev = 0 && x.port = k)

/-- The reference states that permit firing (R88). -/
def RState.fires : RState → Bool
  | .proof | .hold | .slew | .softoff => true
  | _ => false

/-- PWM state of the phase in a slot: the port's for a local phase, the modelled one for a remote phase. -/
def Core.slotPwm (c : Core) (x : Slot) : Pwm := if x.dev = 0 then (c.port x.port).pwm else x.pwm

/-- The phase counts in the sums of R73. -/
def Core.inSums (c : Core) (x : Slot) : Bool := x.inSum && c.slotPwm x ≠ .mid

/-- The slot takes turns in firing (R126, R128 step 3). -/
def Slot.turn (x : Slot) : Bool := x.member && !(x.trans = .leaving && 4 ≤ x.fired)

/-- A port's output is driven to a state; a falling edge is stamped (R118). -/
def Core.setPwm (c : Core) (k : Nat) (p : Pwm) : Core :=
  let was := (c.port k).pwm
  c.modPort k (fun x => { x with pwm := p, fallAt := if was = .high && p ≠ .high then c.time.toNat else x.fallAt })

/-- A phase leaves the sums, and its model is set at its next firing as for a joining phase (R72). -/
def Slot.dropped (x : Slot) : Slot := { x with inSum := false, join := true }

/-- The order is cascaded (R202). -/
def Core.cascaded (c : Core) (n : Nat) : Bool := c.flag pgLNK (LNK_CR_CASC n)

/-! ## The ring's loop channel (R191, R192) -/

/-- A frame or token leaves this device. -/
def Core.sendFrame (c : Core) (f : Frame) : Core := { c with lnk := { c.lnk with sent := f :: c.lnk.sent } }

/-- A frame of a channel needs no credit: on VC3 before enumeration has ended (R194). -/
def Core.creditFree (c : Core) (vc : Nat) : Bool := vc = 3 && c.fld pgLNK LNK_ID_RSTATE < 3

/-- A frame waits for the D output (R193). -/
def Core.queueFrame (c : Core) (q : OutFrame) : Core := { c with lnk := { c.lnk with outq := c.lnk.outq ++ [q] } }

/-- A VC0 frame of this device: DEST, TYPE and PORT, P0 to P2 (R192). -/
def Core.sendVC0 (c : Core) (dest ty port payload : Nat) : Core :=
  c.queueFrame { vc := 0, frame := .vc0 dest ty port (payload % 2 ^ 24) }

/-- A frame of VC1 to VC3 of this device, in class A, numbered modulo 256 on its channel (R192, R194). -/
def Core.sendMsg (c : Core) (dest : Nat) (m : RingMsg) : Core :=
  let c' := { c with lnk := { c.lnk with fn := vmod c.lnk.fn m.vc (fun x => (x + 1) % 256) } }
  c'.queueFrame { vc := m.vc, frame := .msg false dest (c.fld pgLNK LNK_ID_DEVID) (vget c.lnk.fn m.vc 0) m, free := c.creditFree m.vc }

/-- The device whose frames this one receives, and to which it returns credits: its predecessor, or on the chord the device
two places back (R194, R213). -/
def Core.upstream (c : Core) : Nat :=
  let n := max 1 (c.fld pgLNK LNK_ID_NDEV)
  let back := if c.stat pgLNK 2 then 2 else 1
  (c.fld pgLNK LNK_ID_DEVID + 2 * n - back - 1) % n + 1

/-- A credit for one frame of a channel and class returns upstream; none before enumeration has ended, on VC3 (R194). -/
def Core.giveCredit (c : Core) (vc : Nat) (clsB : Bool) : Core :=
  if c.fld pgLNK LNK_ID_DEVID = 0 || c.creditFree vc then c
  else c.queueFrame { vc := 4, frame := .credit c.upstream vc (b2n clsB) 1 }

/-- A waiting frame leaves if it holds a credit or needs none; the credit of the frame that it forwards returns, and a VC0
frame counts for LNK_LOAD (R193, R194, R219). -/
def Core.tryLeave (c : Core) (q : OutFrame) : Core :=
  let i := 2 * q.vc + b2n q.clsB
  if q.free || q.vc = 4 || 0 < vget c.lnk.credits i 0 then
    let c := { c with lnk := { c.lnk with
      outq := c.lnk.outq.erase q
      credits := if q.free || q.vc = 4 then c.lnk.credits else vmod c.lnk.credits i (· - 1)
      vc0s := c.lnk.vc0s + (if q.vc = 0 then 1 else 0) } }
    let c := c.sendFrame q.frame
    match q.back with
    | some (vc, clsB) => c.giveCredit vc clsB
    | none => c
  else c

/-- The waiting credit frames leave (R193). -/
def Core.pumpCredits (c : Core) : Core :=
  (c.lnk.outq.filter (fun q => q.vc = 4)).foldl (fun (c : Core) q => c.tryLeave q) c

/-- The waiting frames of a channel leave in their order as far as credits reach. A waiting credit frame goes before each new
frame of VC1 to VC3, and after the VC0 frames that wait (R193, R194). -/
def Core.pumpVc (c : Core) (vc : Nat) : Core :=
  ((c.lnk.outq.filter (fun q => q.vc = vc)).foldl
    (fun (c : Core) q => (if vc = 0 then c else c.pumpCredits).tryLeave q) c).pumpCredits

/-- The D output sends what it may: VC0 first, credit frames, then VC3, VC1 and VC2 (R193). In a freeze VC1 to VC3 stand
still, and from step 3 of full freeze the outputs are off (R439, R440). With EN 0 there is no output, and what would leave is
lost. -/
def Core.pumpOut (c : Core) : Core :=
  if c.lnk.outq = [] then c
  else if !c.flag pgLNK LNK_CTRL_EN then { c with lnk := { c.lnk with outq := [] } }
  else if c.rpr.depth = 2 && c.rpr.allMid then c
  else if c.rpr.depth ≠ 0 then c.pumpVc 0
  else (((c.pumpVc 0).pumpVc 3).pumpVc 1).pumpVc 2

/-- A record of a remote phase changed. -/
def Core.modRemote (c : Core) (n dev port : Nat) (f : Remote → Remote) : Core :=
  { c with lnk := { c.lnk with
      remotes := c.lnk.remotes.map (fun x => if x.rail = n && x.dev = dev && x.port = port then f x else x) } }

def Core.remote (c : Core) (n dev port : Nat) : Remote :=
  (c.lnk.remotes.find? (fun x => x.rail = n && x.dev = dev && x.port = port)).getD { rail := n, dev := dev, port := port }

/-- A firing of a slot's phase has been decided and waits for an owned slot (R203). -/
def Core.isDue (c : Core) (n : Nat) (x : Slot) : Bool := (c.rail n).due.any (fun d => d.dev = x.dev && d.port = x.port)

/-- MID is sent to a remote phase: its firings that wait are not sent, and its model leaves the sums (R192, R206). -/
def Core.sendMid (c : Core) (n dev port : Nat) : Core :=
  ((c.sendVC0 dev 5 port 0).modRail n (fun r => { r with due := r.due.filter (fun d => !(d.dev = dev && d.port = port)) })).modSlot
    n dev port (fun x => Slot.dropped { x with
      pwm := .mid, fire := none, fallAt := if x.pwm = .high then 250 * c.time.toNat else x.fallAt })

/-- MID is sent to every remote member of a rail (R206, R232, R248). -/
def Core.midRemotes (c : Core) (n : Nat) : Core :=
  let c := c.modRail n (fun r => { r with due := [] })
  ((c.rail n).order.filter (fun x => x.dev ≠ 0 && x.member)).foldl (fun c x => c.sendMid n x.dev x.port) c

/-- Full freeze: MID is sent to every remote member of a rail, and one that is high runs its on-time to its end (R114, R440). -/
def Core.freezeRemotes (c : Core) (n : Nat) : Core :=
  let c := c.modRail n (fun r => { r with due := [] })
  ((c.rail n).order.filter (fun x => x.dev ≠ 0 && x.member)).foldl (fun (c : Core) x =>
    if x.pwm = .high then c.sendVC0 x.dev 5 x.port 0 else c.sendMid n x.dev x.port) c

/-! ## The state a port takes (R252) -/

/-- The crowbar of rail `n` holds (R229). -/
def Core.crowHeld (c : Core) (n : Nat) : Bool := c.stky pgTRP (16 + n)

/-- Group `g` is in its trip state (R247). -/
def Core.tripped (c : Core) (g : Nat) : Bool := c.stat pgTRP g

/-- The positive current limit of a port acts: its HI side is asserted outside the blanking (R233). -/
def Core.limitHi (c : Core) (k : Nat) : Bool := c.cmpHi (8 + k) && (c.guard k).blankLeft = 0

/-- Rows 1 to 5 of R252: the state that they force on a port; none when the loop and the current limits decide. -/
def Core.forcedPwm (c : Core) (k : Nat) : Option Pwm :=
  let n := c.portRail k
  let high := (c.port k).pwm = .high
  let trip (g : Nat) : Pwm := if c.flag pgTRP (TRP_GRP_ACT g) then .low else .mid
  if n < 8 then
    let r := c.rail n
    let member := match c.slotOf k with | some x => x.member | none => false
    if member && c.crowHeld n then
      some (if c.flag pgTRP (TRP_RAIL_OVMODE n) && c.cmpLo n then .mid else .low)
    else if member && c.tripped n then some (trip n)
    else if !member || !r.rstate.fires then some .mid
    else if (r.arrived || c.rpr.depth = 2) && !high then some .mid
    else none
  else if n = 0xE then
    let g := c.fld pgTRP TRP_CFG_LENTGRP
    if g < 8 && c.tripped g then some (trip g)
    else if vget c.lnk.lentMid k true then some .mid
    else if (c.rpr.depth = 2 || c.stat pgLNK 3 || vget c.lnk.lentLater k false) && !high then some .mid
    else none
  else some .mid

/-- The rail whose TRP_RST counts the limited firings of a port (R233, R235). -/
def Core.limitRail (c : Core) (k : Nat) : Nat :=
  let n := c.portRail k
  if n < 8 then n else c.fld pgTRP TRP_CFG_LENTGRP

/-- A firing of a port is cut or suppressed by its positive limit (R233); while PCLACT is 1 the conditions of R239 do not
hold. On a lent port it counts only (R235). -/
def Core.limitedFiring (c : Core) (k : Nat) : Core :=
  let n := c.limitRail k
  if n < 8 then
    let c := c.incSat pgTRP (TRP_RST_PCLCNT n) 1
    if c.portRail k = 0xE || c.fld pgTRP (TRP_RAIL_NPCL n) = 0 then c
    else ((c.setFld pgTRP (TRP_RST_PCLACT n) 1).setStat pgCMP (8 + n) false).setLive 0x01 (mkAddr 1 n) false
  else c

/-- The model of a local port's phase is set at its next firing as for a joining phase. -/
def Core.rejoinNext (c : Core) (k : Nat) : Core := c.modSlot (c.portRail k) 0 k (fun x => { x with join := true })

/-- A port goes to mid, and its phase leaves the sums. -/
def Core.portMid (c : Core) (k : Nat) : Core :=
  (c.setPwm k .mid).modSlot (c.portRail k) 0 k Slot.dropped

/-- A port takes the state of R252. -/
def Core.settlePort (c : Core) (k : Nat) : Core :=
  let now := (c.port k).pwm
  match c.forcedPwm k with
  | some .mid => if now = .mid then c else c.portMid k
  | some _ => if now = .low then c.rejoinNext k else (c.setPwm k .low).rejoinNext k
  | none =>
    let hi := c.limitHi k
    let lo := c.cmpLo (8 + k)
    let cut := hi && now = .high
    let c := if cut then c.limitedFiring k else c
    if hi && lo then (if now = .mid then c else c.portMid k)
    else if lo && now = .low then c.portMid k
    else if cut then (c.setPwm k .low)
    else c

/-- STAT.SHARE of a port that is no member falls, and SHAREERR of its rail follows (R116). -/
def Core.syncShare (c : Core) (n : Nat) : Core :=
  c.setLevel (pgV n) 24 ((List.range 24).any (fun k => c.portRail k = n && c.stat (pgP k) 6))

/-- A port shows as a member from its first firing in an add, and otherwise while it is one (R130, R134). -/
def Core.portActive (c : Core) (k : Nat) : Bool :=
  c.portRail k < 8 && match c.slotOf k with | some x => x.member && !(x.trans = .joining && x.fired = 0) | none => false

/-- An identification ends: cause, IDDONE or IDFAIL with its message, and the arbiter's instance (R122). -/
def Core.endIdent (c : Core) (k cause : Nat) : Core :=
  if !(c.port k).ident.busy then c
  else
    let c := (c.modPort k (fun p => { p with ident := {}, fit := {} })).setFld (pgP k) P_IDRES_CAUSE cause
    let c := (c.setLevel (pgP k) 3 false).endAct actIDENT k
    if cause = 0 then c.raise (pgP k) 4 else (c.raise (pgP k) 5).send 0x12 cause (mkAddr 2 k)

/-- The identification of a remote phase ends at its owner, which keeps no page for it: the message alone tells of a failure
(R122, R206; DEDUCED, log 75). -/
def Core.endRemoteIdent (c : Core) (n dev port cause : Nat) : Core :=
  if !(c.remote n dev port).ident.busy then c
  else
    let c := (c.modRemote n dev port (fun y => { y with ident := {} })).endAct actIDENT (32 * dev + port)
    if cause = 0 then c else c.send 0x12 cause (mkAddr 2 port)

/-- The identification of a slot's phase, and its end (R119 to R122, R206). -/
def Core.identOf (c : Core) (n : Nat) (x : Slot) : Ident :=
  if x.dev = 0 then (c.port x.port).ident else (c.remote n x.dev x.port).ident
def Core.endSlotIdent (c : Core) (n : Nat) (x : Slot) (cause : Nat) : Core :=
  if x.dev = 0 then c.endIdent x.port cause else c.endRemoteIdent n x.dev x.port cause

/-- The rail has left HOLD, so identification of its ports ends (R122). -/
def Core.leaveHold (c : Core) (n : Nat) : Core :=
  let c := (List.range 24).foldl (fun c k => if c.portRail k = n then c.endIdent k 2 else c) c
  ((c.rail n).order.filter (fun x => x.dev ≠ 0)).foldl (fun c x => c.endRemoteIdent n x.dev x.port 2) c

/-- STAT.ACTIVE of one port follows its membership; a port that stops being a member ends its SHARE and its
identification (R116, R122). -/
def Core.syncPort (c : Core) (k : Nat) : Core :=
  let a := c.portActive k
  let was := c.stat (pgP k) 0
  let c := c.setLevel (pgP k) 0 a
  if was && !a then
    let c := ((c.setLevel (pgP k) 6 false).setLive 0x13 (mkAddr 2 k) false).endIdent k 4
    if c.portRail k < 8 then c.syncShare (c.portRail k) else c
  else c

/-- The members of a rail have changed: KSTART is reduced modulo NACT, the ports' levels follow, and the identification of a
remote phase that is no member ends (R122, R125, R206). -/
def Core.syncMembers (c : Core) (n : Nat) : Core :=
  let a := (c.rail n).nact
  let c := c.modRail n (fun r => { r with kstart := if a = 0 then r.kstart else r.kstart % a })
  let c := (List.range 24).foldl (fun c k => c.syncPort k) c
  ((c.rail n).order.filter (fun x => x.dev ≠ 0 && !x.member)).foldl (fun c x => c.endRemoteIdent n x.dev x.port 4) c

/-- A stage fault whose group has entered use while tripped drives its line and sends its message from then on; a group
that leaves use releases its line (R106). -/
def Core.syncStages (c : Core) : Core :=
  (List.range 3).foldl (fun c g =>
    let t := (c.prot.stg[g]?).getD false
    let use := t && c.groupInUse g
    let was := (c.prot.stgUse[g]?).getD false
    let c := { c with prot := { c.prot with stgUse := c.prot.stgUse.set g use } }
    let c := c.setLive 0x10 (mkAddr 5 g) t
    if use && !was then c.send 0x10 0 (mkAddr 5 g) else c) c

/-! ## The on-time (R111 to R113, R117) -/

/-- Rail current of R73 in A. -/
def Core.sumCurrent (c : Core) (n : Nat) : Rat :=
  (c.rail n).order.foldl (fun a x => if c.inSums x then a + x.ihat else a) 0

/-- Ibase in A: Irail over the sum of the share weights of the phases not in mid; 0 while no phase is out of mid, since
Irail is then 0 (R111; DEDUCED, log 8). -/
def Core.ibase (c : Core) (n : Nat) : Rat :=
  let r := c.rail n
  let s : Nat := r.order.foldl (fun a x => if c.inSums x then a + x.sk4 else a) 0
  if s = 0 then 0 else r.irail * 4 / s

/-- Identified inductance of a slot's phase in 1/16 nH and resistance in µΩ. -/
def Core.slotL (c : Core) (n : Nat) (x : Slot) : Nat :=
  if x.dev = 0 then c.fld (pgP x.port) P_LHAT_L else (c.remote n x.dev x.port).l
def Core.slotR (c : Core) (n : Nat) (x : Slot) : Nat :=
  if x.dev = 0 then c.fld (pgP x.port) P_RHAT_DCR else (c.remote n x.dev x.port).dcr

/-- Vin of rail `n` in 0.5 mV (R71). -/
def Core.railVin (c : Core) (n : Nat) : Nat := vget c.tlm.vin (c.vinsel n) 0

/-- The reconstructed rail voltage at the latest sample, 1/4,096 of 0.5 mV (R71). -/
def Rail.vo (r : Rail) : Int := r.vcApplied + 2048 * r.d

/-- The nearest integer to a rational, ties away from zero. -/
def roundRat (x : Rat) : Int := if x < 0 then -((-x + 1 / 2).floor) else (x + 1 / 2).floor

/-- A rational held between two limits. -/
def clampRat (lo hi x : Rat) : Rat := if x < lo then lo else if hi < x then hi else x

/-- Half a dither pair in periods of 2.5 ns (R120). -/
def Ident.half (p : Ident) : Nat := p.hw * 25600

/-- The dither of an identification in 40 ps steps: + in the first half of a pair, − in the second, and none once the pairs
are complete (R120). -/
def Ident.dither (p : Ident) (now : Nat) : Int :=
  if !p.busy || p.nrep ≤ p.pairs then 0
  else if (now - p.start) / p.half % 2 = 0 then p.dith else -p.dith

/-- The limits of R117 in 40 ps steps: TONMIN and TONMAX,eff. -/
def Core.tonMin (c : Core) (n : Nat) : Nat := 25 * c.fld (pgV n) V_PHF_TONMIN
def Core.tonMax (c : Core) (n : Nat) : Int :=
  let tper : Rat := c.fld (pgV n) V_PHF_PERIOD * 125 / 2
  let lim := (tper - 25 * c.fld (pgV n) V_PHF_TOFFMIN).floor
  max (c.tonMin n) (min (25 * c.fld (pgV n) V_TONMAX_TONMAX) lim)

/-- The latest phase-ADC current of a port in A, from which the model of a phase that joins is set (R72, R130). -/
def Core.joinAmps (c : Core) (k : Nat) : Rat := (c.sfld (pgP k) P_IMON_ISAMP : Rat) / 64

/-- The share of the rail's current that a phase's next firing aims at: Ibase times its weight, which in an add that has met a
condition of R129 is 1 from that firing on (R111, R130). -/
def Core.shareOf (c : Core) (n : Nat) (x : Slot) : Rat :=
  if (c.rail n).addFast && x.trans = .joining then (c.modSlot n x.dev x.port (fun y => { y with sk4 := 4 })).ibase n
  else c.ibase n * x.sk4 / 4

/-- The on-time of a slot's phase in 40 ps steps before the limits of R117 (R112). The average of a phase that joins is the one
set before it fires (R130). -/
def Core.tonRaw (c : Core) (n : Nat) (x : Slot) : Int :=
  let r := c.rail n
  let vin : Rat := c.railVin n / 2000
  if vin = 0 then 0
  else
    let vo : Rat := r.vcApplied / 8192000
    let ish : Rat := c.shareOf n x
    let tper : Rat := c.fld (pgV n) V_PHF_PERIOD * 125 / 2
    let id := c.identOf n x
    let tff : Rat := tper * (vo + c.slotR n x * ish / 1000000) / vin + id.dither c.time.toNat
    let lim : Rat := c.fld (pgV n) V_ONTCOR_TCMAX * 25 / 2
    let ibar : Rat := if x.dev = 0 && x.join then c.joinAmps x.port else x.ibar
    let cor : Rat :=
      if !c.flag (pgV n) V_ONTCOR_CORREN || id.busy then 0
      else clampRat (-lim) lim (25 * c.slotL n x * (ish - ibar) / (16 * vin))
    roundRat (tff + cor)

/-- The on-time of a slot's phase in 40 ps steps (R117). -/
def Core.ton (c : Core) (n : Nat) (x : Slot) : Nat :=
  (max (c.tonMin n : Int) (min (c.tonMax n) (c.tonRaw n x))).toNat

/-- The on-time of a slot's phase is computed, with the marks of R117 (R112, R113). -/
def Core.setTon (c : Core) (n : Nat) (x : Slot) : Core :=
  let raw := c.tonRaw n x
  c.modRail n (fun r => { r with tonNext := c.ton n x, tonRaised := raw < c.tonMin n, tonLowered := c.tonMax n < raw })

/-- The on-time for the port at the pointer is computed again (R113). -/
def Core.recomputeTon (c : Core) (n : Nat) : Core :=
  match ((c.rail n).order)[(c.rail n).ptr]? with
  | none => c
  | some x => c.setTon n x

/-- A PRELOAD with the on-time of the phase's next firing (R203, R204). -/
def Core.sendPreload (c : Core) (n dev port : Nat) : Core :=
  match (c.rail n).order.find? (fun x => x.dev = dev && x.port = port) with
  | none => c
  | some x =>
    let raw := c.tonRaw n x
    let t := c.ton n x
    (c.sendVC0 dev 1 port t).modRemote n dev port (fun y => { y with
      preload := t, preRaised := raw < c.tonMin n, preLowered := c.tonMax n < raw })

/-- A remote phase joins from mid: its model takes a current that nothing here measures, a free value (R72, R130, log 6); it
gets a PRELOAD, and its first token comes no sooner than FIRE_BUDGET later (R204). -/
def Core.remoteJoin (c : Core) (n dev port : Nat) : Core :=
  let wait := (2 * c.fld pgLNK (LNK_CR_BUDGET n) + 4) / 5
  let i : Rat := (toSigned 16 c.takeWord.1.toNat : Rat) / 64
  let c := c.takeWord.2.modSlot n dev port (fun x => { x with ihat := i, ibar := i })
  (c.sendPreload n dev port).modRemote n dev port (fun y => { y with notBefore := c.time.toNat + wait })

/-! ## The pointer (R109, R128 step 3a) -/

/-- Positions that the pointer visits from one slot to the next that takes turns, that one excluded. -/
def skipFrom (order : List Slot) (i : Nat) : Nat → List Nat
  | 0 => []
  | k + 1 =>
    match order[i % order.length]? with
    | none => []
    | some x => if x.turn then [] else i % order.length :: skipFrom order (i + 1) k

/-- The first slot at or after position `i` in circular order that takes turns. -/
def nextTurn (order : List Slot) (i : Nat) : Nat := (i + (skipFrom order i order.length).length) % max 1 order.length

/-- A local port of a shed goes to mid, or a remote one gets MID, and is no member any more (R128, R206). -/
def Core.releaseSlot (c : Core) (n : Nat) (x : Slot) : Core :=
  let c := if x.dev = 0 then c.portMid x.port else c.sendMid n x.dev x.port
  c.modSlot n x.dev x.port (fun y => { y with member := false })

/-- The pointer moves past its slot to the next that takes turns; each slot of a shed's release that it moves past
counts once (R109, R128 step 3a). -/
def Core.advancePtr (c : Core) (n : Nat) : Core :=
  c.modRail n (fun r =>
    let past := skipFrom r.order (r.ptr + 1) r.order.length
    let draining (x : Slot) : Bool := x.trans = .leaving && x.member && 4 ≤ x.fired
    { r with
      ptr := nextTurn r.order (r.ptr + 1)
      order := r.order.mapIdx (fun i x => if draining x && past.contains i then { x with passes := x.passes + 1 } else x) })

/-! ## The target count and the transitions (R126 to R132) -/

/-- NTARGET (R127). -/
def Core.target (c : Core) (n : Nat) : Nat :=
  let r := c.rail n
  let a := r.nassign
  let nmin := zeroAsOne (c.fld (pgV n) V_SHEDCFG_NMIN)
  let nreq := min a (c.fld (pgV n) V_SHEDCFG_NREQ)
  if c.flag (pgV n) V_CTRL_AUTOSHED then min a (max nmin (max nreq (if r.autoValid then r.autoTerm else a)))
  else min a (max nmin (if nreq = 0 then a else nreq))

/-- Shed priority of a slot: the port's, and 0 for a remote phase (R126; DESIGN CHOICE, log 9). -/
def Core.shpri (c : Core) (x : Slot) : Nat := if x.dev = 0 then c.fld (pgP x.port) P_ASSIGN_SHPRI else 0

/-- A slot put in its place by a precedence. -/
def insertSlot (before : Slot → Slot → Bool) (x : Slot) : List Slot → List Slot
  | [] => [x]
  | y :: t => if before x y then x :: y :: t else y :: insertSlot before x t

/-- Slots in the order of a precedence. -/
def sortSlots (before : Slot → Slot → Bool) (l : List Slot) : List Slot := l.foldl (fun a x => insertSlot before x a) []

/-- Lower shed priority first, ties to the lower port index, then to the lower device (R126, R130). -/
def Core.lowFirst (c : Core) (x y : Slot) : Bool :=
  let a := c.shpri x
  let b := c.shpri y
  a < b || (a = b && (x.port < y.port || (x.port = y.port && x.dev < y.dev)))

/-- Order in which members are chosen to leave: those not being identified first, then the highest shed priority, ties to
the higher port index (R128). -/
def Core.leaveFirst (c : Core) (n : Nat) (x y : Slot) : Bool :=
  let busy (z : Slot) : Bool := (c.identOf n z).busy
  if busy x ≠ busy y then busy y else c.lowFirst y x

/-- The slot is one of a list, by phase. -/
def inSlots (l : List Slot) (x : Slot) : Bool := l.any (fun y => y.dev = x.dev && y.port = x.port)

/-- TSTATE: 0 steady, 1 taper, 2 release, 3 add (R133). -/
def Rail.tstate (r : Rail) : Nat :=
  let lv := r.order.filter (fun x => x.trans = .leaving)
  if lv.any (fun x => x.fired < 4) then 1
  else if lv ≠ [] then 2
  else if r.order.any (fun x => x.trans = .joining) then 3
  else 0

/-- STAT.TRANS falls at the end of a transition (R133). -/
def Core.syncTrans (c : Core) (n : Nat) : Core := c.setStat (pgV n) 16 ((c.rail n).tstate ≠ 0)

/-- A shed of `k` members begins (R128 step 1); a leaving port that is being identified ends with CAUSE 4. -/
def Core.beginShed (c : Core) (n k : Nat) : Core :=
  let r := c.rail n
  let out := (sortSlots (c.leaveFirst n) (r.order.filter (·.member))).take k
  let goal := r.nact - k
  let c := c.modRail n (fun r => { r with
    order := r.order.map (fun x => if inSlots out x then { x with trans := .leaving, fired := 0, passes := 0, sk4 := 3 } else x)
    shedGoal := goal, shedDue := false, abortHold := false, belowFor := none })
  let c := out.foldl (fun c x => c.endSlotIdent n x 4) c
  (c.syncTrans n).raise (pgV n) 16

/-- An add of `k` ports of the order begins (R130 step 1). -/
def Core.beginAdd (c : Core) (n k : Nat) : Core :=
  let r := c.rail n
  let new := (sortSlots c.lowFirst (r.order.filter (fun x => !x.member && !x.lost))).take k
  let c := c.modRail n (fun r => { r with
    order := r.order.map (fun x =>
      if inSlots new x then { x with inSum := false, join := true, fresh := true, member := true, trans := .joining, fired := 0, sk4 := 1, l := c.slotL n x, dcr := c.slotR n x } else x)
    shedGoal := r.ntarget, addFast := false })
  let c := new.foldl (fun c x => if x.dev = 0 then c else c.remoteJoin n x.dev x.port) c
  ((c.syncMembers n).syncTrans n).raise (pgV n) 16

/-- A transition that NTARGET asks for begins: an add at once; a shed when a change of NREQ or NMIN calls for it and no
aborted shed holds it back (R127, R129). -/
def Core.startTrans (c : Core) (n : Nat) : Core :=
  let r := c.rail n
  if !r.rstate.fires || r.tstate ≠ 0 then c
  else if r.nact < r.ntarget then
    if r.order.any (fun x => !x.member && !x.lost) then c.beginAdd n (r.ntarget - r.nact) else c
  else if r.ntarget < r.nact && r.shedDue && !r.abortHold then c.beginShed n (r.nact - r.ntarget)
  else c

/-- A transition has reached SHEDDONE or ADDDONE: the waiting phase-count item is DONE if the transition was for the target that
stands, and a lower target goes on with a further shed, a higher one with an add (R131, R132). -/
def Core.afterTrans (c : Core) (n : Nat) : Core :=
  let r := c.rail n
  (if r.shedGoal = r.ntarget then c.endPhases n stDONE 0 else c).startTrans n

/-- The shed of a rail is done (R128 step 4). -/
def Core.shedDone (c : Core) (n : Nat) : Core :=
  let c := c.modRail n (fun r => { r with order := r.order.map (fun x =>
    if x.trans = .leaving then { x with trans := .none, sk4 := 4, fired := 0, passes := 0 } else x) })
  let c := ((c.syncMembers n).syncTrans n).raise (pgV n) 17
  let c := (c.railEvent n 5).modRail n (fun r => { r with shedDue := r.ntarget < r.nact })
  c.afterTrans n

/-- The last leaving port is in mid: the shed is done (R128 step 4). -/
def Core.shedEnd (c : Core) (n : Nat) : Core :=
  let r := c.rail n
  if r.tstate ≠ 2 || r.order.any (fun x => x.trans = .leaving && x.member) then c else c.shedDone n

/-- Leaving ports whose release is due go to mid: the modelled current has fallen to SHEDZ, or the pointer has passed four
times (R128 steps 3 and 3a). -/
def Core.releaseDue (c : Core) (n : Nat) (bySample : Bool) : Core :=
  let z : Rat := c.fld (pgV n) V_SHEDAUTO_SHEDZ / 4
  let due := (c.rail n).order.filter (fun x => x.trans = .leaving && x.member && 4 ≤ x.fired &&
    c.slotPwm x ≠ .high && x.fire.isNone && !c.isDue n x && ((bySample && x.ihat ≤ z) || 4 ≤ x.passes))
  if due = [] then c else (due.foldl (fun c x => c.releaseSlot n x) c).syncMembers n

/-- A shed is given up: every leaving port is a member again with weight 1 (R129, R131). -/
def Core.rejoinAll (c : Core) (n : Nat) : Core :=
  let gone := (c.rail n).order.filter (fun x => x.trans = .leaving && !x.member)
  let c := c.modRail n (fun r => { r with
    order := r.order.map (fun x => if x.trans = .leaving then
      { x with fresh := !x.member, member := true, trans := .none, sk4 := 4, fired := 0, passes := 0 } else x) })
  let c := gone.foldl (fun c x => if x.dev = 0 then c else c.remoteJoin n x.dev x.port) c
  (c.syncMembers n).syncTrans n

/-- The shed aborts on a load step; the phase-count item behind it ends ABORTED_BY_LOAD (R129, R132). -/
def Core.abortShed (c : Core) (n : Nat) : Core :=
  let c := ((c.rejoinAll n).raise (pgV n) 18).railEvent n 6
  let c := c.modRail n (fun r => { r with abortHold := true, belowFor := none, shedDue := false })
  c.endPhases n stABORTLOAD 0

/-- NTARGET is found again; `byReq` says that a change of NREQ or NMIN brought it about (R127, R131, R132). A target that rises in
a shed and still lies below NACT after the rejoin begins its shed after the SHDLY count of window ends, unless a change of
NREQ or NMIN asks for it again (DESIGN CHOICE, log 112). -/
def Core.retarget (c : Core) (n : Nat) (byReq : Bool) : Core :=
  let old := (c.rail n).ntarget
  let new := c.target n
  let c := c.modRail n (fun r => { r with
    ntarget := new
    shedDue := (r.shedDue || (byReq && new < old)) && new < r.nact })
  let c := if new = old then c else c.endPhases n stSUPERSEDED 0
  let r := c.rail n
  let shedding := r.tstate = 1 || r.tstate = 2
  let c := if shedding && r.shedGoal < new then c.rejoinAll n else c
  c.startTrans n

/-- The transition of a rail that stops firing ends: what was leaving is no member, what was joining is one (R131). -/
def Core.endTrans (c : Core) (n : Nat) : Core :=
  let c := c.modRail n (fun r => { r with
    order := r.order.map (fun x => { x with member := x.member && x.trans ≠ .leaving, trans := .none, sk4 := 4, fired := 0, passes := 0 })
    shedDue := false, abortHold := false, belowFor := none, addFast := false })
  (c.syncMembers n).syncTrans n

/-- The members on entry to PROOF from PRECHECK: the NTARGET ports of lowest shed priority; pointer and KSTART at the
start (R109, R124, R126, R205). -/
def Core.setMembers (c : Core) (n : Nat) : Core :=
  let c := c.modRail n (fun r => { r with
    autoValid := false, autoWhole := false, abortHold := false, belowFor := none
    shedDue := false, kstart := 0, kneadArmed := true, kneadHit := false, hitErr := false, hitSlope := false, due := [], irail := 0, irailHist := [] })
  let t := c.target n
  let mem := (sortSlots c.lowFirst (c.rail n).order).take t
  let c := c.modRail n (fun r =>
    let order := r.order.map (fun x => { x with inSum := false, join := true, fresh := true, member := inSlots mem x, trans := .none, sk4 := 4, fired := 0, passes := 0, pwm := .mid, corr := none, l := c.slotL n x, dcr := c.slotR n x, hist := [], fire := none, lost := false })
    { r with order := order, ntarget := t, ptr := nextTurn order 0 })
  let c := c.setFld pgLNK (LNK_CRST_DROP n) 0
  let c := { c with lnk := { c.lnk with remotes := c.lnk.remotes.map (fun (x : Remote) => if x.rail = n then { x with fails := 0, awaits := [] } else x) } }
  let c := mem.foldl (fun c x => if x.dev = 0 then c else c.remoteJoin n x.dev x.port) c
  (c.syncMembers n).syncTrans n

/-! ## Votes and the winner (R155, R156) -/

/-- Winner and winning voter of rail `n` (R155). -/
def Core.arbitrate (c : Core) (n : Nat) : Nat × Nat :=
  let host := (c.fld (pgV n) V_TARGET_CODE, 0x7F)
  let w := (List.range 64).foldl (fun a i =>
    match vget (c.ctx i).votes n none with
    | some v => if a.1 < v.code then (v.code, i) else a
    | none => a) host
  let w := match vget c.cmd.ovfVotes n none with
    | some (v, _) => if w.1 < v.code then (v.code, 64) else w
    | none => w
  (min w.1 (c.fld (pgV n) V_VMAX_CODE), w.2)

/-- Arbitration is run for rail `n`: when the winner changes, a voltage item that waits is superseded and a rail in HOLD
begins to move. `rate` is the slew code of the item behind the change, 0 for any other cause (R155 to R159). -/
def Core.rearb (c : Core) (n rate : Nat) : Core :=
  let old := c.win n
  let w := c.arbitrate n
  let c := (c.setFld (pgV n) V_REF_WIN w.1).setFld pgCMD (CMD_RAIL_WCTX n) w.2
  if w.1 = old then c
  else
    let c := (c.modRail n (fun r => { r with rate := rate })).endVolts n stSUPERSEDED 0
    if (c.rail n).rstate = .hold then (c.modRail n (fun r => { r with rstate := .slew })).leaveHold n else c

/-- Arbitration is run for every rail. -/
def Core.rearbAll (c : Core) : Core := (List.range 8).foldl (fun c n => c.rearb n 0) c

/-- The goal of a rail in 0.5 mV (R84). -/
def Core.goal (c : Core) (n : Nat) : Nat := max 0x190 (min 0xE10 (c.win n))

/-! ## Levels that follow a rail's state -/

/-- The bit of CMP_STAT and the live level of UV fall, and UVARM with them (R239). -/
def Core.uvFall (c : Core) (n : Nat) : Core :=
  ((c.setFld pgTRP (TRP_RST_UVARM n) 0).setStat pgCMP (8 + n) false).setLive 0x01 (mkAddr 1 n) false

/-- Power good falls (R94). -/
def Core.pgFall (c : Core) (n : Nat) : Core :=
  if c.stat (pgV n) 0 then (c.setStat (pgV n) 0 false).railEvent n 1 else c

/-- The OV comparator of rail `n` is armed (R229). -/
def Core.ovArmed (c : Core) (n : Nat) : Bool := (c.rail n).rstate ≠ .off || c.flag pgTRP (TRP_RAIL_OVOFF n)

/-- The crowbar of rail `n` sets: member ports low, MID to the remote members, CROWn and OVn, and the OV message of the
given kind (R229, R232). -/
def Core.crowbar (c : Core) (n kind : Nat) : Core :=
  let c := ((c.setStat pgTRP (16 + n) true).raise pgTRP (16 + n)).raise pgCMP n
  c.midRemotes n |>.send 0x00 kind (mkAddr 1 n)

/-- The OV side is armed or has asserted: its live level follows, and an armed asserted side sets the crowbar (R229). -/
def Core.ovCheck (c : Core) (n : Nat) (fresh : Bool) : Core :=
  let on := c.cmpHi n && c.ovArmed n
  let c := c.setLive 0x00 (mkAddr 1 n) on
  if on && fresh then c.crowbar n 0 else c

/-- A bus window side that is asserted sends its message when a rail that the bus serves enters PROOF (R241). -/
def Core.vinOnProof (c : Core) (n : Nat) : Core :=
  let b := c.vinsel n
  let c := if c.cmpLo (32 + b) then (c.raise pgCMP (24 + b)).send 0x14 0 (mkAddr 6 b) else c
  if c.cmpHi (32 + b) then (c.raise pgCMP (26 + b)).send 0x15 0 (mkAddr 6 b) else c

/-- A hiccup wait ends without a restart (R238). -/
def Core.hicCancel (c : Core) (n : Nat) : Core :=
  (((c.setFld pgTRP (TRP_RST_HICW n) 0).setStat pgTRP (24 + n) false)).setLive 0x03 (mkAddr 1 n) false

/-! ## Changes of reference state (R89 to R93) -/

/-- Engine that serves rail `n`, 15 for none (Vn_ENG.ENGINE). -/
def Core.railEng (c : Core) (n : Nat) : Nat := vget c.rpr.map.eng n 15

/-- State of engine `j` in the map: 0 good, 1 one mismatch, 2 retired, 3 retest pending (R425). -/
def Core.engSt (c : Core) (j : Nat) : Nat := vget c.rpr.map.engSt j 0

/-- Rail that engine `j` serves, 15 for none. -/
def Core.engRail (c : Core) (j : Nat) : Nat := ((List.range 8).find? (fun n => c.railEng n = j)).getD 15

/-- Engine `j` is an idle spare: it serves no rail, shadows none and may serve (R429). -/
def Core.idleSpare (c : Core) (j : Nat) : Bool :=
  c.engRail j = 15 && c.engSt j ≤ 1 && c.fld pgRPR RPR_SHADOW_ENGINE ≠ j

/-- The idle spare that shadows next: the lowest-numbered in state 0, failing that in state 1 (R429). -/
def Core.nextSpare (c : Core) : Option Nat :=
  match (List.range 10).find? (fun j => c.idleSpare j && c.engSt j = 0) with
  | some j => some j
  | none => (List.range 10).find? (fun j => c.idleSpare j)

/-- RPR_STAT.NOSPARE, and RUN and RETIRED on the engine pages, follow the map (R99, R444). -/
def Core.syncEngines (c : Core) : Core :=
  let c := (List.range 10).foldl (fun c j =>
    (c.setLevel (pgE j) 0 (c.engRail j ≠ 15)).setLevel (pgE j) 5 (c.engSt j = 2)) c
  c.setLevel pgRPR 6 c.nextSpare.isNone

/-- The map changed. -/
def Core.modMap (c : Core) (f : RepairMap → RepairMap) : Core := { c with rpr := { c.rpr with map := f c.rpr.map } }

/-- A shadow of rail `n` has ended: the compares of its window slice and of the phase slices of its local members in slot
order are to follow (R433). -/
def Core.queueCompares (c : Core) (n : Nat) : Core :=
  { c with rpr := { c.rpr with slq := c.rpr.slq ++ n :: (c.localMembers n).map (fun k => 16 + k) } }

/-- A rail's shadow, if it has one, ends without a verdict when the rail leaves HOLD and SLEW (R430); a safe state keeps which
engine it was, for a mismatch found at the same instant (R432). -/
def Core.shadowLapse (c : Core) (n : Nat) : Core :=
  if c.fld pgRPR RPR_SHADOW_RAIL = n && c.fld pgRPR RPR_SHADOW_ENGINE ≠ 0xF && c.rpr.takeover.isNone then
    let j := c.fld pgRPR RPR_SHADOW_ENGINE
    let c := ((c.setFld pgRPR RPR_SHADOW_ENGINE 0xF).setFld pgRPR RPR_SHADOW_RAIL 0xF).setFld pgRPR RPR_SHADOW_VERDICT 3
    let c := (((c.setLevel (pgE j) 1 false).endAct actSHADOW n).queueCompares n).syncEngines
    if (c.rail n).rstate = .safe then { c with rpr := { c.rpr with lapsed := some (n, j, c.absTime) } } else c
  else c

/-- Droop in 1/64 of 0.25 mV before the clamp (R68, R70). -/
def Core.droopRaw (c : Core) (n : Nat) (i : Rat) : Int :=
  if c.flag (pgV n) V_CFG_LLEN then roundRat (c.fld (pgV n) V_LL_RLL * (if i < 0 then 0 else i) * 32 / 125) else 0

/-- The droop clamp in 1/64 of 0.25 mV. -/
def Core.droopMax (c : Core) (n : Nat) : Int := 256 * c.fld (pgV n) V_LL_DRMAX

/-- The current of the phases that stay out of mid on a rail that no longer fires: those that a crowbar or a trip holds low, for
the loop drives no other and every remote one gets MID (R73, R206, R252). -/
def Core.heldCurrent (c : Core) (n : Nat) : Rat :=
  (c.rail n).order.foldl (fun a x =>
    if x.dev = 0 && c.inSums x && c.forcedPwm x.port = some .low then a + x.ihat else a) 0

/-- What the rail shows of its current and droop once it has stopped: the sum of R73 over the phases that are held low, which
is 0 with every phase in mid, and the droop, its clamp and the level of the current limit that follow from it (R68, R69, R73,
R98, R236). -/
def Core.currentGone (c : Core) (n : Nat) : Core :=
  let i := c.heldCurrent n
  let raw := c.droopRaw n i
  let lim := c.droopMax n
  let c := c.modRail n (fun r => { r with irail := i, irailHist := [], droop := min raw lim })
  (c.setStat (pgV n) 5 (lim < raw)).setFld pgTRP (TRP_RST_ROCACT n) (b2n ((c.fld pgTRP (TRP_ROC_ROCLIM n) : Rat) < i))

/-- The rail stops firing: its reference and its integrator go to 0, and remote members get MID (R91, R93, R206). -/
def Core.stopRail (c : Core) (n : Nat) (st : RState) : Core :=
  let c := (c.leaveHold n).midRemotes n
  let c := c.modRail n (fun r => { r with rstate := st, vref := 0, yAcc := 0, arrived := false, preStage := 0, due := [] })
  ((((c.setStat (pgV n) 4 false).currentGone n).pgFall n).uvFall n).shadowLapse n

/-- The rail enters OFF; the transition under way ends (R91, R131). -/
def Core.enterOff (c : Core) (n : Nat) : Core :=
  let c := ((c.stopRail n .off).endTrans n).railEvent n 10
  c.ovCheck n false

/-- Immediate off: items end RAILOFF, every phase goes to mid (R91, R132, R159). -/
def Core.immediateOff (c : Core) (n : Nat) : Core :=
  let c := c.modRail n (fun r => { r with rstate := .off })
  ((c.endVolts n stFAILED cdRAILOFF).endPhases n stFAILED cdRAILOFF).enterOff n

/-- A soft turn-off that has arrived ends in OFF once no phase of the rail is high, a remote one by the model of its on-time
(R91, R114, R132, R203). -/
def Core.softArrive (c : Core) (n : Nat) : Core :=
  let r := c.rail n
  if r.rstate = .softoff && r.arrived && !(r.order.any (fun x => c.slotPwm x = .high)) then
    let c := c.modRail n (fun r => { r with rstate := .off })
    (c.endPhases n stSUPERSEDED 0).enterOff n
  else c

/-- OFFCODE in the unit of Vref. -/
def Core.offVref (c : Core) (n : Nat) : Nat := 102400 * c.fld (pgV n) V_PRAMP_OFFCODE

/-- Soft turn-off from the instantaneous reference (R91, R92, R159). -/
def Core.softOff (c : Core) (n : Nat) : Core :=
  let c := (c.leaveHold n).modRail n (fun r => { r with rstate := .softoff, arrived := r.vref ≤ c.offVref n, preStage := 0 })
  let c := ((c.pgFall n).uvFall n).shadowLapse n
  (c.endVolts n stSUPERSEDED 0).softArrive n

/-- The RAIL safe state of rail `n` (R93, R159, R132, R238). -/
def Core.railToSafe (c : Core) (n : Nat) : Core :=
  if (c.rail n).rstate = .safe then c
  else
    let armed := c.ovArmed n
    let c := c.modRail n (fun r => { r with rstate := .safe, monHeld := true })
    let c := (c.endVolts n stFAILED cdRAILSAFE).endPhases n stFAILED cdRAILSAFE
    let c := (((c.stopRail n .safe).endTrans n).setLevel (pgV n) 7 true).railEvent n 9
    (c.hicCancel n).ovCheck n (!armed)

/-- A released rail goes to OFF (R89, R340). -/
def Core.railFromSafe (c : Core) (n : Nat) : Core :=
  if (c.rail n).rstate = .safe then ((c.setLevel (pgV n) 7 false).enterOff n) else c

/-- EN rises in OFF: PRECHECK (R90 step 1); the OV side is armed (R229). -/
def Core.startPrecheck (c : Core) (n : Nat) : Core :=
  let armed := c.ovArmed n
  let c := c.modRail n (fun r => { r with rstate := .precheck, preStage := 1, monHeld := false })
  c.ovCheck n (!armed)

/-- EN rises in SOFTOFF: PROOF from the instantaneous value, with nothing set up again (R92); a bus window side that is
asserted sends its message (R241). -/
def Core.resumeProof (c : Core) (n : Nat) : Core :=
  let c := c.modRail n (fun r => { r with rstate := .proof, arrived := false, yAcc := 0 })
  (c.setStat (pgV n) 4 false).vinOnProof n

/-- A write of Vn_CTRL's EN and SOFTOFF takes effect (R89, R91, R92); `host` writes end a hiccup wait (R238). -/
def Core.writeEn (c : Core) (n : Nat) (en soft host : Bool) : Core :=
  let was := c.flag (pgV n) V_CTRL_EN
  let c := (c.setFld (pgV n) V_CTRL_EN (b2n en)).setFld (pgV n) V_CTRL_SOFTOFF (b2n soft)
  let c := if host && c.flag pgTRP (TRP_RST_HICW n) then c.hicCancel n else c
  let st := (c.rail n).rstate
  if en then
    if was then c
    else match st with
      | .off => c.startPrecheck n
      | .softoff => c.resumeProof n
      | _ => c
  else match st with
    | .precheck => c.enterOff n
    | .softoff => if soft then c else c.immediateOff n
    | .proof | .hold | .slew => if !was then c else if soft then c.softOff n else c.immediateOff n
    | _ => c

/-- The firing slice of a port's rail, a lent port's order and every cause of R252 have been looked at again for every
port; a soft turn-off whose last on-time was cut ends. -/
def Core.settle (c : Core) : Core :=
  let c := (List.range 24).foldl (fun c k => c.settlePort k) c
  (List.range 8).foldl (fun (c : Core) n =>
    let c := c.softArrive n
    if (c.rail n).rstate.fires || (c.rail n).irail = 0 then c else c.currentGone n) c

end Sys2Proof.Machine
end

