-- ==== Sys2Proof/Machine/Swap.lean ====
section
/-! DEFINITION. Engines and their spares: which engine serves a rail, the shadow's verdicts and the engine swap
(R17, R96, R424, R429 to R432). -/
namespace Sys2Proof.Machine

/-- SPAREOUT naming a rail, of the kind of unit that has no spare (R424). -/
def Core.spareOut (c : Core) (kind n : Nat) : Core := (c.raise pgRPR 7).send 0x52 kind (mkAddr 1 n)

/-- The shadow under way ends with a verdict: 1 pass, 2 mismatch, 3 none (R430). -/
def Core.endShadow (c : Core) (verdict : Nat) : Core :=
  let j := c.fld pgRPR RPR_SHADOW_ENGINE
  let n := c.fld pgRPR RPR_SHADOW_RAIL
  let c := ((c.setFld pgRPR RPR_SHADOW_ENGINE 0xF).setFld pgRPR RPR_SHADOW_RAIL 0xF).setFld pgRPR RPR_SHADOW_VERDICT verdict
  (((c.setLevel (pgE j) 1 false).endAct actSHADOW n).queueCompares n).syncEngines

/-- What a spare that takes a rail sets: ENGSWAP, SWAPIN, SWAPOUT and SWAP (R96, R444). -/
def Core.swapMarks (c : Core) (n o j : Nat) : Core :=
  let c := ((c.raise (pgV n) 6).railEvent n 8).raise (pgE j) 3
  (if o = 15 then c else c.raise (pgE o) 4).raise pgRPR 0

/-- A spare takes rail `n` (R96, R431): ENGSWAP, SWAPIN and SWAPOUT; the replaced engine goes to retest or is retired, and
the map is written. -/
def Core.takeRail (c : Core) (n j : Nat) : Core :=
  let o := c.railEng n
  let st := if o = 15 then 0 else c.engSt o
  let c := c.modMap (fun m => { m with eng := vmod m.eng n (fun _ => j) })
  let c := if o = 15 then c else c.modMap (fun m => { m with engSt := vmod m.engSt o (fun x => if x = 0 then 3 else 2) })
  let c := { c with rpr := { c.rpr with swapDue := c.rpr.swapDue.filter (fun m => m ≠ n) } }
  let c := (c.swapMarks n o j).syncEngines
  let c := if o ≠ 15 && st = 0 then c.requestAct ⟨actRETEST, o, 0⟩ else c
  c.queueMap

/-- A shadow mismatch: SHADOWMIS naming the live engine and the rail, its count, and a takeover at the rail's next firing
boundary (R431). In full freeze there is none (R432). -/
def Core.shadowMismatch (c : Core) (n : Nat) : Core :=
  let j := c.fld pgRPR RPR_SHADOW_ENGINE
  if c.rpr.depth = 2 || c.fld pgRPR RPR_SHADOW_RAIL ≠ n || j = 0xF || c.rpr.takeover.isSome then c
  else
    let o := c.railEng n
    let c := (c.incSat pgRPR RPR_SHCNT_MISMATCHES 1).raise pgRPR 1
    let c := c.send 0x51 0 (mkAddr 3 (o + 16 * n))
    { c with rpr := { c.rpr with takeover := some (n, j) } }

/-- A mismatch at the same instant as the rail's safe state: the safe state came first, and the spare takes the rail at once
(R431, R432). -/
def Core.lateMismatch (c : Core) (n : Nat) : Core :=
  match c.rpr.lapsed with
  | none => c
  | some (m, j, t) =>
    if m ≠ n || t ≠ c.absTime || c.rpr.depth = 2 || !c.idleSpare j then c
    else
      let c := ((c.incSat pgRPR RPR_SHCNT_MISMATCHES 1).raise pgRPR 1).setFld pgRPR RPR_SHADOW_VERDICT 2
      let c := c.send 0x51 0 (mkAddr 3 (c.railEng n + 16 * n))
      ({ c with rpr := { c.rpr with lapsed := none } }).takeRail n j

/-- The engine of rail `n` that a tap group without a spare has retired is replaced at the firing boundary, or leaves the rail
without one (R96, R424). -/
def Core.swapRetired (c : Core) (n : Nat) : Core :=
  if !c.rpr.swapDue.contains n then c
  else
    match c.nextSpare with
    | some j => c.takeRail n j
    | none =>
      let c := { c with rpr := { c.rpr with swapDue := c.rpr.swapDue.filter (fun m => m ≠ n) } }
      (((c.modMap (fun m => { m with eng := vmod m.eng n (fun _ => 15) })).spareOut 0 n).syncEngines).queueMap

/-- The takeover that waits for rail `n` takes place (R96, R424, R431). -/
def Core.doTakeover (c : Core) (n : Nat) : Core :=
  match c.rpr.takeover with
  | some (m, j) =>
    if m = n then
      ({ (c.endShadow 2) with rpr := { (c.endShadow 2).rpr with takeover := none } }).takeRail n j
    else c.swapRetired n
  | none => c.swapRetired n

end Sys2Proof.Machine
end

