-- ==== Sys2Proof/Machine/Loop.lean ====
section
/-! DEFINITION. The rail loop at one window sample: centre and error term, the model of every phase, ripple, integrator and
decision quantity, the reference's movement and what it ends, knead rotation and the shed's conditions
(R65 to R75, R84 to R91, R121, R124, R128, R129). -/
namespace Sys2Proof.Machine

/-- The correction and the average of a phase's model at its firing, or the model of a phase that joins, set to `i` (R72). The
extremes averaged are those of before the correction (DESIGN CHOICE, log 84). `l` and `dcr` are the values that the model takes
up at this firing (R122). -/
def Slot.atFiring (x : Slot) (shift l dcr : Nat) (i : Rat) : Slot :=
  let x := { x with l := l, dcr := dcr, fresh := false }
  if x.join then { x with ihat := i, ibar := i, inSum := true, join := false, imax := i, imin := i, corr := none }
  else
    let avg := (x.imax + x.imin) / 2
    let j : Rat := match x.corr with
      | some (s, a) => x.ihat + ((s : Rat) / 64 - a) / 2 ^ shift
      | none => x.ihat
    { x with ihat := j, ibar := avg, imax := j, imin := j, corr := none }

/-- The modelled on-time of a remote phase at a sample taken at device time `now`: it is high from the predicted edge to edge
+ TON (R203, R204). -/
def Slot.remoteStep (x : Slot) (now shift l dcr : Nat) : Slot :=
  match x.fire with
  | none => x
  | some (edge, ton) =>
    let x := if x.pwm ≠ .high && edge ≤ 250 * now then { x.atFiring shift l dcr x.ihat with pwm := .high } else x
    if edge + 4 * ton ≤ 250 * now then { x with pwm := .low, fire := none, fallAt := edge + 4 * ton } else x

/-- The modelled on-times of a rail's remote phases (R203, R204); in full freeze a phase goes to mid as its on-time ends
(R440). -/
def Core.remoteSteps (c : Core) (n : Nat) : Core :=
  let shift := c.fld (pgV n) V_MODEL_CSHIFT
  let settle (x : Slot) : Slot :=
    if c.rpr.depth = 2 && x.pwm = .low && x.fire.isNone then { x.dropped with pwm := .mid } else x
  c.modRail n (fun r => { r with order := r.order.map (fun x =>
    if x.dev = 0 then x else settle (x.remoteStep c.time.toNat shift (c.slotL n x) (c.slotR n x))) })

/-- The model of one phase advanced by a sample at device time `now`: `vin` and `vo` in V (R71). A remote phase keeps its
values at the latest samples for the correction of its summaries (R203). -/
def Slot.advance (x : Slot) (p : Pwm) (vin vo : Rat) (now : Nat) : Slot :=
  if !x.inSum then x
  else
    let drop : Rat := vo + x.dcr * x.ihat / 1000000
    let i : Rat := match p with
      | .high => x.ihat + (vin - drop) * 40 / x.l
      | .low => x.ihat - drop * 40 / x.l
      | .mid => x.ihat
    { x with hist := if x.dev = 0 then [] else ((now, i) :: x.hist).take 192, ihat := i, imax := if x.imax < i then i else x.imax, imin := if i < x.imin then i else x.imin }

/-- The models of a rail's phases advanced by a sample (R71). -/
def Core.advanceModels (c : Core) (n : Nat) (vo : Int) : Core :=
  let vin : Rat := c.railVin n / 2000
  let v : Rat := vo / 8192000
  c.modRail n (fun r => { r with order := r.order.map (fun x => x.advance (c.slotPwm x) vin v c.time.toNat) })

/-- Sum of the differences of current and average over the phases not in mid (R73). -/
def Core.sumRipple (c : Core) (n : Nat) : Rat :=
  (c.rail n).order.foldl (fun a x => if c.inSums x then a + (x.ihat - x.ibar) else a) 0

/-- Gain scale of R210 in 1/128: 128 on a local rail. -/
def Core.gainScale (c : Core) (n : Nat) : Nat := if c.cascaded n then c.fld pgLNK (LNK_CRST_GSC n) else 128

/-- The gain of the error term, in 1/2,048: KE code, 0 used as 1, times the gain scale (R74, R210). -/
def Core.gainE (c : Core) (n : Nat) : Nat := zeroAsOne (c.fld (pgV n) V_GAIN_KE) * c.gainScale n

/-- The integrator after one sample (R75, R88). -/
def Core.integrate (c : Core) (n : Nat) (y e : Int) : Int :=
  let lim : Int := c.fld (pgV n) V_INTG_YMAX * 64 * 2 ^ 35
  match (c.rail n).rstate with
  | .hold | .slew | .softoff =>
    if c.flag (pgV n) V_CFG_INTEN then clampInt (-lim) lim (y + c.gainE n * e * 2 ^ (24 - c.fld (pgV n) V_INTG_ISHIFT)) else y
  | _ => 0

/-- Where the reference is heading, in the unit of Vref (R84, R91). -/
def Core.refGoal (c : Core) (n : Nat) : Nat :=
  if (c.rail n).rstate = .softoff then c.offVref n else 102400 * c.goal n

/-- The step of the reference at one sample (R85). -/
def Core.refStep (c : Core) (n : Nat) : Nat :=
  let r := c.rail n
  64 * (if r.rstate = .proof || r.rstate = .softoff then c.fld (pgV n) V_PRAMP_PRATE
    else if r.rate = 0 then c.fld (pgV n) V_SLEW_RATE else r.rate)

/-- A reference moved by at most a step towards a goal (R85). -/
def moveRef (v goal step : Nat) : Nat :=
  if v < goal then min goal (v + step) else max goal (v - step)

/-- The reference after one sample; it stands in HOLD, and a soft turn-off never moves it up (R84, R85, R91). -/
def Core.nextRef (c : Core) (n : Nat) : Nat :=
  let r := c.rail n
  match r.rstate with
  | .proof | .slew => moveRef r.vref (c.refGoal n) (c.refStep n)
  | .softoff => if r.arrived || r.vref ≤ c.refGoal n then r.vref else moveRef r.vref (c.refGoal n) (c.refStep n)
  | _ => r.vref

/-- The reference has reached its goal: RAMPDONE or SLEWDONE with the item that waits, or the arrival of a soft turn-off
(R86, R90 step 5, R91, R159). -/
def Core.refReached (c : Core) (n : Nat) : Core :=
  let r := c.rail n
  match r.rstate with
  | .proof =>
    if r.vref = c.refGoal n then
      (((c.modRail n (fun r => { r with rstate := .hold, preStage := 3 })).raise (pgV n) 1).railEvent n 2).endVolts n stDONE 0
    else c
  | .slew =>
    if r.vref = c.refGoal n then
      (((c.modRail n (fun r => { r with rstate := .hold })).raise (pgV n) 2).railEvent n 3).endVolts n stDONE 0
    else c
  | .softoff => c.modRail n (fun r => { r with arrived := r.arrived || r.vref ≤ c.offVref n })
  | _ => c

/-- The rise of the modelled current over the last 40 samples in A/µs; none before 40 samples have passed (R129). -/
def Rail.slope (r : Rail) : Option Rat := (r.irailHist[39]?).map (fun old => (r.irail - old) * 10)

/-- The two conditions of R129: the error, and the rise of the modelled current. -/
def Core.abortErr (c : Core) (n : Nat) : Bool := (c.fld (pgV n) V_SHEDCFG_EABT * 64 : Int) ≤ (c.rail n).e
def Core.abortSlope (c : Core) (n : Nat) : Bool :=
  match (c.rail n).slope with | some x => (4 * c.fld (pgV n) V_SHEDCFG_SLOPEABT : Rat) ≤ x | none => false

/-- A condition of R129 holds. -/
def Core.abortCond (c : Core) (n : Nat) : Bool := c.abortErr n || c.abortSlope n

/-- The slot indices that count as member slots, in order (R124). -/
def Rail.memberSlots (r : Rail) : List Nat :=
  (List.range r.order.length).filter (fun i => match r.order[i]? with | some x => x.turn | none => false)

/-- The minimum off-time of a slot's phase has passed since its falling edge; for a remote phase since the predicted one, and
2 ns longer (R118, R203). -/
def Core.offPassed (c : Core) (n : Nat) (x : Slot) : Bool :=
  let min := c.fld (pgV n) V_PHF_TOFFMIN
  if x.dev = 0 then
    let p := c.port x.port
    x.fresh || (p.pwm ≠ .high && 2 * min ≤ 5 * (c.time.toNat - p.fallAt))
  else x.fire.isNone && (x.fresh || (x.pwm ≠ .high && 100 * (min + 2) ≤ 250 * c.time.toNat - x.fallAt))

/-- A slot's phase is eligible to fire (R118). -/
def Core.eligible (c : Core) (n : Nat) (x : Slot) : Bool := c.offPassed n x && !c.isDue n x

/-- Knead rotation moves the pointer (R124, R125). A jump over a draining slot is none of the passings of R128 step 3a (DESIGN
CHOICE, log 112). -/
def Core.knead (c : Core) (n : Nat) : Core :=
  let r := c.rail n
  let mem := r.memberSlots
  let k := min r.kstart (mem.length - 1)
  let turns := mem.drop k ++ mem.take k
  let ok (i : Nat) : Bool := match r.order[i]? with | some x => c.eligible n x | none => false
  let dest := (turns.find? ok).getD ((mem[k]?).getD r.ptr)
  let stride := zeroAsOne (c.fld (pgV n) V_KNEAD_KSTRIDE)
  let c := c.modRail n (fun r => { r with ptr := dest, kstart := (r.kstart + stride) % max 1 r.nact })
  (c.raise (pgV n) 20).railEvent n 11

/-! ## The dither measurement (R120, R121) -/

/-- A dither pair that is over at device time `now` is counted with the difference of its halves and the next begins; a pair
that holds no value of Īk in one of its quarters is repeated (R120). -/
def Ident.turn (p : Ident) (now : Nat) : Ident :=
  if p.nrep ≤ p.pairs || now < p.start + 2 * p.half then p
  else
    let q := { p with start := now - (now - p.start) % (2 * p.half), plus := (0, 0), minus := (0, 0) }
    if p.plus.2 = 0 || p.minus.2 = 0 then q
    else { q with pairs := p.pairs + 1, dsum := p.dsum + p.plus.1 / p.plus.2 - p.minus.1 / p.minus.2 }

/-- The value of Īk at one sample is taken in the last quarter of a half (R120). -/
def Ident.take (p : Ident) (now : Nat) (ibar : Rat) : Ident :=
  let p := p.turn now
  let e := now - p.start
  if !p.busy || p.nrep ≤ p.pairs || 4 * (e % p.half) < 3 * p.half then p
  else if e < p.half then { p with plus := (p.plus.1 + ibar, p.plus.2 + 1) }
  else { p with minus := (p.minus.1 + ibar, p.minus.2 + 1) }

/-- The identification of a slot's phase changed. -/
def Core.modIdent (c : Core) (n : Nat) (x : Slot) (f : Ident → Ident) : Core :=
  if x.dev = 0 then c.modPort x.port (fun p => { p with ident := f p.ident })
  else c.modRemote n x.dev x.port (fun y => { y with ident := f y.ident })

/-- The identifications of a rail's phases take their values of Īk at a sample (R120). -/
def Core.sampleIdents (c : Core) (n : Nat) : Core :=
  ((c.rail n).order.filter (fun x => (c.identOf n x).busy)).foldl (fun (c : Core) x =>
    c.modIdent n x (fun p => p.take c.time.toNat x.ibar)) c

/-- A dither pair that a disturbance has met is discarded and begins again; NREP discards end the identification with
CAUSE 3 (R121). -/
def Core.discardPair (c : Core) (n : Nat) (x : Slot) : Core :=
  let p := c.identOf n x
  if !p.busy || p.nrep ≤ p.pairs then c
  else if p.nrep ≤ p.discards + 1 then c.endSlotIdent n x 3
  else c.modIdent n x (fun p => { p with discards := p.discards + 1, start := c.time.toNat, plus := (0, 0), minus := (0, 0) })

/-- The shed, add, knead and identification conditions of one sample, in the order of R125 and R129: ports that go to mid,
the abort, then the knead jump. -/
def Core.sampleConds (c : Core) (n : Nat) : Core :=
  let c := c.releaseDue n true
  let ab := c.abortCond n
  let r := c.rail n
  let c :=
    if r.tstate = 1 || r.tstate = 2 then (if ab then c.abortShed n else c.shedEnd n)
    else if r.tstate = 3 && ab then c.modRail n (fun r => { r with addFast := true })
    else c
  let e := (c.rail n).e
  let kdet : Int := c.fld (pgV n) V_KNEAD_KDET
  let hit := 64 * kdet ≤ e
  let c :=
    if (c.rail n).kneadArmed && hit then
      let c := c.modRail n (fun r => { r with kneadArmed := false })
      if c.flag (pgV n) V_CTRL_KNEADEN && 16 < (c.rail n).nact then c.knead n else c
    else if e < 32 * kdet then c.modRail n (fun r => { r with kneadArmed := true })
    else c
  let err := c.abortErr n
  let slope := c.abortSlope n
  let r := c.rail n
  let c :=
    if (hit && !r.kneadHit) || (err && !r.hitErr) || (slope && !r.hitSlope) then
      r.order.foldl (fun (c : Core) x => c.discardPair n x) c
    else c
  c.modRail n (fun r => { r with kneadHit := hit, hitErr := err, hitSlope := slope })

/-- The monitors of one sample: WINMON, which keeps its values from the entry to SAFE to the next proof ramp, WINSAT and
the window history (R65, R93, R98, R442). -/
def Core.sampleMonitors (c : Core) (n : Nat) (d : Int) (sat : Bool) : Core :=
  let pg := pgV n
  let c :=
    if (c.rail n).monHeld then c
    else
      let c := c.setSfld pg V_WINMON_LAST d
      let c := c.setSfld pg V_WINMON_MIN (min d (c.sfld pg V_WINMON_MIN))
      c.setSfld pg V_WINMON_MAX (max d (c.sfld pg V_WINMON_MAX))
  let c := c.setLevel pg 3 sat
  c.modRail n (fun r => { r with winHist := ((d, sat) :: r.winHist).take 64 })

/-- The bit that a step of the pre-bias search tries, after `k` samples (R90 step 3). -/
def pbTrial (code k : Nat) : Nat := if k < 96 then code + 2 ^ (11 - k / 8) else code

/-- One sample of the pre-bias search: twelve steps of eight samples, from the bit of 1.024 V to that of 0.5 mV. The centre
stands at the voltage tried, and the eighth sample of a step keeps the bit unless it lies below the centre (DESIGN CHOICE,
log 88). -/
def Rail.searchSample (r : Rail) (d : Int) : Rail :=
  if 96 ≤ r.pbCount then r
  else
    { r with pbCode := if r.pbCount % 8 = 7 && 0 ≤ d then pbTrial r.pbCode r.pbCount else r.pbCode, pbCount := r.pbCount + 1 }

/-- The centre of a rail that does not fire: that of the pre-bias search, or the one the telemetry unit steers (R90,
R282). -/
def Core.idleCentre (c : Core) (n : Nat) : Int :=
  let r := c.rail n
  if r.rstate = .precheck && r.preStage = 2 then 4096 * (pbTrial r.pbCode r.pbCount : Nat) else vget c.tlm.steer n 0

/-- The telemetry sums of one sample: reconstructed voltage, rail current, and the current of the local phases that are
high (R281 to R283). -/
def Core.sampleTelemetry (c : Core) (n : Nat) (vo : Int) (sat : Bool) : Core :=
  let r := c.rail n
  let search := r.rstate = .precheck && r.preStage = 2
  let low := r.d < 0
  let iin := r.order.foldl (fun a x => if x.dev = 0 && x.inSum && (c.port x.port).pwm = .high then a + x.ihat else a) (0 : Rat)
  { c with tlm := { c.tlm with acc := vmod c.tlm.acc n (fun a =>
      { n := a.n + 1, v := a.v + vo, i := a.i + r.irail, iin := a.iin + iin, sat := a.sat || sat, search := a.search || search, low := if sat then low else a.low }) } }

/-- The compare of one sample while an engine shadows the rail (R430, R431). -/
def Core.sampleShadow (c : Core) (n : Nat) (mism : Bool) : Core :=
  if c.fld pgRPR RPR_SHADOW_ENGINE ≠ 0xF && c.fld pgRPR RPR_SHADOW_RAIL = n && c.rpr.takeover.isNone then
    let c := c.setFld pgRPR RPR_SHADOW_SAMPLES (min 65536 (c.fld pgRPR RPR_SHADOW_SAMPLES + 1))
    if mism then c.shadowMismatch n else c
  else c

/-- The engine's part of a sample on a rail that fires: model, sums, reference, centre, integrator and decision quantity
(R68 to R75, R84). -/
def Core.sampleEngine (c : Core) (n : Nat) (e vo : Int) : Core :=
  let c := (c.remoteSteps n).advanceModels n vo
  let i := c.sumCurrent n
  let raw := c.droopRaw n i
  let lim := c.droopMax n
  let c := c.setLevel (pgV n) 5 (lim < raw)
  let w := roundRat (-(c.fld (pgV n) V_GAIN_KR : Rat) * c.sumRipple n * 32 / 125)
  let r := c.rail n
  let y := c.integrate n r.yAcc e
  let ylim : Int := c.fld (pgV n) V_INTG_YMAX * 64 * 2 ^ 35
  let c := c.setLevel (pgV n) 4 (y = ylim || y = -ylim)
  let v := c.nextRef n
  let droop := min raw lim
  let c := c.modRail n (fun r => { r with
    sampleAt := c.time32
    irail := i
    irailHist := (r.irail :: r.irailHist).take 40
    e := e, w := w, yAcc := y, ySnap := y
    u := c.gainE n * e + 2048 * w + y / 2 ^ 24
    vref := v
    droop := droop
    centre2 := r.centre1
    centre1 := (v / 25 : Nat) - 32 * droop })
  c.setFld pgTRP (TRP_RST_ROCACT n) (b2n ((c.fld pgTRP (TRP_ROC_ROCLIM n) : Rat) < i))

/-- A window sample of rail `n`: code `d`, the centre that the slice held being the last (`lag2` false) or the last but one
computed, and `mism` the verdict of a shadow's compare (R65, R66). A rail that does not fire is centred by the pre-bias
search or by the telemetry unit (R90, R282); a mismatch at the instant of its safe state counts there (R432). -/
def Core.windowSample (c : Core) (n : Nat) (d : Int) (lag2 mism : Bool) : Core :=
  let d := clampInt (-256) 255 d
  let sat := d = -256 || d = 255
  let r := c.rail n
  let vc := if lag2 then r.centre2 else r.centre1
  let vdac := 1024 * clampInt 0 16383 (roundDiv vc 1024)
  let e := -64 * d + roundDiv (vc - vdac) 32
  let vo := vc + 2048 * d
  let c := c.modRail n (fun r => { r with d := d, sat := sat, vcApplied := vc })
  if r.rstate.fires then
    let c := (c.sampleMonitors n d sat).sampleEngine n e vo
    let c := (((c.sampleTelemetry n vo sat).sampleIdents n).refReached n).sampleConds n
    ((c.softArrive n).sampleShadow n mism).recomputeTon n
  else
    let c := c.sampleMonitors n d sat
    let c := if r.rstate = .precheck && r.preStage = 2 then c.modRail n (fun r => r.searchSample d) else c
    let v := c.idleCentre n
    let c := (c.modRail n (fun r => { r with centre2 := r.centre1, centre1 := v })).sampleTelemetry n vo sat
    if mism then c.lateMismatch n else c

end Sys2Proof.Machine
end

