-- ==== Sys2Proof/Machine/Fire.lean ====
section
/-! DEFINITION. Firings and the events of a rail, a port and an engine that are no window sample: the firing rule, the
on-time's end, the proof ramp's checks, power good, calibration, stage faults, assignment and order, identification,
sharing and the automatic target (R67, R72, R76 to R82, R90, R94, R99, R102 to R132). -/
namespace Sys2Proof.Machine

/-- What every command of a running core ends with: ports take the state of R252, a soft turn-off whose last on-time has
ended is over, flash writes are held once a cause stands (R381), the messages sent reach the collector, and the frames that
may leave do (R193). -/
def Core.finish (c : Core) : Core :=
  let c := c.settle
  let c := if c.holdCause && !c.stat pgNVM 8 then c.setLevel pgNVM 8 true else c
  c.flushOutbox.pumpOut

/-! ## The firing rule (R76, R118, R210) -/

/-- TSEP in samples: 0 used as 1, and at least 3 on a cascaded rail (R76, R210). -/
def Core.tsep (c : Core) (n : Nat) : Nat :=
  let t := zeroAsOne (c.fld (pgV n) V_FIRE_TSEP)
  if c.cascaded n then max 3 t else t

/-- Conditions 1, 3 and 4 of R76, `since` being the samples since the rail's previous firing. A rail that has reached the
end of its soft turn-off, a rail without an engine and a rail in full freeze fire no more (R91, R424, R440). -/
def Core.mayFire (c : Core) (n since : Nat) : Bool :=
  let r := c.rail n
  r.rstate.fires && !r.arrived && c.rpr.depth ≠ 2 && c.railEng n ≠ 15 &&
  c.sfld (pgV n) V_FIRE_THR * 131072 ≤ r.u && c.tsep n ≤ since

/-- Condition 2 of R76 for the slot at the pointer, `off` being the time in ns since a local port's last falling edge; a
remote port's off-time is counted on predicted edges (R118, R203). -/
def Core.offDone (c : Core) (n : Nat) (x : Slot) (off : Nat) : Bool :=
  if x.dev = 0 then c.slotPwm x ≠ .high && !c.isDue n x && (x.fresh || c.fld (pgV n) V_PHF_TOFFMIN ≤ off)
  else c.eligible n x

/-- One more firing of a slot's port in a shed or add (R128 step 2, R130 step 2). A leaving port's next weight stands from
the firing before it, and its first from the begin of the shed; a joining port's next weight stands from the firing before it,
and its first from the begin of the add (DESIGN CHOICE, log 89). -/
def Slot.counted (x : Slot) (fast : Bool) : Slot :=
  match x.trans with
  | .leaving => if x.fired < 4 then { x with fired := x.fired + 1, sk4 := 2 - x.fired } else x
  | .joining => { x with fired := min 4 (x.fired + 1), sk4 := if fast then 4 else min 4 (x.fired + 2) }
  | .none => x

/-- The add of a rail is done (R130 step 3). -/
def Core.addDone (c : Core) (n : Nat) : Core :=
  let c := c.modRail n (fun r => { r with
    order := r.order.map (fun x => if x.trans = .joining then { x with trans := .none, sk4 := 4, fired := 0 } else x)
    addFast := false })
  (((c.syncTrans n).raise (pgV n) 19).railEvent n 7).afterTrans n

/-- The last joining port has fired four times: the add is done (R130 step 3). -/
def Core.addEnd (c : Core) (n : Nat) : Core :=
  let r := c.rail n
  if r.tstate ≠ 3 || r.order.any (fun x => x.trans = .joining && x.fired < 4) then c else c.addDone n

/-- An engine has reported LATOVR: its rail goes first to the next shadow, and a shadow that runs ends with a mismatch (R429,
R430). -/
def Core.latReport (c : Core) (j n : Nat) : Core := (c.modEng j (fun e => { e with latovr := true })).shadowMismatch n

/-- The engine stamps the latency of a firing; above 12.0 ns it reports (R81). A latency beyond 511 steps stands as 511 in
LAST and MAX (DESIGN CHOICE, log 85). A report while a shadow runs is a mismatch (R429). -/
def Core.stampLatency (c : Core) (n lat : Nat) : Core :=
  let j := c.railEng n
  let pg := pgE j
  let c := (c.setFld pg E_LAT_LAST (min 511 lat)).setFld pg E_LAT_MAX (max (c.fld pg E_LAT_MAX) (min 511 lat))
  if 300 < lat then ((c.raise pg 2).send 0x06 0 (mkAddr 3 (j + 16 * n))).latReport j n else c

/-- The slope of the least-squares line through the samples of a low segment, in 1/64 A per 2.5 ns; none through fewer than
two (R120). -/
def lsqSlope (l : List (Nat × Int)) : Option Rat :=
  let n : Int := l.length
  let sum (f : Int → Int → Int) : Int := l.foldl (fun a p => a + f p.1 p.2) 0
  let den : Int := n * sum (fun t _ => t * t) - sum (fun t _ => t) ^ 2
  if den = 0 then none else some ((n * sum (fun t i => t * i) - sum (fun t _ => t) * sum (fun _ i => i) : Int) / (den : Int) : Rat)

/-- A firing of the port ends a period of its fit, and with it a low segment; the first firing begins the fit (R120). -/
def Fit.atFiring (f : Fit) : Fit :=
  if !f.on || 256 ≤ f.periods then f
  else if !f.begun then { f with begun := true, seg := [] }
  else match lsqSlope f.seg with
    | none => { f with seg := [], periods := f.periods + 1 }
    | some s => { f with seg := [], periods := f.periods + 1, sum := f.sum + s, segs := f.segs + 1 }

/-- A port goes high: the blanking of its current limit begins, its firings are counted, and a fit counts its periods
(R77, R120, R134, R233). -/
def Core.portHigh (c : Core) (k leb : Nat) : Core :=
  let c := (c.setPwm k .high).modGuard k (fun g => { g with blankLeft := leb })
  (c.incWrap (pgP k) P_FIRES_COUNT 1).modPort k (fun p => { p with fit := p.fit.atFiring })

/-- The port of a local slot is driven high: its model is set or corrected, and its on-time and the clamps of R117 are shown
(R72, R77, R113, R117, R233). -/
def Core.driveHigh (c : Core) (n : Nat) (x : Slot) : Core :=
  let k := x.port
  let r := c.rail n
  let i := c.joinAmps k
  let shift := c.fld (pgV n) V_MODEL_CSHIFT
  let l := c.slotL n x
  let dcr := c.slotR n x
  let c := c.modSlot n 0 k (fun y => y.atFiring shift l dcr i)
  let c := (c.portHigh k (c.fld pgTRP (TRP_RAIL_LEB n))).setFld (pgP k) P_TON_LAST r.tonNext
  (c.setLevel (pgV n) 21 r.tonRaised).setLevel (pgV n) 22 r.tonLowered

/-- What every firing of a rail does beside the edge: the transition's count, the pointer, releases that its passing makes
due, and the next on-time (R109, R113, R128, R130). -/
def Core.afterFiring (c : Core) (n : Nat) (x : Slot) : Core :=
  let c := c.modRail n (fun r => { r with
    order := r.order.map (fun y => if y.dev = x.dev && y.port = x.port then { y.counted r.addFast with fresh := false } else y) })
  let c := (c.advancePtr n).syncTrans n
  let c := ((c.releaseDue n false).shedEnd n).addEnd n
  (c.syncMembers n).recomputeTon n

/-- The firing of rail `n`: `since` samples after its previous firing, `off` ns after its next port's falling edge, with a
latency of `lat` steps of 40 ps (R76). A crowbar, a trip or the port's positive limit suppresses it (R230, R233, R248); a
remote port's firing waits for an owned slot (R203). -/
def Core.railFire (c : Core) (n since off lat : Nat) : Core :=
  match ((c.rail n).order)[(c.rail n).ptr]? with
  | none => c
  | some x =>
    if !(c.mayFire n since && x.turn && c.offDone n x off) then c
    else
      let c := c.incWrap (pgE (c.railEng n)) E_FIRES_COUNT 1
      let stopped := c.crowHeld n || c.tripped n
      let c :=
        if x.dev ≠ 0 then (if stopped then c else c.modRail n (fun r => { r with due := r.due ++ [⟨x.dev, x.port, c.time.toNat⟩] }))
        else if stopped then c
        else if c.limitHi x.port then c.limitedFiring x.port
        else (c.driveHigh n x).stampLatency n lat
      c.afterFiring n x

/-- The on-time of a port ends (R77). -/
def Core.onTimeEnd (c : Core) (k : Nat) : Core := if (c.port k).pwm = .high then c.setPwm k .low else c

/-! ## The proof ramp (R90) -/

/-- RAMPFAIL with its kind (R90, R98). -/
def Core.rampFail (c : Core) (n kind : Nat) : Core :=
  ((c.raise (pgV n) 8).send 0x04 kind (mkAddr 1 n)).railEvent n 4

/-- The first check of step 1 that fails: 1 input bus low, 2 stage fault, 3 sense open, 4 slice not calibrated, 5 cascaded
rail not ready; 0 when all pass (R90, R201, R333). -/
def Core.precheckFails (c : Core) (n : Nat) : Nat :=
  let mine := ((c.rail n).order.filter (fun x => x.dev = 0)).map (·.port)
  if c.cmpLo (32 + c.vinsel n) then 1
  else if mine.any (fun k => (c.prot.stg[k / 8]?).getD false) then 2
  else if c.stat (pgV n) 9 then 3
  else if mine.any (fun k => !c.stat (pgP k) 1) then 4
  else if c.cascaded n && !(c.flag pgLNK (LNK_CRST_READY n) && c.fld pgLNK LNK_ID_RSTATE = 4) then 5
  else 0

/-- The checks of step 1 end (R90 steps 2 and 2a). -/
def Core.precheckDone (c : Core) (n : Nat) : Core :=
  let r := c.rail n
  if r.rstate ≠ .precheck || r.preStage ≠ 1 then c
  else
    let k := c.precheckFails n
    if k = 0 then
      c.modRail n (fun r => { r with preStage := 2, pbCode := 0, pbCount := 0, centre2 := r.centre1, centre1 := 4096 * (pbTrial 0 0 : Nat) })
    else (c.enterOff n).rampFail n k

/-- The pre-bias search has taken its last sample, and the rail enters PROOF from the voltage found (R90 step 4). -/
def Core.prebiasDone (c : Core) (n : Nat) : Core :=
  let r := c.rail n
  if r.rstate ≠ .precheck || r.preStage ≠ 2 || r.pbCount < 96 then c
  else
    let v := if c.flag (pgV n) V_CFG_PBEN && r.pbCode < c.goal n then r.pbCode * 102400 else 0
    let c := c.modRail n (fun r => { r with rstate := .proof, vref := v, yAcc := 0, preStage := 0, arrived := false })
    (((c.setMembers n).recomputeTon n).vinOnProof n)

/-! ## Power good (R94) -/

/-- The latest error lies in the power-good window; a saturated sample lies outside (R94). -/
def Core.inPgWin (c : Core) (n : Nat) : Bool :=
  let r := c.rail n
  !r.sat && r.e.natAbs ≤ 128 * c.fld (pgV n) V_PG_PGWIN

/-- The error has stayed in the window for `us` µs since the later instant of R94. -/
def Core.pgRise (c : Core) (n us : Nat) : Core :=
  let st := (c.rail n).rstate
  if (st = .hold || st = .slew) && !c.stat (pgV n) 0 && c.inPgWin n && c.fld (pgV n) V_PG_PGDLY ≤ us then
    ((c.setLevel (pgV n) 0 true).railEvent n 0).modRail n (fun r => { r with preStage := 0 })
  else c

/-- The error has stayed outside the window for `ns` ns. -/
def Core.pgLost (c : Core) (n ns : Nat) : Core := if 1000 ≤ ns && !c.inPgWin n then c.pgFall n else c

/-- PGTMO has passed since RAMPDONE without power good (R90 step 6a). -/
def Core.pgTimeout (c : Core) (n us : Nat) : Core :=
  if (c.rail n).preStage = 3 && c.fld (pgV n) V_PG_PGTMO ≤ us then
    (c.modRail n (fun r => { r with preStage := 0 })).rampFail n 6
  else c

/-! ## Detectors (R15, R67, R105, R106) -/

/-- The sense-open detector trips (R67). -/
def Core.senseOpen (c : Core) (n : Nat) : Core :=
  if c.stat (pgV n) 9 then c
  else ((c.setLevel (pgV n) 9 true).setLive 0x05 (mkAddr 1 n) true).send 0x05 0 (mkAddr 1 n)

/-- The sense-open detector releases. -/
def Core.senseClosed (c : Core) (n : Nat) : Core :=
  (c.setLevel (pgV n) 9 false).setLive 0x05 (mkAddr 1 n) false

/-- Owners of the ports of group `g` that are lent (R207). -/
def Core.lentOwners (c : Core) (g : Nat) : List Nat :=
  (((List.range 8).map (fun j => 8 * g + j)).filter (fun k => c.flag pgLNK (LNK_LEND_EN k))).map
    (fun k => c.fld pgLNK (LNK_LEND_OWNER k)) |>.eraseDups

/-- The stage-fault detector of group `g` becomes tripped or released: STGFLT on the pages of the group, its line and
message while the group is in use, and the relay to the owners of lent ports (R105, R106, R207). -/
def Core.stageFault (c : Core) (g : Nat) (on : Bool) : Core :=
  if (c.prot.stg[g]?).getD false = on then c
  else
    let c := { c with prot := { c.prot with stg := c.prot.stg.set g on } }
    let c := (List.range 8).foldl (fun c j => c.setLevel (pgP (8 * g + j)) 7 on) c
    let c := c.syncStages
    (c.lentOwners g).foldl (fun c o => c.sendMsg o (.faultRelay g on)) c

/-! ## Engines (R20, R82, R99) -/

/-- An internal value truncated towards zero to 0.25 mV (R99); one beyond the 16 bits of its field stands there at the
nearer end (DESIGN CHOICE, log 86). -/
def snapValue (x : Int) (unit : Nat) : Int := clampInt (-32768) 32767 (x.tdiv unit)

/-- En_CTRL.SNAP: error, integrator, ripple, decision quantity and aperture time of the latest sample that the engine has
computed from (R99). An engine that serves and shadows no rail computes none of them, so all five are free (log 6). -/
def Core.engineSnap (c : Core) (j : Nat) : Core :=
  let pg := pgE j
  let n := if c.fld pgRPR RPR_SHADOW_ENGINE = j then c.fld pgRPR RPR_SHADOW_RAIL else c.engRail j
  let c :=
    if n < 8 then
      let r := c.rail n
      let c := (c.setSfld pg E_SNAPERR_E (snapValue r.e 64)).setSfld pg E_SNAPINT_Y (snapValue r.ySnap (64 * 2 ^ 35))
      let c := (c.setSfld pg E_SNAPRIP_W (snapValue r.w 64)).setSfld pg E_SNAPU_U (snapValue r.u (64 * 2048))
      c.setFld pg E_SNAPT_TIME r.sampleAt
    else (((((c.freeFld pg E_SNAPERR_E).freeFld pg E_SNAPINT_Y).freeFld pg E_SNAPRIP_W).freeFld pg E_SNAPU_U).freeFld pg E_SNAPT_TIME)
  c

/-- Vn_INTG.IRST: the integrator goes to 0 (R75). -/
def Core.integReset (c : Core) (n : Nat) : Core :=
  (c.modRail n (fun r => { r with yAcc := 0 })).setLevel (pgV n) 4 false

/-- The firing boundary of an engine's rail: the waiting compensation word comes into use, but not while a phase of the
rail is high (R82). -/
def Core.applyComp (c : Core) (j : Nat) : Core :=
  let n := c.engRail j
  if n = 15 || !(c.eng j).compNew || (c.rail n).order.any (fun x => c.slotPwm x = .high) then c
  else c.modEng j (fun e => { e with compNew := false, comp := e.compIn })

/-! ## Calibration and the phase ADC (R102 to R104, R227) -/

/-- Pk_CTRL.CALSTART (R103). -/
def Core.calStart (c : Core) (k : Nat) : Core :=
  if (c.port k).pwm = .mid then c.modPort k (fun p => { p with calBusy := true }) else c.raise (pgP k) 8

/-- Both sides of C8+k are held asserted (R227). -/
def Core.holdLimits (c : Core) (k : Nat) : Core :=
  { c with prot := { c.prot with lo := c.prot.lo ||| (1#56 <<< (8 + k)), hi := c.prot.hi ||| (1#56 <<< (8 + k)) } }

/-- A calibration ends with a mean in 1/16 of a code; `csref` says that CSREFg lay in its range (R103, R227). -/
def Core.calResult (c : Core) (k : Nat) (mean : Int) (csref : Bool) : Core :=
  let c := c.modPort k (fun p => { p with calBusy := false })
  let c := if csref then c.setSfld (pgP k) P_CSCAL_OFS mean else c
  if csref && mean.natAbs ≤ 256 then (c.setStat (pgP k) 1 true).raise (pgP k) 1
  else (((c.setStat (pgP k) 1 false).raise (pgP k) 2).send 0x11 0 (mkAddr 2 k)).holdLimits k

/-- The calibration under way on a port ends. -/
def Core.calDone (c : Core) (k : Nat) (mean : Int) (csref : Bool) : Core :=
  if (c.port k).calBusy then c.calResult k mean csref else c

/-- The current that a code stands for, in 1/64 A (R102). -/
def Core.phaseAmps (c : Core) (k : Nat) (code : Int) : Int :=
  clampInt (-8192) 8191
    (roundRat ((16 * code - c.sfld (pgP k) P_CSCAL_OFS : Int) * 5000 / (max 1 (c.fld (pgP k) P_CSCFG_CSGAIN) : Nat)))

/-- A sample of the phase ADC: ISAMP, the telemetry sum, and while the port is low the sample that the correction of R72
will take and, 40 ns after the falling edge, a sample of the fit (R72, R102, R120, R192, R281). A slice that is calibrating
delivers none (R103). -/
def Core.phaseSample (c : Core) (k : Nat) (code : Int) : Core :=
  if (c.port k).calBusy then c
  else
    let q := clampInt (-512) 511 code
    let i := c.phaseAmps k q
    let low := (c.port k).pwm = .low
    let now := c.time.toNat
    let c := c.modPort k (fun p => { p with
      code := q, lowI := if low then some i else p.lowI
      fit := if p.fit.on && p.fit.begun && p.fit.periods < 256 && low && p.fallAt + 16 ≤ now then { p.fit with seg := (now, i) :: p.fit.seg } else p.fit })
    let c := c.setSfld (pgP k) P_IMON_ISAMP i
    let c := if low then c.modSlot (c.portRail k) 0 k (fun x => { x with corr := some (i, x.ihat) }) else c
    { c with tlm := { c.tlm with pacc := vmod c.tlm.pacc k (fun a => (a.1 + i, a.2 + 1)) } }

/-! ## Assignment and order (R107 to R110, R202) -/

/-- A port leaves the active order of a rail: later slots close up, and the pointer stays on its slot, or moves to the
next that takes turns (R108, R109). -/
def Core.dropSlot (c : Core) (n k : Nat) : Core :=
  c.modRail n (fun r =>
    match r.order.findIdx? (fun x => x.dev = 0 && x.port = k) with
    | none => r
    | some i =>
      let order := r.order.eraseIdx i
      { r with order := order, ptr := nextTurn order (if i < r.ptr then r.ptr - 1 else r.ptr) })

/-- The rail is in OFF or SAFE, or there is none (R107). -/
def Core.restful (c : Core) (n : Nat) : Bool := 8 ≤ n || (c.rail n).rstate = .off || (c.rail n).rstate = .safe

/-- A write of Pk_ASSIGN (R107, R108): a locked field ignores it; outside the conditions it is refused with REJ. Codes 8
to 0xD are taken as 0xF. -/
def Core.assignPort (c : Core) (k rail shpri : Nat) : Core :=
  if c.locked (pgP k) P_ASSIGN_RAIL then c
  else
    let new := if rail % 16 < 8 || rail % 16 = 0xE then rail % 16 else 0xF
    let old := c.portRail k
    if (c.port k).pwm ≠ .mid || !c.restful old || !c.restful new then c.raise (pgP k) 8
    else
      let c := (c.setFld (pgP k) P_ASSIGN_RAIL new).setFld (pgP k) P_ASSIGN_SHPRI shpri
      if new = old then c
      else
        let c := { c with lnk := { c.lnk with lentMid := vmod c.lnk.lentMid k (fun _ => true),
                                              preloads := vmod c.lnk.preloads k (fun _ => none) } }
        let c := if old < 8 then ((c.dropSlot old k).syncShare old).retarget old false else c
        let c := if old < 8 then c.syncMembers old else c.syncPort k
        let c := if new < 8 then c.syncShare new else c
        c.syncStages

/-- The staged order of a rail as devices and ports: from LNK_ORDDAT on a cascaded rail, from Vn_ORD0 to Vn_ORD5 otherwise
(R110, R202). -/
def Core.staged (c : Core) (n : Nat) : List (Nat × Nat) :=
  if c.cascaded n then ((vget c.lnk.staging n []).takeWhile (·.used)).map (fun e => (e.dev, e.port))
  else
    (((List.range 24).map (fun i => getBits (c.reg (pgV n) (0xA0 + i / 4 * 4)) (8 * (i % 4)) 8)).takeWhile
      (fun b => 128 ≤ b)).map (fun b => (0, b % 32))

/-- The staged order may be made active (R110, R202). -/
def Core.orderOk (c : Core) (n : Nat) (l : List (Nat × Nat)) : Bool :=
  c.restful n && l.all (fun p => p.1 ≠ 0 || (p.2 < 24 && c.portRail p.2 = n)) && l.Nodup

/-- Vn_ORDCTL.COMMIT (R110, R202). A phase that stays in the order keeps its place among the members until the next proof
ramp. -/
def Core.commitOrder (c : Core) (n : Nat) : Core :=
  let l := c.staged n
  if !c.orderOk n l then c.raise (pgV n) 23
  else
    let old := (c.rail n).order
    let order := l.map (fun p => (old.find? (fun x => x.dev = p.1 && x.port = p.2)).getD { dev := p.1, port := p.2 })
    let c := c.modRail n (fun r => { r with order := order, ptr := nextTurn order 0, due := [] })
    let keep := c.lnk.remotes
    let mine := (l.filter (fun p => p.1 ≠ 0)).map (fun p =>
      (keep.find? (fun (x : Remote) => x.rail = n && x.dev = p.1 && x.port = p.2)).getD
        ({ rail := n, dev := p.1, port := p.2 } : Remote))
    let c := { c with lnk := { c.lnk with remotes := keep.filter (fun (x : Remote) => x.rail ≠ n) ++ mine } }
    (((c.retarget n false).syncMembers n).syncShare n).syncStages

/-! ## Identification (R119 to R122) -/

/-- DITH, HW and NREP of a port's Pk_IDCFG (R120). -/
def Core.idCfg (c : Core) (k : Nat) : Nat × Nat × Nat :=
  (zeroAsOne (c.fld (pgP k) P_IDCFG_DITH), zeroAsOne (c.fld (pgP k) P_IDCFG_HW), zeroAsOne (c.fld (pgP k) P_IDCFG_NREP))

/-- An identification that begins at device time `now` with DITH, HW and NREP (R120). -/
def identFrom (now : Nat) (cfg : Nat × Nat × Nat) : Ident :=
  { busy := true, start := now, dith := cfg.1, hw := cfg.2.1, nrep := cfg.2.2 }

/-- Identification of a port begins, or ends at once with CAUSE 2 or 4 (R119). -/
def Core.beginIdent (c : Core) (k : Nat) : Core :=
  let n := c.portRail k
  let r := c.rail n
  let c := (c.modPort k (fun p => { p with ident := identFrom c.time.toNat (c.idCfg k), fit := { on := true } })).setLevel (pgP k) 3 true
  if n < 8 && r.rstate ≠ .hold then c.endIdent k 2
  else if !c.portActive k || r.tstate ≠ 0 then c.endIdent k 4
  else c

/-- Identification of a remote phase begins at its owner, which asks the lender to fit; or it ends at once with CAUSE 2 or 4
(R119, R206). -/
def Core.beginRemoteIdent (c : Core) (n dev port : Nat) : Core :=
  let r := c.rail n
  let c := c.modRemote n dev port (fun y => { y with ident := identFrom c.time.toNat (y.ident.dith, y.ident.hw, y.ident.nrep) })
  if r.rstate ≠ .hold then c.endRemoteIdent n dev port 2
  else if !r.order.any (fun x => x.dev = dev && x.port = port && x.member) || r.tstate ≠ 0 then c.endRemoteIdent n dev port 4
  else c.sendMsg dev (.idRequest port none)

/-- Identifications that the arbiter has started begin. -/
def Core.pumpIdents (c : Core) : Core :=
  let c := (List.range 24).foldl (fun c k => if c.actRuns actIDENT k && !(c.port k).ident.busy then c.beginIdent k else c) c
  c.lnk.remotes.foldl (fun (c : Core) y =>
    if c.actRuns actIDENT (32 * y.dev + y.port) && !(c.remote y.rail y.dev y.port).ident.busy then
      c.beginRemoteIdent y.rail y.dev y.port
    else c) c

/-- The port is lent and bound (R190). -/
def Core.lentBound (c : Core) (k : Nat) : Bool :=
  k < 24 && c.flag pgLNK (LNK_LEND_EN k) && c.flag pgLNK (LNK_LEND_BOUND k) && c.portRail k = 0xE

/-- Pk_CTRL.IDSTART (R119). On a lent port it is handed on to the owner, which runs the identification (R206; DEDUCED,
log 75). -/
def Core.identStart (c : Core) (k : Nat) : Core :=
  if c.stat (pgP k) 3 then c
  else if c.lentBound k then c.sendMsg (c.fld pgLNK (LNK_LEND_OWNER k)) (.idRequest k (some (c.idCfg k)))
  else (c.requestAct ⟨actIDENT, k, 0⟩).pumpIdents

/-- A raw result in its field; one too large for the field is free there (log 6). -/
def Core.setRaw (c : Core) (pg : Nat) (f : Field) (v : Nat) : Core := if v < 2 ^ f.len then c.setFld pg f v else c.freeFld pg f

/-- L in 1/16 nH and R in µΩ lie in the ranges of CAUSE 0 (R122). -/
def identInRange (l r : Nat) : Bool := 160 ≤ l && l ≤ 16000 && 50 ≤ r && r ≤ 4095

/-- The fit of 256 periods is complete (R120). -/
def Fit.done (f : Fit) : Bool := f.on && 256 ≤ f.periods

/-- The mean slope of a fit in A/µs (R120). -/
def Fit.slope (f : Fit) : Rat := f.sum * 25 / (4 * f.segs)

/-- L in 1/16 nH and R in µΩ from the mean slope in A/µs and the mean difference of the halves in A (R120). A slope of 0, or
halves that do not differ as the dither does, leaves its formula without a result. -/
def Core.identResult (c : Core) (n : Nat) (x : Slot) (p : Ident) (slope : Rat) : Option Nat × Option Nat :=
  let vo : Rat := (c.rail n).vcApplied / 8192000
  let vin : Rat := c.railVin n / 2000
  let tper : Rat := c.fld (pgV n) V_PHF_PERIOD * 125 / 2
  let s := if slope < 0 then -slope else slope
  let di : Rat := p.dsum / p.pairs
  let l := roundRat (16000 * (vo + c.slotR n x * x.ibar / 1000000) / s)
  let r := roundRat (1000000 * 2 * vin * p.dith / (tper * di))
  (if s = 0 || l < 0 then none else some l.toNat, if di ≤ 0 then none else some r.toNat)

/-- A raw result in its field; one that its formula does not give is free (log 6). -/
def Core.setRawOpt (c : Core) (pg : Nat) (f : Field) : Option Nat → Core
  | none => c.freeFld pg f
  | some v => c.setRaw pg f v

/-- The pair of results that lie in the ranges of CAUSE 0 (R122). -/
def identGood : Option Nat × Option Nat → Option (Nat × Nat)
  | (some l, some r) => if identInRange l r then some (l, r) else none
  | _ => none

/-- Both measurements of a local port are complete: raw results, and L̂ and R̂ where they lie in range (R120, R122). -/
def Core.idEndLocal (c : Core) (k : Nat) : Core :=
  let c := c.modPort k (fun p => { p with ident := p.ident.turn c.time.toNat })
  let p := (c.port k).ident
  if !(p.busy && (c.port k).fit.done && p.nrep ≤ p.pairs) then c
  else match c.slotOf k with
    | none => c
    | some x =>
      let v := c.identResult (c.portRail k) x p (c.port k).fit.slope
      let c := (c.setRawOpt (pgP k) P_IDRES_LRAW v.1).setRawOpt (pgP k) P_IDRES_RRAW v.2
      match identGood v with
      | some (l, r) => ((c.setFld (pgP k) P_LHAT_L l).setFld (pgP k) P_RHAT_DCR r).endIdent k 0
      | none => c.endIdent k 1

/-- The fit of a lent port is complete: the lender returns the slope to the owner (R206). -/
def Core.idEndLent (c : Core) (k : Nat) : Core :=
  let f := (c.port k).fit
  if !f.done then c
  else
    let s := f.slope
    let c := { c with lnk := { c.lnk with idLent := c.lnk.idLent.filter (fun x => x ≠ k) } }
    let c := (c.modPort k (fun p => { p with fit := {} })).setLevel (pgP k) 3 false
    c.sendMsg (c.fld pgLNK (LNK_LEND_OWNER k)) (.idResult k s.num s.den)

/-- The dither of a remote phase is complete and its lender's slope has come: the owner keeps L̂ and R̂ where they lie in range
(R122, R206). -/
def Core.idEndRemote (c : Core) (n dev port : Nat) : Core :=
  let c := c.modRemote n dev port (fun y => { y with ident := y.ident.turn c.time.toNat })
  let p := (c.remote n dev port).ident
  match p.slope, (c.rail n).order.find? (fun x => x.dev = dev && x.port = port) with
  | some s, some x =>
    if !(p.busy && p.nrep ≤ p.pairs) then c
    else match identGood (c.identResult n x p s) with
      | some (l, r) => (c.modRemote n dev port (fun y => { y with l := l, dcr := r })).endRemoteIdent n dev port 0
      | none => c.endRemoteIdent n dev port 1
  | _, _ => c

/-- An identification ends when both measurements are complete: of a local port or a lent one (`dev` 0), or of port `k` of
device `dev` (R120, R122, R206). -/
def Core.idEnd (c : Core) (dev k : Nat) : Core :=
  if dev ≠ 0 then (List.range 8).foldl (fun (c : Core) n => c.idEndRemote n dev k) c
  else if c.lnk.idLent.contains k then c.idEndLent k
  else c.idEndLocal k

/-! ## Sharing (R111, R116) -/

/-- The sharing deviation of a member port is beyond SHARELIM (R116). -/
def Core.shareBad (c : Core) (k : Nat) : Bool :=
  let n := c.portRail k
  match c.slotOf k with
  | some x =>
    let dev := x.ibar - c.ibase n * x.sk4 / 4
    (c.fld (pgV n) V_ONTCOR_SHARELIM : Rat) < (if dev < 0 then -dev else dev)
  | none => false

/-- The deviation has been beyond SHARELIM for `periods` periods (R116). -/
def Core.shareRise (c : Core) (k periods : Nat) : Core :=
  if 16 ≤ periods && c.portActive k && c.shareBad k && !c.stat (pgP k) 6 then
    (((c.setLevel (pgP k) 6 true).setLive 0x13 (mkAddr 2 k) true).send 0x13 0 (mkAddr 2 k)).syncShare (c.portRail k)
  else c

/-- The deviation has been within SHARELIM for `periods` periods (R116). -/
def Core.shareFall (c : Core) (k periods : Nat) : Core :=
  if 16 ≤ periods && c.stat (pgP k) 6 && !c.shareBad k then
    ((c.setLevel (pgP k) 6 false).setLive 0x13 (mkAddr 2 k) false).syncShare (c.portRail k)
  else c

/-! ## The automatic target (R127) -/

/-- An averaging window of rail `n` ends at the base sample just taken: the automatic term and NTARGET are found again, and
a shed that has been wanted for SHDLY begins (R127, R129). -/
def Core.autoWindow (c : Core) (n : Nat) : Core :=
  let r := c.rail n
  let win := 2 ^ min 14 (c.fld (pgV n) V_SHEDAUTO_AVGK)
  if r.avgCnt = 0 || !(match c.tlm.count with | some k => k % win = win - 1 | none => false) then c
  else
    let ipp : Nat := zeroAsOne (c.fld (pgV n) V_SHEDAUTO_IPP)
    let need := ((r.avgSum : Rat) / (64 * r.avgCnt * ipp : Nat)).ceil + (c.fld (pgV n) V_SHEDAUTO_NMARG : Int)
    let c := c.modRail n (fun r => { r with
      autoTerm := need.toNat, autoValid := r.autoValid || r.autoWhole, autoWhole := true, avgSum := 0, avgCnt := 0 })
    let c := c.retarget n false
    let r := c.rail n
    if r.nact ≤ r.ntarget then c.modRail n (fun r => { r with belowFor := none })
    else
      let t := match r.belowFor with | some t => t + win | none => 0
      let c := c.modRail n (fun r => { r with belowFor := some t })
      if r.rstate.fires && r.tstate = 0 && 16 * c.fld (pgV n) V_SHEDAUTO_SHDLY ≤ t then c.beginShed n (r.nact - r.ntarget)
      else c

end Sys2Proof.Machine
end

