-- ==== Sys2Proof/Machine/Power.lean ====
section
/-! DEFINITION. Supplies, the always-on domain, resets and the power states (R400 to R419), but for the phases of BOOT. -/
namespace Sys2Proof.Machine

/-- Supply `i` is good: 0 VCC33, 1 VDD18, 2 VDDC, 3 VIO, 4 VKEEP (R400). -/
def Power.isGood (p : Power) (i : Nat) : Bool := (p.good[i]?).getD false

/-- All core supplies are good (R404). -/
def Power.coreGood (p : Power) : Bool := (List.range 4).all p.isGood

/-- Supply `i` becomes good or not. -/
def Power.setGood (p : Power) (i : Nat) (b : Bool) : Power := { p with good := p.good.set i b }

/-- A core just out of reset: the outputs of C50 and C51 carry on, the levels at the SEQ balls and the freeze pin are what
the board makes them, and the rack is kept where the reset keeps it (R357, R417, R442). -/
def freshCore (s : State) (keepRack : Bool) : Core :=
  let c : Core := {}
  let lo := if s.pw.lo50 then c.prot.lo ||| (1#56 <<< 50) else c.prot.lo &&& ~~~(1#56 <<< 50)
  let hi := if s.pw.hi50 then c.prot.hi ||| (1#56 <<< 50) else c.prot.hi &&& ~~~(1#56 <<< 50)
  let lo := if s.pw.lo51 then lo ||| (1#56 <<< 51) else lo &&& ~~~(1#56 <<< 51)
  let hi := if s.pw.hi51 then hi ||| (1#56 <<< 51) else hi &&& ~~~(1#56 <<< 51)
  let r := s.core.rpr
  { c with
    free := s.core.free + 2
    prot := { c.prot with lo := lo, hi := hi }
    bkh := { c.bkh with seqIn := s.core.bkh.seqIn }
    rpr := { c.rpr with pin := r.pin
                        rack := if keepRack then r.rack else []
                        rackDepth := keepRack && r.rackDepth
                        rackKept := keepRack && r.rack ≠ [] } }

/-- The page program of a record write that a reset meets: it completes, or for a supply that does not last programs at least
one of its words; the record stays uncommitted, so a commit word under way does not count (R381, R402, R418). -/
def State.cutStep (s : State) (w : RecWrite) (words : Nat) : State :=
  let r := stepRun w.steps
  if w.going && w.steps < 2 then s.flashWrite (w.addr + r.1) (((w.bytes.drop r.1).take r.2).take (4 * words)) else s

/-- The page program of a host operation that a reset meets (R377, R402, R418). -/
def State.cutHost (s : State) (words : Nat) : State :=
  match s.core.nvm.host with
  | none => s
  | some h =>
    match s.core.areaOf h.area with
    | none => s
    | some (sec, _) => if h.begun && h.op = 1 then s.hostProgram { h with buf := h.buf.take words } (sec * 2048 + h.off) else s

/-- The core enters reset: a page program under way completes, or for a falling supply completes only if the supply
lasts, which is open; an OTP burn stops (R402, R417, R418). -/
def State.resetCore (s : State) (supplyLost : Bool) : State :=
  let lasts := !supplyLost || Config.freeBool (s.core.free + 1)
  let words := if lasts then 8 else 1 + (Config.freeWord (s.core.free + 1)).toNat % 8
  let s' := match s.core.nvm.write with
    | some w => s.cutStep w words
    | none => s.cutHost words
  let s' := s'.stopBurn
  { s' with core := freshCore s (!supplyLost), pw := { s'.pw with inReset := true, phase := 0, halt := false } }

/-- PARKED to WAKING: MAINEN goes high and the wake is counted (R360, R404). -/
def State.toWaking (s : State) (cause : Nat) (byWake : Bool) : State :=
  { s with pw := { s.pw with pstate := .waking, mainen := true, filtered := false, heldSince := [], nextCause := cause,
                             wakeLatch := s.pw.wakeLatch || byWake, wakes := satAdd 8 s.pw.wakes 1 } }

/-- The edge of R404 that the detectors and C50 give in PARKED. -/
def State.suppliesUp (s : State) : State :=
  if s.pw.pstate = .parked && s.pw.coreGood && !s.pw.lo50 && s.pw.isGood 4 then s.toWaking 1 false else s

/-- The HI side of C51 asserts (R360): a wake from PARKED, counted in the other states of a running core. -/
def State.wakeEdge (s : State) : State :=
  if !s.pw.isGood 4 then s
  else if s.pw.pstate = .parked then s.toWaking 2 true
  else if s.alive then
    s.onCore (fun c => ((c.incSat pgBKH BKH_WAKE_EDGES 1).setStat pgBKH 7 true).raise pgBKH 7)
  else s

/-- A core supply falls below its threshold (R338, R402): its copy of the GRAVE latch is lost, and the core goes to
reset and WAKING from any state but PARKED. -/
def State.supplyFall (s : State) (i : Nat) : State :=
  let p := s.pw.setGood i false
  let p := if i = 2 then { p with graveD := false, vddcFell := true }
    else if i = 0 then { p with graveV := false, vcc33Fell := true } else p
  let before := if p.pstate = .waking then p.heldSince else [0, 1, 3, 4].filter p.isGood
  let s := { s with pw := { p with heldSince := before.filter (fun j => j ≠ i) } }
  if s.pw.pstate = .parked then s
  else
    let s := s.resetCore true
    { s with pw := { s.pw with pstate := .waking, filtered := false, nextCause := 1 } }

/-- All core supplies have been good for 100 µs in WAKING (R404, R405). -/
def State.supplyGood (s : State) : State :=
  if s.pw.pstate = .waking && s.pw.coreGood && s.pw.isGood 4 then
    { s with pw := { s.pw with filtered := true, pstate := if s.pw.rstn then .boot else .waking } }
  else s

/-- A device reset by RST_N or by software: the core in reset, MAINEN and the always-on values kept (R416). -/
def State.deviceReset (s : State) (cause : Nat) : State :=
  let s := s.resetCore false
  { s with pw := { s.pw with pstate := .boot, nextCause := cause } }

/-- RST_N is low for `ns`: under 0.5 µs ignored, from 2 µs a reset, between them open (R416). -/
def State.rstLow (s : State) (ns : Nat) : State :=
  let acts := 2000 ≤ ns || (500 ≤ ns && Config.freeBool s.core.free)
  if !acts then { s with core := { s.core with free := s.core.free + 1 } }
  else
    let s := { s with pw := { s.pw with rstn := false } }
    if 2 ≤ s.pw.pstate.code then s.deviceReset 3 else s

/-- RST_N goes high: BOOT is free to begin (R404, R405, R416). -/
def State.rstHigh (s : State) : State :=
  let s := { s with pw := { s.pw with rstn := true } }
  if s.pw.pstate = .waking && s.pw.filtered then { s with pw := { s.pw with pstate := .boot } } else s

/-- DEV_CTRL.SWRST: a reset once the frame or transaction that carries it has ended (R416). -/
def State.softReset (s : State) : State :=
  if s.pw.swren then s.onCore (fun c => { c with hst := { c.hst with swrstDue := true } }) else s

/-- 20 ms in WAKING (R404, R409). -/
def State.wakeTimeout (s : State) : State :=
  if s.pw.pstate = .waking && !s.pw.filtered then
    { s with pw := { s.pw with pstate := .parked, mainen := false, wakeFails := satAdd 8 s.pw.wakeFails 1 } }
  else s

/-- MAINEN falls after DOWN, and the device is PARKED with its core in reset (R361, R404). -/
def State.toParked (s : State) : State :=
  let s := s.resetCore true
  { s with pw := { s.pw with pstate := .parked, mainen := false, filtered := false } }

/-- VKEEP falls below its threshold: the whole device is unpowered (R401). -/
def State.vkeepLoss (s : State) : State :=
  let s := s.resetCore true
  { s with pw := { s.pw.setGood 4 false with pstate := .parked, mainen := false, filtered := false } }

/-- VKEEP rises: the always-on domain and the GRAVE latch are cleared, and the device is PARKED (R407, R415, R417). -/
def State.vkeepOn (s : State) : State :=
  let p : Power := {}
  { s with core := freshCore { s with pw := p } false, pw := { p with good := (s.pw.setGood 4 true).good, rstn := s.pw.rstn } }

end Sys2Proof.Machine
end

