-- ==== Sys2Proof/Machine/Protect.lean ====
section
/-! DEFINITION. Comparators, crowbar, hiccup, undervoltage and the trip matrix (R220 to R258), but for the fixed paths of
the auxiliary channels. -/
namespace Sys2Proof.Machine

/-! ## Comparator outputs (R220, R225, R226) -/

/-- An output of comparator `i` becomes `b`; `hi` names its HI side. -/
def Core.setOut (c : Core) (i : Nat) (hi b : Bool) : Core :=
  let m : BitVec 56 := 1#56 <<< i
  let f (v : BitVec 56) : BitVec 56 := if b then v ||| m else v &&& ~~~m
  { c with prot := if hi then { c.prot with hi := f c.prot.hi } else { c.prot with lo := f c.prot.lo } }

/-- An output of comparator `i` (R220). -/
def Core.cmpSide (c : Core) (i : Nat) (hi : Bool) : Bool := if hi then c.cmpHi i else c.cmpLo i

/-- ADDR of a comparator's side (R329). -/
def sideAddr (i : Nat) (hi : Bool) : Nat := mkAddr 4 (i + 64 * b2n hi)

/-- The HIT bit of a side is set (R226, R256). -/
def Core.setHit (c : Core) (i : Nat) (hi : Bool) : Core :=
  let off := (if hi then 0xD4 else 0xCC) + (if i < 32 then 0 else 4)
  c.setReg pgCMP off (putBit (c.reg pgCMP off) (i % 32) true)

/-- CMPINi sends fault messages (R242). -/
def Core.inMsgs (c : Core) (i : Nat) : Bool := (c.fld pgCMP CMP_INCFG_FMEN).testBit (i - 34)

/-- The levels of CMP_STAT that follow comparator outputs (R255). -/
def Core.syncCmp (c : Core) : Core :=
  let c := (List.range 8).foldl (fun (c : Core) n => c.setStat pgCMP n (c.cmpHi n)) c
  let c := [0, 1].foldl (fun (c : Core) b => (c.setStat pgCMP (24 + b) (c.cmpLo (32 + b))).setStat pgCMP (26 + b) (c.cmpHi (32 + b))) c
  let any (l : List Nat) : Bool := l.any (fun i => c.cmpLo i || c.cmpHi i)
  let ins := ((List.range 8).map (· + 34)).filter c.inMsgs
  let c := c.setStat pgCMP 28 (any ins)
  (c.setStat pgCMP 29 (c.cmpLo 50)).setStat pgCMP 30 (any [52, 53, 54, 55])

/-- What a change of a side means beside its level: the live level of its source, and on an assertion its message and
sticky bit (R228, R229, R239, R241, R242, R244). -/
def Core.sideEffect (c : Core) (i : Nat) (hi b : Bool) : Core :=
  if i < 8 then
    if hi then c.ovCheck i true
    else if b then c
    else (c.setStat pgCMP (8 + i) false).setLive 0x01 (mkAddr 1 i) false
  else if i = 32 || i = 33 then
    let k := i - 32
    let src := if hi then 0x15 else 0x14
    let c := c.setLive src (mkAddr 6 k) b
    if b && c.busServes k then (c.raise pgCMP ((if hi then 26 else 24) + k)).send src 0 (mkAddr 6 k) else c
  else if 34 ≤ i && i < 42 then
    let c := c.setLive 0x16 (sideAddr i hi) b
    if b && c.inMsgs i then (c.raise pgCMP 28).send 0x16 0 (sideAddr i hi) else c
  else if i = 50 && !hi then
    let c := c.setLive 0x17 (mkAddr 0 0) b
    if b then (c.raise pgCMP 29).send 0x17 0 (mkAddr 0 0) else c
  else if 52 ≤ i then
    let c := c.setLive 0x18 (sideAddr i hi) b
    if b && c.prot.refArmed then (c.raise pgCMP 30).send 0x18 0 (sideAddr i hi) else c
  else c

/-- The live levels of the sources that follow comparator sides whatever else holds, and the levels of CMP_STAT: as the
sides stand, with no message (R255, R333). -/
def Core.sideLevels (c : Core) : Core :=
  let c := [0, 1].foldl (fun (c : Core) k =>
    (c.setLive 0x14 (mkAddr 6 k) (c.cmpLo (32 + k))).setLive 0x15 (mkAddr 6 k) (c.cmpHi (32 + k))) c
  let c := ((List.range 8).map (· + 34) ++ [52, 53, 54, 55]).foldl (fun (c : Core) i =>
    [false, true].foldl (fun (c : Core) h => c.setLive (if i < 42 then 0x16 else 0x18) (sideAddr i h) (c.cmpSide i h)) c) c
  (c.setLive 0x17 (mkAddr 0 0) (c.cmpLo 50)).syncCmp

/-- The references have settled: C52 to C55 send their messages from now on, and a side that is asserted sends one now
(R228). -/
def Core.armRefs (c : Core) : Core :=
  let c := { c with prot := { c.prot with refArmed := true } }
  [52, 53, 54, 55].foldl (fun (c : Core) i => [false, true].foldl (fun (c : Core) hi =>
    if c.cmpSide i hi then (c.raise pgCMP 30).send 0x18 0 (sideAddr i hi) else c) c) c

/-! ## Thresholds (R224, R226) -/

/-- The signed comparators (R225). -/
def cmpSigned (i : Nat) : Bool := (8 ≤ i && i < 32) || (46 ≤ i && i < 50) || 52 ≤ i

/-- LO does not lie above HI (R224). -/
def thrOrdered (i lo hi : Nat) : Bool := if cmpSigned i then toSigned 8 lo ≤ toSigned 8 hi else lo ≤ hi

/-- A write of CMP_THRi is carried out (R10, R224). -/
def Core.thrTaken (c : Core) (i : Nat) (w : Word) : Bool :=
  !c.locked pgCMP (CMP_THR_LO0 i) && thrOrdered (2 * i) (getBits w 0 8) (getBits w 8 8) &&
  thrOrdered (2 * i + 1) (getBits w 16 8) (getBits w 24 8)

/-- A write of CMP_THRi: ignored when its lock group is closed, refused with THRERR when it would leave LO above HI
(R10, R224). -/
def Core.writeThr (c : Core) (i : Nat) (w : Word) : Core :=
  if c.thrTaken i w then c.setReg pgCMP (0x20 + 4 * i) w
  else if c.locked pgCMP (CMP_THR_LO0 i) then c
  else c.raise pgCMP 31

/-- The always-on copies of R407 follow the thresholds and hysteresis of C50 and C51 (R256, R407). -/
def State.copyThr (s : State) : State :=
  { s with pw := { s.pw with thr25 := s.core.reg pgCMP 0x84, hys50 := s.core.fld pgCMP (CMP_HYS_H 50), hys51 := s.core.fld pgCMP (CMP_HYS_H 51) } }

/-! ## Crowbar (R229 to R232) -/

/-- Remote members of a rail that fires come back from mid: each gets a PRELOAD first (R204, R248). -/
def Core.rejoinRemotes (c : Core) (n : Nat) : Core :=
  if (c.rail n).rstate.fires then
    ((c.rail n).order.filter (fun x => x.dev ≠ 0 && x.member)).foldl (fun (c : Core) x => c.remoteJoin n x.dev x.port) c
  else c

/-- A write of 1 to TRP_STKY.CROWn: refused while the HI side is asserted (R231). `coinc` says that a set event falls at
the same instant (R26). -/
def Core.crowClear (c : Core) (n : Nat) (coinc : Bool) : Core :=
  if !c.stky pgTRP (16 + n) && !coinc then c
  else if c.cmpHi n || coinc then (c.clearSticky pgTRP (16 + n) coinc).raise pgTRP 12
  else ((c.setStat pgTRP (16 + n) false).clearSticky pgTRP (16 + n) false).rejoinRemotes n

/-! ## Limited firings and hiccup (R233, R236 to R238) -/

/-- NPCL periods have passed without a limited firing (R233). -/
def Core.pclExpire (c : Core) (n : Nat) : Core := c.setFld pgTRP (TRP_RST_PCLACT n) 0

/-- The trigger's cause is there: limited firings in `count` consecutive windows of TPER, or Irail above ROCLIM for `count`
µs (R236). -/
def Core.hiccupCause (c : Core) (n : Nat) (byRoc : Bool) (count : Nat) : Bool :=
  let st := (c.rail n).rstate
  (st = .proof || st = .hold || st = .slew) && !c.crowHeld n &&
  (if byRoc then
    c.fld pgTRP (TRP_ROC_ROCLIM n) ≠ 0 && c.flag pgTRP (TRP_RST_ROCACT n) && zeroAsOne (c.fld pgTRP (TRP_ROC_ROCDLY n)) ≤ count
   else
    c.fld pgTRP (TRP_RAIL_NPCL n) ≠ 0 && c.flag pgTRP (TRP_RST_PCLACT n) && c.fld pgTRP (TRP_RAIL_NPCL n) ≤ count)

/-- A hiccup trigger (R237 steps 1 and 4). -/
def Core.hiccup (c : Core) (n : Nat) (byRoc : Bool) (count : Nat) : Core :=
  if !c.hiccupCause n byRoc count then c
  else
    let soft := c.flag (pgV n) V_CTRL_SOFTOFF
    let k := c.fld pgTRP (TRP_RST_HCNT n)
    let c := c.writeEn n false false false
    if k < c.fld pgTRP (TRP_RAIL_HICRETRY n) then
      let c := { c with prot := { c.prot with keptSoft := vmod c.prot.keptSoft n (fun _ => soft) } }
      let c := (c.setFld pgTRP (TRP_RST_HCNT n) (k + 1)).setFld pgTRP (TRP_RST_HICW n) 1
      ((c.setLevel pgTRP (24 + n) true).setLive 0x03 (mkAddr 1 n) true).send 0x03 0 (mkAddr 1 n)
    else ((c.setFld pgTRP (TRP_RST_HCNT n) 0).raise pgCMP (16 + n)).send 0x02 0 (mkAddr 1 n)

/-- HICT has passed since step 1: the rail is enabled again with the kept SOFTOFF (R237 step 2). -/
def Core.hiccupRestart (c : Core) (n : Nat) : Core :=
  if c.flag pgTRP (TRP_RST_HICW n) then (c.hicCancel n).writeEn n true (vget c.prot.keptSoft n true) false else c

/-- PGOOD has stayed 1 for HICT with no trigger (R237 step 3). -/
def Core.hiccupClear (c : Core) (n : Nat) : Core := if c.stat (pgV n) 0 then c.setFld pgTRP (TRP_RST_HCNT n) 0 else c

/-! ## Undervoltage (R239) -/

/-- The rail has been in HOLD or SLEW for UVBLK. -/
def Core.uvArm (c : Core) (n : Nat) : Core :=
  let st := (c.rail n).rstate
  if st = .hold || st = .slew then c.setFld pgTRP (TRP_RST_UVARM n) 1 else c

/-- The LO side has been asserted for UVDLY: with UVARM at 1 and PCLACT at 0 the message is sent. -/
def Core.uvFault (c : Core) (n : Nat) : Core :=
  if c.cmpLo n && c.flag pgTRP (TRP_RST_UVARM n) && !c.flag pgTRP (TRP_RST_PCLACT n) && !c.stat pgCMP (8 + n) then
    (((c.setStat pgCMP (8 + n) true).raise pgCMP (8 + n)).setLive 0x01 (mkAddr 1 n) true).send 0x01 0 (mkAddr 1 n)
  else c

/-! ## The trip matrix (R245 to R250, R257, R258) -/

/-- The level of the signal that line `l` selects, where the device itself drives it; none for the TRIP balls, and an
inactive line for a code that names no signal (R245). -/
def Core.lineSignal (c : Core) (l : Nat) : Option Bool :=
  let sel := c.fld pgTRP (TRP_SRC_SEL l)
  let inv (b : Bool) : Bool := xor b (c.flag pgTRP (TRP_SRC_INV l))
  if sel < 0x70 then some (inv (c.cmpSide (sel / 2) (sel % 2 = 1)))
  else if sel < 0x74 then none
  else if sel < 0x77 then some (inv ((c.prot.stgUse[sel - 0x74]?).getD false))
  else if sel = 0x78 then some (inv c.thm.tsd.on)
  else if sel = 0x79 then some (inv (c.stat pgFLT 3))
  else if sel = 0x7A then some (inv (c.flag pgTRP TRP_SWTRIP_LEVEL))
  else if sel = 0x7B then some (inv (c.stat pgLNK 3))
  else some false

/-- Line `l` is active (R246). -/
def Core.lineOn (c : Core) (l : Nat) : Bool := (c.fld pgTRP TRP_SRCST_LIVE).testBit l

/-- The active lines of group `g`, lowest first (R247). -/
def Core.groupLines (c : Core) (g : Nat) : List Nat :=
  (List.range 16).filter (fun l => (c.fld pgTRP (TRP_GRP_MAP g)).testBit l && c.lineOn l)

/-- Fault source of a group (R333). -/
def tripSrc (g : Nat) : Nat := if g < 8 then 0x07 else 0x08

/-- Group `g` enters its trip state (R247, R248). -/
def Core.tripEnter (c : Core) (g kind : Nat) : Core :=
  let c := ((c.setStat pgTRP g true).raise pgTRP g).setLive (tripSrc g) (mkAddr 15 g) true
  let c := if g < 8 then c.midRemotes g else c
  c.send (tripSrc g) kind (mkAddr 15 g)

/-- Group `g` leaves its trip state (R247, R248). -/
def Core.tripLeave (c : Core) (g : Nat) : Core :=
  let c := (c.setStat pgTRP g false).setLive (tripSrc g) (mkAddr 15 g) false
  if g < 8 then c.rejoinRemotes g else c

/-- The trip state of group `g` follows its lines, its latch and a forced trip (R247, R250, R257). -/
def Core.syncTrip (c : Core) (g : Nat) : Core :=
  let was := c.tripped g
  let lines := c.groupLines g
  let held := c.prot.forced.getLsbD g || (was && c.flag pgTRP (TRP_GRP_LATCH g) && c.stky pgTRP g)
  let now := lines ≠ [] || held
  if now && !was then c.tripEnter g (lines.headD 0)
  else if was && !now then c.tripLeave g
  else c

/-- Every group. -/
def Core.syncTrips (c : Core) : Core := (List.range 12).foldl (fun (c : Core) g => c.syncTrip g) c

/-- The filtered level of line `l` becomes `b` (R246). -/
def Core.setLine (c : Core) (l : Nat) (b : Bool) : Core :=
  if 16 ≤ l || c.lineOn l = b || c.lineSignal l = some (!b) then c
  else
    let c := c.setReg pgTRP 0x98 (putBit (c.reg pgTRP 0x98) l b)
    let c := if b then c.setReg pgTRP 0x98 (putBit (c.reg pgTRP 0x98) (16 + l) true) else c
    c.syncTrips

/-- A write of 1 to TRP_STKY.TRIPg: refused while a line of MAP is active (R250). -/
def Core.tripClear (c : Core) (g : Nat) (coinc : Bool) : Core :=
  if !c.stky pgTRP g && !coinc then c
  else if c.groupLines g ≠ [] || coinc then (c.clearSticky pgTRP g coinc).raise pgTRP 12
  else
    let c := c.setReg pgTRP 0x0C (putBit (c.reg pgTRP 0x0C) g false)
    ({ c with prot := { c.prot with forced := c.prot.forced &&& ~~~(1#12 <<< g) } }).syncTrip g

/-! ## Page resets (R256, R258) -/

/-- CMP_CTRL.PRST (R226, R256). -/
def Core.cmpPageReset (c : Core) : Core :=
  let keep : BitVec 56 := (1#56 <<< 50) ||| (1#56 <<< 51)
  let c := c.resetPage pgCMP (fun _ => false)
  let ins (f : Field) : BitVec 56 := BitVec.ofNat 56 (c.fld pgCMP f * 2 ^ 34)
  let lo : BitVec 56 := 0xF03C03FFFFFFFF ||| ins CMP_INCFG_SAFELO
  let hi : BitVec 56 := 0xF3C000FFFFFF00 ||| ins CMP_INCFG_SAFEHI
  let c := { c with prot := { c.prot with lo := (lo &&& ~~~keep) ||| (c.prot.lo &&& keep), hi := (hi &&& ~~~keep) ||| (c.prot.hi &&& keep) } }
  let c := (List.range 8).foldl (fun (c : Core) n =>
    ((c.ovCheck n false).setStat pgCMP (8 + n) false).setLive 0x01 (mkAddr 1 n) false) c
  let c := c.sideLevels
  c.setReg pgCMP 0x0C 0

/-- TRP_CTRL.PRST (R238, R258); OVOFF returns to 0, so the OV side of a rail in OFF is armed no more (R229, R333). -/
def Core.trpPageReset (c : Core) : Core :=
  let free := (List.range 12).filter (fun g => c.tripped g && !c.flag pgTRP (TRP_GRP_LATCH g) && !c.prot.forced.getLsbD g)
  let c := (List.range 8).foldl (fun (c : Core) n => if c.flag pgTRP (TRP_RST_HICW n) then c.hicCancel n else c) c
  let c := free.foldl (fun (c : Core) g => c.tripLeave g) c
  let keep (f : Field) : Bool := 0xE0 ≤ f.off && 1 ≤ f.lo && f.lo ≤ 3
  let c := c.resetPage pgTRP keep
  let c := c.setReg pgTRP 0x98 0
  (List.range 8).foldl (fun (c : Core) n => c.ovCheck n false) c.syncTrips

/-! ## The order in which a comparator's change acts -/

/-- A side of a comparator changes in the core: its level, its HIT bit and its fixed paths (R220, R226). Both sides of a
port's current limit are held while its slice is not calibrated (R227). -/
def Core.cmpChange (c : Core) (i : Nat) (hi b : Bool) : Core :=
  let c := c.setOut i hi b
  let c := if b then c.setHit i hi else c
  c.syncCmp.sideEffect i hi b

/-- The change takes place: it is one, and a current limit that is held asserted does not deassert (R220, R227). -/
def Core.cmpMoves (c : Core) (i : Nat) (hi b : Bool) : Bool :=
  c.cmpSide i hi ≠ b && (b || i < 8 || 32 ≤ i || c.stat (pgP (i - 8)) 1)

end Sys2Proof.Machine
end

