-- ==== Sys2Proof/Machine/AuxChan.lean ====
section
/-! DEFINITION. Auxiliary channels and the fan (R259 to R280). Instants within a period are counted in 10 ps. -/
namespace Sys2Proof.Machine

/-! ## Gates (R261, R268, R271 to R274, R276) -/

/-- Both gates low at once, and a dead-time count abandoned (R269). -/
def AuxCh.gatesOff (x : AuxCh) : AuxCh := { x with xh := false, xl := false, dead := 0 }

/-- A gate that fell at `fall` has been low at time `t` for less than a dead time of `dt` × 0.25 ns (R260, R274). -/
def fellWithin (fall : Option Nat) (t dt : Nat) : Bool := match fall with | some f => 10 * (t - f) < dt | none => false

/-- The falls of both gates are stamped when `x` becomes `y` (R274). -/
def AuxCh.stamp (x y : AuxCh) (t : Nat) : AuxCh :=
  { y with xhFall := if x.xh && !y.xh then some t else y.xhFall, xlFall := if x.xl && !y.xl then some t else y.xlFall }

/-- A channel's gates change, and their falls are stamped. -/
def Core.modGate (c : Core) (n : Nat) (f : AuxCh → AuxCh) : Core := c.modXch n (fun x => x.stamp (f x) c.time.toNat)

/-- XHGn low and XLGn high at time `t`: XHGn falls first, and XLGn follows once XHGn has been low for the dead time of that
direction (R268, R273, R274). -/
def AuxCh.lowSideOn (x : AuxCh) (t : Nat) : AuxCh :=
  if x.xh then { x with xh := false, dead := 2 }
  else if x.xl then x
  else if fellWithin x.xhFall t x.dthl then { x with dead := 2 }
  else { x with xl := true, dead := 0 }

/-- XHGn rises, and the blanking of R271 begins: 10 ns, four periods. -/
def AuxCh.riseHigh (x : AuxCh) : AuxCh := { x with xh := true, dead := 0, blank := 4 }

/-- The channel switches: START or RUN. -/
def AuxCh.runs (x : AuxCh) : Bool := x.st = .start || x.st = .run

/-- The present period is limited (R271). -/
def AuxCh.limit (x : AuxCh) : AuxCh :=
  if x.limited then x else { x with limited := true, limRow := x.limRow + 1 }

/-- Rows 2, 3, 4 and 8 of R274 hold the gates of a channel; none of them leaves them to the schedule or a force. -/
def AuxCh.isHeld (x : AuxCh) : Bool :=
  x.ovHold || x.tripHold || x.st = .safe || x.frz || (x.st = .off && !x.forced)

/-- The gates take the first of rows 2, 3, 4 and 8 of R274 that applies: row 2 comes first while its HI side is asserted, and
what R268 holds from it to the next boundary stands behind the trip state. -/
def Core.xRow (c : Core) (n : Nat) : Core :=
  c.modGate n (fun x =>
    let trip := x.tripHold && !(x.ovHold && c.cmpHi (42 + n))
    if trip && (c.tripped (8 + n) || !x.ovHold) then
      (if c.flag pgTRP (TRP_GRP_ACT (8 + n)) then x.lowSideOn c.time.toNat else x.gatesOff)
    else if x.ovHold then (if c.flag pgAUX (AUX_XCFG_OVLS n) then x.lowSideOn c.time.toNat else x.gatesOff)
    else if x.isHeld then x.gatesOff
    else x)

/-- The positive limit of the channel is asserted (R271). -/
def Core.xHiLim (c : Core) (n : Nat) : Bool := c.cmpHi (46 + n)

/-- XHGn is due to rise: suppressed, and the period limited, while the current limit is asserted (R271). -/
def Core.xRise (c : Core) (n : Nat) : Core :=
  c.modXch n (fun x => if c.xHiLim n then { x with dead := 0 }.limit else x.riseHigh)

/-- A high XLGn falls, and both gates stay low to the next boundary, unless row 2 or 3 of R274 decides (R272). -/
def Core.xRevOff (c : Core) (n : Nat) : Core :=
  let x := c.xch n
  if x.xl && !x.ovHold && !x.tripHold then c.modGate n (fun x => { x.gatesOff with revHold := true }) else c

/-- The reverse-current side acts on a high XLGn: both gates low to the next boundary, XREV (R272). -/
def Core.xReverse (c : Core) (n : Nat) : Core :=
  let x := c.xch n
  if x.xl && c.cmpLo (46 + n) && !x.ovHold && !x.tripHold then (c.xRevOff n).raise pgAUX (16 + n) else c

/-- The current limit cuts a high XHGn outside its blanking, and XLGn follows (R271). -/
def Core.xCut (c : Core) (n : Nat) : Core :=
  c.modGate n (fun x => if x.xh && x.blank = 0 && c.xHiLim n && !x.isHeld then { x with xh := false, dead := 2 }.limit else x)

/-- XHGn is to go high: XLGn falls first, and XHGn follows once XLGn has been low for the dead time of that direction (R261,
R274). -/
def Core.xHighOn (c : Core) (n : Nat) : Core :=
  let x := c.xch n
  if x.xh then c
  else if x.xl then c.modGate n (fun x => { x with xl := false, dead := 1 })
  else if fellWithin x.xlFall c.time.toNat x.dtlh then c.modXch n (fun x => { x with dead := 1 })
  else c.xRise n

/-- The gates go to the levels of the force, with the dead times of R261 (R276). -/
def Core.xForceGates (c : Core) (n : Nat) : Core :=
  let h := c.flag pgAUX (AUX_XFORCE_FHS n)
  let l := c.flag pgAUX (AUX_XFORCE_FLS n)
  let x := c.xch n
  if x.isHeld || x.revHold then c
  else if h then c.xHighOn n
  else if l then (c.modGate n (fun x => x.lowSideOn c.time.toNat)).xReverse n
  else c.modGate n AuxCh.gatesOff

/-- STAT.FORCED follows the force (R276, R279). -/
def Core.xSetForced (c : Core) (n : Nat) (b : Bool) : Core :=
  (c.modXch n (fun x => { x with forced := b, forcePend := false })).setLevel pgAUX (20 + n) b

/-- A force or a release whose instant has come is taken (R276). -/
def Core.xTakeForce (c : Core) (n : Nat) : Core :=
  if (c.xch n).forcePend then c.xSetForced n (c.flag pgAUX (AUX_XFORCE_FEN n)) else c

/-! ## Levels (R267, R268, R270) -/

/-- GOOD falls, and the UV condition with it, outside RUN; the OV level follows its side while armed (R267, R268, R270). -/
def Core.xSync (c : Core) (n : Nat) : Core :=
  let x := c.xch n
  let c := if x.st = .run && !c.cmpHi (42 + n) && !c.cmpLo (42 + n) then c else c.setStat pgAUX n false
  let c := if x.st = .run && c.cmpLo (42 + n) then c
    else (c.setStat pgAUX (8 + n) false).setLive 0x1A (mkAddr 7 n) false
  let ov := x.runs && c.cmpHi (42 + n)
  (c.setStat pgAUX (4 + n) ov).setLive 0x19 (mkAddr 7 n) ov

/-- The channel's overvoltage side is asserted while armed (R268, R274 row 2). -/
def Core.xOv (c : Core) (n : Nat) : Core :=
  if (c.xch n).runs && c.cmpHi (42 + n) then (c.modXch n (fun x => { x with ovHold := true })).xRow n else c

/-! ## States (R266, R269) -/

/-- A channel that no longer switches: its soft start, integrator and period's marks are over, and the trip state holds it
while its group is tripped and no longer, for no boundary resumes a schedule (R263, R266, R269, R274). -/
def AuxCh.ends (x : AuxCh) (st : AuxState) (tripped : Bool) : AuxCh :=
  { x with st := st, ssceil := 0, integ := 0, offPend := false, ovHold := false, revHold := false, limRow := 0,
           tripHold := x.tripHold && tripped }

/-- Both gates low at once, unless the trip state comes before and decides them (R269, R271, R274 row 3). -/
def AuxCh.gatesEnd (x : AuxCh) : AuxCh := if x.tripHold then x else x.gatesOff

/-- The channel goes to OFF, its integrator at 0; a stored force acts there (R263, R266, R276). -/
def Core.xToOff (c : Core) (n : Nat) : Core :=
  let c := c.modXch n (fun x => x.ends .off (c.tripped (8 + n)))
  let c := (c.xTakeForce n).xRow n
  (if (c.xch n).forced then c.xForceGates n else c).xSync n

/-- A safe state of the channel (R269). -/
def Core.xToSafe (c : Core) (n : Nat) : Core :=
  if (c.xch n).st = .safe then c
  else
    let c := c.modGate n (fun x => (x.ends .safe (c.tripped (8 + n))).gatesEnd)
    (c.xRow n).xSync n

/-- Release from SAFE (R266). -/
def Core.xFromSafe (c : Core) (n : Nat) : Core := if (c.xch n).st = .safe then c.xToOff n else c

/-- A write of AUX_CTRL.ENn (R266): 0 → 1 in OFF starts, 1 → 0 in START or RUN ends at the next boundary. -/
def Core.xWriteEn (c : Core) (n : Nat) (en : Bool) : Core :=
  let was := c.flag pgAUX (AUX_CTRL_EN n)
  let c := c.setFld pgAUX (AUX_CTRL_EN n) (b2n en)
  let st := (c.xch n).st
  if en && !was && st = .off then ((c.modXch n (fun x => { x with st := .start, ssceil := 0 })).xSync n).xOv n
  else if !en && was && (c.xch n).runs then c.modXch n (fun x => { x with offPend := true })
  else c

/-! ## The period (R259 to R265) -/

/-- T and tD of a period, in 10 ps (R259, R260). -/
def AuxCh.tPer (x : AuxCh) : Nat := 250 * x.per
def AuxCh.tDuty (x : AuxCh) : Nat := 4 * (roundDiv (x.dcur * x.per * 125) 8192).toNat

/-- A high pulse and a low pulse of the period are at least 1.00 ns wide (R260, R261). -/
def AuxCh.highDue (x : AuxCh) : Bool := (if x.xlAtB then 25 * x.dtlh else 0) + 100 ≤ x.tDuty
def AuxCh.lowDue (x : AuxCh) : Bool := x.tDuty + 25 * x.dthl + 100 ≤ x.tPer

/-- Steps 1 and 1a of R261: with no high pulse due an XHGn that was high across the boundary falls there, and XLGn keeps its
level. -/
def Core.xSchedStart (c : Core) (n : Nat) : Core :=
  if (c.xch n).highDue then c.xHighOn n else c.modGate n (fun x => { x with xh := false })

/-- The gates that the rows of R274 from 5 on leave to a force or to the schedule at a boundary. -/
def Core.xStartGates (c : Core) (n : Nat) : Core :=
  let x := c.xch n
  if x.isHeld then c.xRow n
  else if x.forced then c.xForceGates n
  else c.xSchedStart n

/-- The period turns: the counters and the duty of the new period, and what ends with the old one (R264, R268, R271 to
R273). -/
def Core.xTurn (c : Core) (n : Nat) : Core :=
  let pcnt := wrapAdd 16 (c.fld pgAUX (AUX_XDAPP_PCNT n)) 1
  let c := c.setFld pgAUX (AUX_XDAPP_PCNT n) pcnt
  let x := c.xch n
  let c := if x.dutyTaken then c.setFld pgAUX (AUX_XDAPP_PSEQ n) pcnt else c
  let c := (c.setFld pgAUX (AUX_XMON_DAPL n) x.dnext).setFld pgAUX (AUX_XMON_ILIM n) (b2n x.limited)
  c.modXch n (fun x => { x with
    dcur := x.dnext, per := x.perNext, dtlh := x.dtlhNext, dthl := x.dthlNext, xlAtB := x.xl, dutyTaken := false, revHold := false
    limited := false, limRow := if x.limited then x.limRow else 0
    ovHold := x.ovHold && c.cmpHi (42 + n), tripHold := x.tripHold && c.tripped (8 + n), frz := c.rpr.allMid })

/-- A period boundary: what waits for one is taken, and the schedule of the new period starts (R260, R261, R266, R268,
R271 to R276). A force written in SAFE stays stored (R275). -/
def Core.xBoundary (c : Core) (n : Nat) : Core :=
  let c := c.xTurn n
  let c := if (c.xch n).offPend then c.xToOff n else c
  let c := if (c.xch n).st = .safe then c else c.xTakeForce n
  (c.xStartGates n).xReverse n

/-- The duty instant: XHGn falls if a low pulse is due, and XLGn follows (R261 steps 3, 3a and 4). A force that is released
there leaves the gates to the schedule, which with no low pulse due has XHGn high (R276). -/
def Core.xDutyInstant (c : Core) (n : Nat) : Core :=
  if !(c.xch n).runs then c
  else
    let was := (c.xch n).forced
    let c := c.xTakeForce n
    let x := c.xch n
    if x.isHeld || x.revHold then c
    else if x.forced then c.xForceGates n
    else if !x.lowDue then (if was && x.highDue then c.xHighOn n else c)
    else if x.xl || x.dead = 2 then c
    else c.modGate n (fun x => { x with xh := false, dead := 2 })

/-- A dead time has ended: the gate it holds back rises (R261). -/
def Core.xDeadEnd (c : Core) (n : Nat) : Core :=
  let x := c.xch n
  if x.dead = 1 then c.xRise n
  else if x.dead = 2 then (c.modXch n (fun x => { x with xl := true, dead := 0 })).xReverse n
  else c

/-- The written values become the working copies of the period that starts at the boundary: those of the compensator at once,
for it finds the duty of that period now, and the period and the dead times with the boundary (R263 to R265). -/
def Core.xLoad (c : Core) (n : Nat) : Core :=
  let f (g : Field) : Nat := c.fld pgAUX g
  c.modXch n (fun x => { x with
    perNext := f (AUX_XPER_PERIOD n), duty := f (AUX_XDUTY_DUTY n), dtlhNext := f (AUX_XDT_DTLH n), dthlNext := f (AUX_XDT_DTHL n)
    tgt := f (AUX_XTGT_TGT n), kp := f (AUX_XLOOP_KP n), ki := f (AUX_XLOOP_KI n), xratio := f (AUX_XLOOP_XRATIO n)
    dutyTaken := x.dutyTaken || x.dutyNew, dutyNew := false })

/-- Soft-start ceiling `ns` after the EN write (R266). -/
def Core.xSoft (c : Core) (n ns : Nat) : Nat := min 4096 (4096 * ns / (16000 * zeroAsOne (c.fld pgAUX (AUX_XCFG_SST n))))

/-- The feedforward of R263; with no bus voltage measured the manual gives it no value (log 6). -/
def Core.xFeed (c : Core) (n : Nat) : Int × Core :=
  let x := c.xch n
  let vin := vget c.tlm.vin (c.fld pgAUX (AUX_XCFG_VINSEL n)) 0
  if !c.flag pgAUX (AUX_XCFG_FFEN n) then (0, c)
  else if vin = 0 then (c.takeWord.1.toInt, c.takeWord.2)
  else (roundDiv (4096 * x.tgt * x.xratio) (16 * vin), c)

/-- The compensator of R263 at a capture point. -/
def Core.xCompensate (c : Core) (n : Nat) : Core :=
  let x := c.xch n
  let e : Int := (x.tgt : Int) - x.vfb
  let p := c.xFeed n
  let raw : Int := p.1 + Int.tdiv (x.kp * e) 16 + x.integ
  let lim : Int := min x.duty x.ssceil
  let v := clampInt 0 lim raw
  let hold := x.forced || x.tripHold || x.ovHold || (v = lim && 0 < e) || (v = 0 && e < 0)
  p.2.modXch n (fun x => { x with
    dnext := v.toNat
    integ := if hold then x.integ else clampInt (-4096) 4096 (x.integ + Int.tdiv (x.ki * e) 256) })

/-- What the capture point takes: the written values, at once or on a reload, and the mark of a duty that missed its first
capture point (R264, R265). -/
def Core.xReload (c : Core) (n : Nat) : Core :=
  if c.flag pgAUX (AUX_CTRL_RLD n) then (c.xLoad n).setFld pgAUX (AUX_CTRL_RLD n) 0
  else if !c.flag pgAUX (AUX_XCFG_RLDMODE n) then c.xLoad n
  else if (c.xch n).dutyNew && !(c.xch n).dutyMiss then
    ((c.modXch n (fun x => { x with dutyMiss := true })).setFld pgAUX (AUX_XMON_LATE n) 1).raise pgAUX 26
  else c

/-- The feedback code is shown and the soft start moves, `ns` after the EN write (R263, R266). -/
def Core.xShow (c : Core) (n vfb ns : Nat) : Core :=
  let soft := c.xSoft n ns
  (c.setFld pgAUX (AUX_XMON_VFB n) (min 4095 vfb)).modXch n (fun x => { x with
    vfb := min 4095 vfb
    ssceil := match x.st with | .start => soft | .run => 4096 | _ => 0
    st := if x.st = .start && soft = 4096 then .run else x.st })

/-- The duty of the next period: the host's below the ceiling, or the compensator's (R262, R263). -/
def Core.xNext (c : Core) (n : Nat) : Core :=
  if c.flag pgAUX (AUX_XCFG_MODE n) then c.xCompensate n
  else c.modXch n (fun x => { x with dnext := min x.duty x.ssceil })

/-- A capture point, `ns` after the EN write, with the feedback code of the period (R262 to R266). -/
def Core.xCapture (c : Core) (n vfb ns : Nat) : Core := ((c.xReload n).xShow n vfb ns).xNext n

/-- A write of Xn_DUTY: held at 4,096, and watched to its first capture point (R262, R265). -/
def Core.xWriteDuty (c : Core) (n v : Nat) : Core :=
  ((c.setFld pgAUX (AUX_XDUTY_DUTY n) (min 4096 v)).setFld pgAUX (AUX_XMON_LATE n) 0).modXch n
    (fun x => { x with dutyNew := true, dutyMiss := false })

/-- A write of Xn_FORCE (R276). -/
def Core.xWriteForce (c : Core) (n : Nat) (w : Word) : Core :=
  if getBits w 0 3 = 7 then c.raise pgAUX 25
  else
    let c := c.setReg pgAUX (0x38 + 32 * n) (BitVec.ofNat 32 (getBits w 0 3))
    let c := c.modXch n (fun x => { x with forcePend := true })
    if (c.xch n).st = .off then
      let c := (c.xTakeForce n).xRow n
      if (c.xch n).forced then c.xForceGates n else c
    else c

/-! ## Events (R267, R268, R270, R271, R273) -/

/-- 16 µs in RUN with neither side asserted (R267). -/
def Core.xGood (c : Core) (n us : Nat) : Core :=
  if (c.xch n).st = .run && 16 ≤ us && !c.cmpHi (42 + n) && !c.cmpLo (42 + n) then c.setLevel pgAUX n true else c

/-- The LO side has stayed asserted for `us` in RUN (R270). -/
def Core.xUnder (c : Core) (n us : Nat) : Core :=
  if (c.xch n).st = .run && c.cmpLo (42 + n) && c.fld pgAUX (AUX_XCFG_UVDLY n) ≤ us && !c.stat pgAUX (8 + n) then
    (((c.setStat pgAUX (8 + n) true).raise pgAUX (8 + n)).setLive 0x1A (mkAddr 7 n) true).send 0x1A 0 (mkAddr 7 n)
  else c

/-- The overcurrent logic writes ENn to 0, and a channel that switches goes to OFF with both gates low at once (R271). -/
def Core.xOcOff (c : Core) (n : Nat) : Core :=
  let c := c.setFld pgAUX (AUX_CTRL_EN n) 0
  if (c.xch n).runs then
    (c.modGate n (fun x => ({ x with tripHold := x.tripHold && c.tripped (8 + n) } : AuxCh).gatesEnd)).xToOff n
  else c

/-- XOCN limited periods in a row: OFF at once, ENn written 0, XOC (R271). -/
def Core.xOver (c : Core) (n : Nat) : Core :=
  let k := c.fld pgAUX (AUX_XCFG_XOCN n)
  if (c.xch n).runs && k ≠ 0 && k ≤ (c.xch n).limRow then
    ((c.xOcOff n).raise pgAUX (12 + n)).send 0x1B 0 (mkAddr 7 n)
  else c

/-- What a side of C42 to C49 does beside its level (R267, R268, R271, R272). -/
def Core.xSide (c : Core) (i : Nat) (hi b : Bool) : Core :=
  if 42 ≤ i && i < 46 then
    let n := i - 42
    let c := c.xSync n
    if hi && b && (c.xch n).runs then ((c.xOv n).raise pgAUX (4 + n)).send 0x19 0 (mkAddr 7 n) else c
  else if 46 ≤ i && i < 50 && b then
    if hi then c.xCut (i - 46) else c.xReverse (i - 46)
  else c

/-- The fixed paths of the channels take the sides of C42 to C49 as they stand, as levels (R226, R267, R268, R271, R272). -/
def Core.xSides (c : Core) : Core :=
  (List.range 4).foldl (fun (c : Core) n => ((((c.xSync n).xOv n).xCut n).xReverse n)) c

/-- The trip state of an aux group ends on a channel that does not switch: no boundary is waited for (R273, R274). -/
def Core.xTripEnd (c : Core) (n : Nat) : Core :=
  let c := (c.modXch n (fun x => { x with tripHold := false })).xRow n
  if (c.xch n).forced then c.xForceGates n else c

/-- An aux group in its trip state holds its channel's gates at once; every change of the trips is followed by this
(R273). -/
def Core.xTrips (c : Core) : Core :=
  (List.range 4).foldl (fun (c : Core) n =>
    if c.tripped (8 + n) then (c.modXch n (fun x => { x with tripHold := true })).xRow n
    else if (c.xch n).tripHold && !(c.xch n).runs then c.xTripEnd n
    else c) c

/-! ## The fan (R277, R278) -/

/-- The fan runs at FSAFE: the DEVICE or GRAVE safe state, and full freeze from its step 3 (R277, R440). -/
def State.fanSafe (s : State) : Bool := s.core.stat pgFLT 3 || s.pw.grave || s.core.rpr.allMid

/-- The stall's level falls, and RPM shows the latest revolution again (R278). -/
def Core.fanUnstall (c : Core) : Core :=
  if c.stat pgAUX 24 then ((c.setLevel pgAUX 24 false).setLive 0x1C 0 false).setFld pgAUX AUX_FANTACH_RPM c.aux.rpm else c

/-- FAN_DUTY as a fan period that starts now has captured it 10 ns, four periods, before: writes since then count for the
following one (R265, R277). -/
def Core.fanCaptured (c : Core) : Nat :=
  match (c.aux.fanOlds.filter (fun p => c.time.toNat ≤ p.1 + 4)).getLast? with
  | some p => p.2
  | none => c.fld pgAUX AUX_FANDUTY_DUTY

/-- A write of FAN_DUTY: the value that it replaces is kept for 10 ns (R277). -/
def Core.fanWritten (c : Core) (old : Nat) : Core :=
  { c with aux := { c.aux with fanOlds := (c.time.toNat, old) :: c.aux.fanOlds.filter (fun p => c.time.toNat ≤ p.1 + 4) } }

/-- FANPWM: none while it is released, otherwise its level in the present fan period (R277). -/
def State.fanPin (s : State) : Option Bool :=
  let c := s.core
  if !s.alive || !c.flag pgAUX AUX_CTRL_FANEN then none
  else
    let active : Bool := 256 * (c.time.toNat - c.aux.fanStart) < 50 * c.aux.fanCur * c.fld pgAUX AUX_FANCFG_FPER
    some (active = c.flag pgAUX AUX_FANCFG_POL)

/-- A fan period starts (R277). -/
def State.fanPeriod (s : State) : State :=
  let d := if s.fanSafe then s.core.fld pgAUX AUX_FANCFG_FSAFE else s.core.fanCaptured
  s.onCore (fun c =>
    let c := { c with aux := { c.aux with fanCur := d, fanStart := c.time.toNat } }
    if d = 0 then c.fanUnstall else c)

/-- The period of a revolution that ends at the newest edge; its RPM is open when it takes 0 µs (R278, log 6). -/
def Core.fanMeasure (c : Core) : Core :=
  match c.aux.tach[zeroAsOne (c.fld pgAUX AUX_FANCFG_PPR)]? with
  | none => c
  | some t =>
    let p := min 0xFFFF ((c.time.toNat - t) / 400)
    let c := c.setFld pgAUX AUX_FANTACH_PERIOD p
    if p = 0 then c.freeFld pgAUX AUX_FANTACH_RPM else c.setFld pgAUX AUX_FANTACH_RPM (60000000 / p)

/-- A filtered tach edge at the present device time (R278). -/
def Core.fanTach (c : Core) : Core :=
  (({ c with aux := { c.aux with tach := (c.time.toNat :: c.aux.tach).take 16 } } : Core).fanUnstall).fanMeasure

/-- No edge for `ms` (R278). -/
def Core.fanStall (c : Core) (ms : Nat) : Core :=
  let t := c.fld pgAUX AUX_FANSTALL_STALLT
  if c.flag pgAUX AUX_CTRL_FANEN && 0 < c.aux.fanCur && t ≠ 0 && t ≤ ms && !c.stat pgAUX 24 then
    let c := { c with aux := { c.aux with rpm := c.fld pgAUX AUX_FANTACH_RPM } }
    (((c.setLevel pgAUX 24 true).setLive 0x1C 0 true).setFld pgAUX AUX_FANTACH_RPM 0).send 0x1C 0 0
  else c

/-- A write of AUX_CTRL: enables, reload requests and the fan (R264, R266, R277). -/
def Core.auxCtrl (c : Core) (w : Word) : Core :=
  let c := (List.range 4).foldl (fun (c : Core) n =>
    let c := c.xWriteEn n (bitOf w n)
    if bitOf w (4 + n) then c.setFld pgAUX (AUX_CTRL_RLD n) 1 else c) c
  let c := c.setFld pgAUX AUX_CTRL_FANEN (getBits w 8 1)
  if bitOf w 8 then c else c.fanUnstall

/-- AUX_CTRL.PRST: every channel to OFF with both gates low at once (R280). -/
def Core.auxPageReset (c : Core) : Core :=
  let c := c.fanUnstall.resetPage pgAUX (fun _ => false)
  let c := { c with aux := { c.aux with fanOlds := [], rpm := 0 } }
  let c := (List.range 4).foldl (fun (c : Core) n =>
    let c := c.modGate n (fun x => { (x.ends .off (c.tripped (8 + n))).gatesEnd with
      limited := false, dutyNew := false, dutyMiss := false, dutyTaken := false })
    (((c.xSetForced n false).xRow n).xSync n)) c
  c.setReg pgAUX 0x0C (c.reg pgAUX 0x0C &&& c.reg pgAUX 0x08)

end Sys2Proof.Machine
end

