-- ==== Sys2Proof/Machine/Command.lean ====
section
/-! DEFINITION. The command engine: the load-side buses, admission and departure, reading, checking and applying items,
votes, delivery, flushes and resets (R135 to R175). -/
namespace Sys2Proof.Machine

/-! ## Addresses and admission (R137 to R141) -/

/-- Dynamic addresses in the order they are given (R137). -/
def daList : List Nat := ((List.range 0x76).map (· + 8)).filter (fun a => !([0x3E, 0x5E, 0x6E, 0x76, 0x7A, 0x7C].contains a))

/-- Dynamic addresses held on bus `b`. -/
def Core.daUsed (c : Core) (b : Nat) : List Nat :=
  (c.cmd.ctxs.toList.filter (fun x => x.st = 1 && x.bus = b)).map (·.da) ++
  (c.cmd.ovf.filter (fun x => x.bus = b)).map (·.da) ++ (c.bus b).refused

/-- The lowest free dynamic address of bus `b`. -/
def Core.freeDa (c : Core) (b : Nat) : Option Nat := daList.find? (fun a => !(c.daUsed b).contains a)

/-- HST_STAT.DAFULL follows the buses' addresses (R137, R176). -/
def Core.syncDa (c : Core) : Core :=
  c.setLevel pgHST 24 ([0, 1].any (fun b => (c.bus b).up && (c.freeDa b).isNone))

/-- The context that a dynamic address of bus `b` holds; 64 for CTX_OVF. -/
def Core.ctxOfDa (c : Core) (b da : Nat) : Option Nat :=
  match (List.range 64).find? (fun i => (c.ctx i).st = 1 && (c.ctx i).bus = b && (c.ctx i).da = da) with
  | some i => some i
  | none => if c.cmd.ovf.any (fun x => x.bus = b && x.da = da) then some 64 else none

/-- CMD_STAT.OVF and the live level of its source follow the requesters on CTX_OVF (R153). -/
def Core.syncOvf (c : Core) : Core :=
  let on := c.cmd.ovf ≠ []
  (c.setLevel pgCMD 0 on).setLive 0x30 (mkAddr 0 0) on

/-- A private or overflow requester's item, phase 0 excluded. -/
def Item.of (x : Item) (ctx b da : Nat) : Bool := x.phase ≠ 0 && x.ctx = ctx && (ctx < 64 || (x.bus = b && x.da = da))

/-- Tags of items that satisfy a condition, in the order their items were read. -/
def Core.tagsWhere (c : Core) (p : Item → Bool) : List Nat :=
  let l := (List.range 128).filter (fun t => p (c.item t))
  l.mergeSort (fun a b => (c.item a).seq ≤ (c.item b).seq)

/-- Everything a bus still holds for a requester is dropped: reads in progress or to be tried again, and polls. -/
def Bus.forget (x : Bus) (ctx da : Nat) : Bus :=
  let mine (p : Nat × Nat) : Bool := p.1 = ctx && p.2 = da
  { x with
    reading := x.reading.filter (fun p => !mine (p.1, p.2.1))
    rereads := x.rereads.filter (fun r => !mine (r.ctx, r.da))
    nackReads := x.nackReads.filter (fun p => !mine (p.1, p.2.1))
    polls := x.polls.filter (fun p => p.1 ≠ da) }

/-- The records of a bus that satisfy a condition leave its delivery queue for ORP, in order (R166). -/
def Core.orphanQueue (c : Core) (b : Nat) (p : Item → Bool) : Core :=
  let q := (c.bus b).queue ++ (c.bus b).waitq
  let out := q.filter (fun t => p (c.item t))
  let head := match (c.bus b).queue with | t :: _ => out.contains t | [] => false
  let c := c.modBus b (fun x => { x with
    queue := x.queue.filter (fun t => !out.contains t)
    waitq := x.waitq.filter (fun t => !out.contains t)
    attempts := if head then 0 else x.attempts })
  (out.foldl (fun c t => c.toOrphan t) c).pullQueue b

/-- A requester departs: address and votes first, then its items that have not been applied, its records, and with the new
winners its items that wait for a rail (R166). An overflow requester leaves the vote of CTX_OVF. -/
def Core.depart (c : Core) (b ctx da : Nat) : Core :=
  let mine (x : Item) : Bool := x.of ctx b da
  let c := (c.modBus b (fun x => x.forget ctx da))
  let c := { c with cmd := { c.cmd with tags := c.cmd.tags.map (fun x => if mine x then { x with gone := true } else x) } }
  let c :=
    if ctx < 64 then c.modCtx ctx (fun x => { x with st := 2, pending := 0, votes := Vector.replicate 8 none })
    else ({ c with cmd := { c.cmd with ovf := c.cmd.ovf.filter (fun x => !(x.bus = b && x.da = da)) } }).syncOvf
  let c := (c.tagsWhere (fun x => mine x && (x.phase = 1 || x.phase = 2))).foldl
    (fun c t => c.failItem t stFAILED cdDEPARTED true) c
  let c := c.orphanQueue b (fun x => mine x)
  let c := if ctx < 64 then c.rearbAll else c
  let c := if ctx < 64 && c.inflight ctx = 0 then c.modCtx ctx (fun _ => {}) else c
  (c.raise pgCMD 6).syncDa

/-- A target that has just been given address `da` is admitted or refused (R138); a live context of the same PID departs
first (R139). -/
def Core.admitTarget (c : Core) (b da : Nat) (t : Target) : Core :=
  if !(t.bcr.testBit 1 && t.bcr.testBit 2 && t.mrlOk) then
    (c.modBus b (fun x => { x with refused := x.refused ++ [da] })).raise pgHST (22 + b)
  else
    match (List.range 64).find? (fun i => (c.ctx i).st = 0) with
    | some i => c.modCtx i (fun _ =>
        { st := 1, bus := b, da := da, pid := t.pid % 2 ^ 48, bcr := t.bcr % 256, dcr := t.dcr % 256 })
    | none =>
      let first := c.cmd.ovf = []
      let c := ({ c with cmd := { c.cmd with ovf := c.cmd.ovf ++ [({ bus := b, da := da, pid := t.pid % 2 ^ 48 } : OvfReq)] } }).syncOvf
      if first then c.send 0x30 0 (mkAddr 0 0) else c

/-- ENTDAA gives each target in turn the lowest free address and admits it (R137, R138, R139). A live context of the bus that
holds the PID found departs whatever has started the ENTDAA, and an overflow requester stays (DESIGN CHOICE, log 94). -/
def Core.entdaa (c : Core) (b : Nat) (hj : Bool) (ts : List Target) : Core :=
  (ts.foldl (fun c (t : Target) =>
    let c := match (List.range 64).find? (fun i => (c.ctx i).st = 1 && (c.ctx i).bus = b && (c.ctx i).pid = t.pid % 2 ^ 48) with
      | some i => c.depart b i (c.ctx i).da
      | none => c
    match c.freeDa b with
    | none => c
    | some da =>
      let was := (c.bus b).refused.length
      let c := c.admitTarget b da t
      if hj && (c.bus b).refused.length = was then c.raise pgHST (16 + b) else c) c).syncDa

/-- Every requester of bus `b` departs, and every address is free. The rotations of the bus stay where they stand (DESIGN CHOICE,
log 113). -/
def Core.departAll (c : Core) (b : Nat) : Core :=
  let c := (List.range 64).foldl (fun c i => if (c.ctx i).st = 1 && (c.ctx i).bus = b then c.depart b i (c.ctx i).da else c) c
  let c := (c.cmd.ovf.filter (fun x => x.bus = b)).foldl (fun c x => c.depart b 64 x.da) c
  (c.modBus b (fun x => { x with refused := [], reading := none, rereads := [], nackReads := [], polls := [], flushed := false,
                                 rstDue := false, daaDue := none, up := false })).syncDa

/-- A transfer may begin on bus `b`: no read is in progress on it, and no reset of the engine waits for one (R19, R145, R170). -/
def Core.busIdle (c : Core) (b : Nat) : Bool := (c.bus b).reading.isNone && !c.cmd.resetDue

/-- Bus `b` comes up with the targets that answer (R137). -/
def Core.busUp (c : Core) (b : Nat) (ts : List Target) : Core :=
  if (c.bus b).up || !c.busIdle b then c
  else (c.modBus b (fun x => { x with up := true })).entdaa b false ts

/-- Bus `b` is reset up to its new bring-up: a read in progress first runs to its end (R140). -/
def Core.busReset (c : Core) (b : Nat) : Core :=
  if (c.bus b).reading.isSome then c.modBus b (fun x => { x with rstDue := true }) else c.departAll b

/-- ENTDAA of HST_I3CCTLb.DAA on a bus that is up; a read in progress first runs to its end, and none begins before a reset of
the engine that waits, which brings the bus up anew (R140, R145, R170). -/
def Core.runDaa (c : Core) (b : Nat) (ts : List Target) : Core :=
  if !(c.bus b).up || c.cmd.resetDue then c
  else if (c.bus b).reading.isSome then c.modBus b (fun x => { x with daaDue := some ts })
  else c.entdaa b false ts

/-- An acknowledged hot-join request: ENTDAA and admission (R139, R141). -/
def Core.hotJoin (c : Core) (b : Nat) (ts : List Target) : Core :=
  if (c.bus b).up && c.flag pgHST (HST_I3CCFG_HJEN b) && (c.freeDa b).isSome && c.busIdle b then c.entdaa b true ts
  else c

/-- An in-band interrupt from address `da` with its mandatory data byte, which arrives while the bus is idle (R141, R142,
R145). -/
def Core.inBand (c : Core) (b da : Nat) (mdb : Byte) : Core :=
  if !(c.bus b).up || (c.bus b).reading.isSome || !c.flag pgHST (HST_I3CCFG_IBIEN b) then c
  else match c.ctxOfDa b da with
    | none => c
    | some i =>
      let k := mdb.toNat
      if k = 0 || 32 ≤ k then c.raise pgHST (20 + b)
      else if i < 64 then c.modCtx i (fun x => { x with pending := k })
      else { c with cmd := { c.cmd with ovf := c.cmd.ovf.map (fun x => if x.bus = b && x.da = da then { x with pending := k } else x) } }

/-! ## Reading (R143 to R145) -/

/-- Retries (R164). -/
def Core.retries (c : Core) : Nat := min 8 (zeroAsOne (c.fld pgCMD CMD_CFG_RETRY))

/-- PENDING of a requester. -/
def Core.pendingOf (c : Core) (b ctx da : Nat) : Nat :=
  if ctx < 64 then (c.ctx ctx).pending
  else ((c.cmd.ovf.find? (fun x => x.bus = b && x.da = da)).map (·.pending)).getD 0

def Core.setPending (c : Core) (b ctx da k : Nat) : Core :=
  if ctx < 64 then c.modCtx ctx (fun x => { x with pending := k })
  else { c with cmd := { c.cmd with ovf := c.cmd.ovf.map (fun x => if x.bus = b && x.da = da then { x with pending := k } else x) } }

/-- A read of a requester has been answered with NACK and waits to be tried again. -/
def Core.nackWaits (c : Core) (b ctx da : Nat) : Bool := (c.bus b).nackReads.any (fun p => p.1 = ctx && p.2.1 = da)

/-- Reads in progress on both buses, and those of them for a context. -/
def Core.readsOn (c : Core) : Nat := ([0, 1].filter (fun b => (c.bus b).reading.isSome)).length
def Core.readsOf (c : Core) (ctx : Nat) : Nat :=
  ([0, 1].filter (fun b => match (c.bus b).reading with | some (i, _, _) => i = ctx | none => false)).length

/-- The three conditions of R144 for a read of a requester. A read in progress keeps a tag of the free list and a place among
the 8 of its context for its item, so that it finds them at its end (DESIGN CHOICE, log 96). -/
def Core.readable (c : Core) (b ctx da : Nat) : Bool :=
  0 < c.pendingOf b ctx da && c.inflight ctx + c.readsOf ctx < 8 && c.readsOn < c.cmd.free.length

/-- The overflow requester of bus `b` whose turn it is: the next in rising address after the one last read (R153). -/
def Core.nextOvf (c : Core) (b : Nat) : Option Nat :=
  let l := ((c.cmd.ovf.filter (fun x => x.bus = b && c.readable b 64 x.da && !c.nackWaits b 64 x.da)).map (·.da)).mergeSort (· ≤ ·)
  match l.find? (fun a => (c.bus b).lastOvf < a) with
  | some a => some a
  | none => l.head?

/-- The requester whose item bus `b` reads next, taking the contexts in turn (R144, R145, R153). -/
def Core.nextRead (c : Core) (b : Nat) : Option (Nat × Nat) :=
  ((List.range 65).map (fun k => ((c.bus b).lastCtx + 1 + k) % 65)).findSome? (fun i =>
    if i < 64 then
      (if (c.ctx i).st = 1 && (c.ctx i).bus = b && c.readable b i (c.ctx i).da && !c.nackWaits b i (c.ctx i).da then
        some (i, (c.ctx i).da) else none)
    else (c.nextOvf b).map (fun da => (64, da)))

/-- Item reads are on, no reset waits and the bus is free for one; a record that waits for its first attempt goes before
(R145, R170, R179). -/
def Core.readSlot (c : Core) (b : Nat) : Bool :=
  (c.bus b).up && c.busIdle b && ((c.bus b).queue = [] || 0 < (c.bus b).attempts) && c.flag pgCMD CMD_CTRL_RXEN

/-- The reread that comes before any other item read of the bus; one that was answered with NACK waits for its retry (R144). -/
def Core.nextReread (c : Core) (b : Nat) : Option Reread := (c.bus b).rereads.find? (fun r => !c.nackWaits b r.ctx r.da)

/-- The item read that bus `b` would begin: context, address, and whether it is a reread (R143 to R145). -/
def Core.dueRead (c : Core) (b : Nat) : Option (Nat × Nat × Bool) :=
  if !c.readSlot b then none
  else match c.nextReread b with
    | some r => if c.readable b r.ctx r.da then some (r.ctx, r.da, true) else none
    | none => (c.nextRead b).map (fun p => (p.1, p.2, false))

/-- An item read begins: a reread that waits, or the next item of the rotation (R143 to R145). -/
def Core.itemRead (c : Core) (b : Nat) : Core :=
  match c.dueRead b with
  | none => c
  | some (i, da, true) => (c.modBus b (fun x => { x with reading := some (i, da, true) })).incSat pgHST (HST_I3CCNT_RERDCNT b) 1
  | some (i, da, false) => c.modBus b (fun x => { x with
      reading := some (i, da, false), lastCtx := i, lastOvf := if i = 64 then da else x.lastOvf })

/-- An item read that was answered with NACK is tried again 125 µs later, the longest waiting first, and after any reread of
another requester (R144, R165). The retry of a reread counts no further reread (DESIGN CHOICE, log 95), and the rotations of
contexts and of overflow requesters go on from the one read in the wait (DESIGN CHOICE, log 113). -/
def Core.itemReadRetry (c : Core) (b : Nat) : Core :=
  match (c.bus b).nackReads with
  | [] => c
  | (i, da, _) :: _ =>
    if !c.readSlot b || (c.nextReread b).isSome || !c.readable b i da then c
    else
      let re := (c.bus b).rereads.any (fun r => r.ctx = i && r.da = da)
      c.modBus b (fun x => { x with reading := some (i, da, re) })

/-- An address that a requester of bus `b` answered with NACK (R164, R165). -/
def Core.countNack (c : Core) (b : Nat) : Core := (c.raise pgHST (18 + b)).incSat pgHST (HST_I3CCNT_NACKCNT b) 1

/-! ## A tag and its checks (R147, R149, R150, R173) -/

/-- Byte `i` of an item as read; a byte that was not read is free (log 6). -/
def Core.readByte (c : Core) (l : List Byte) (i : Nat) : Nat × Core :=
  match l[i]? with
  | some b => (b.toNat, c)
  | none => (c.takeWord.1.toNat % 256, c.takeWord.2)

/-- The next tag is taken for an item that has been read (R144, R150). An item tagged without checks, for which `trust` is false,
is taken as not authenticated, and the rail of one too short for its byte 3 as 0 (DESIGN CHOICE, log 114). -/
def Core.newTag (c : Core) (b ctx da : Nat) (l : List Byte) (trust : Bool) : Nat × Core :=
  let t := c.cmd.free.headD 0
  let o := c.readByte l 1
  let q := o.2.readByte l 2
  let c := q.2
  let n (i k : Nat) : Nat := leBytes ((l.drop i).take k)
  let pid := if ctx < 64 then (c.ctx ctx).pid else ((c.cmd.ovf.find? (fun x => x.bus = b && x.da = da)).map (·.pid)).getD 0
  let x : Item :=
    { phase := 1, ctx := ctx, bus := b, da := da, pid := pid, opc := o.1, rqid := q.1, rail := n 3 1 % 16,
      auth := trust && (n 0 1).testBit 5, arg0 := n 4 2, arg1 := n 6 2, arg2 := n 8 4, counter := n 16 4, key := n 20 1 % 4,
      seq := c.cmd.seq }
  let c := { c.modItem t (fun _ => x) with cmd := { (c.modItem t (fun _ => x)).cmd with free := c.cmd.free.drop 1, seq := c.cmd.seq + 1 } }
  let c := (c.incWrap pgCMD CMD_ITEMS_COUNT 1).setFld pgCMD CMD_TAGS_MINFREE (min (c.fld pgCMD CMD_TAGS_MINFREE) c.cmd.free.length)
  (t, (c.setPending b ctx da (c.pendingOf b ctx da - 1)).syncTags)

/-- A reserved bit or byte of an item is not 0, or FMT is not 0b01 (R146, R147). -/
def badFormat (l : List Byte) : Bool :=
  let n (i : Nat) : Nat := (byteAt l i).toNat
  n 0 / 64 ≠ 1 || n 0 % 32 ≠ 0 || 16 ≤ n 3 || n 12 ≠ 0 || n 13 ≠ 0 || n 14 ≠ 0 ||
  ((n 0).testBit 5 && (4 ≤ n 20 || n 21 ≠ 0 || n 22 ≠ 0 || n 23 ≠ 0))

/-- Words that hold an AU field: page × 256 + offset (R149, R395). -/
def auWords : List Nat := [pgSEC * 256 + 0x4C, pgNVM * 256 + 0x2C, pgNVM * 256 + 0x74]

/-- A slew code, and a target code, in range (R149). -/
def rateOk (x : Item) : Bool := 4 ≤ x.arg1 % 1024 && x.arg1 % 1024 ≤ 640
def codeOk (x : Item) : Bool := 0x190 ≤ x.arg0 % 4096 && x.arg0 % 4096 ≤ 0xE10

/-- Status and code of the argument check of R149 that an item fails; none when it passes. -/
def Core.argFails (c : Core) (x : Item) : Option (Nat × Nat) :=
  if opOnRail x.opc && 8 ≤ x.rail then some (stFAILED, cdBADARG)
  else if (x.opc = opVSET || x.opc = opVSETA) && !(rateOk x && codeOk x) then some (stFAILED, cdBADARG)
  else if x.opc = opVREL && !rateOk x then some (stFAILED, cdBADARG)
  else if x.opc = opAUWR && !auWords.contains x.arg0 then some (stFAILED, cdBADARG)
  else if opOnRail x.opc &&
      (!(if x.bus = 0 then c.flag pgCMD (CMD_RAIL_LB0EN x.rail) else c.flag pgCMD (CMD_RAIL_LB1EN x.rail)) ||
       (x.ctx = 64 && !c.flag pgCMD (CMD_RAIL_OVFEN x.rail))) then some (stFAILED, cdDENIED)
  else if x.opc = opVSET && c.fld pgCMD (CMD_RAIL_VOPEN x.rail) < x.arg0 % 4096 then some (stREFUSED, cdNEEDAUTH)
  else none

/-- REPLAY (kind 0) or BADTAG (kind 1) (R173, R394). -/
def Core.authFail (c : Core) (x : Item) (kind : Nat) : Core :=
  let c := (c.raise pgCMD 3).incSat pgCMD CMD_AUTHCNT_FAIL 1
  (c.send 0x33 kind (mkAddr 9 (x.ctx + 256 * x.key))).secFailure x.ctx x.key

/-- The authentication checks of R173 on the item of tag `t`, whose bytes are `l`: the refusal code, or none when the item
passes; and the state they leave. -/
def State.authCheck (s : State) (t : Nat) (l : List Byte) : Option Nat × Core :=
  let c := s.core
  let x := c.item t
  let last := c.lastCtr x.key
  if !(x.auth || opCritical x.opc) then (none, c)
  else if x.ctx = 64 then (some cdOVFCTX, c)
  else if opCritical x.opc && !x.auth then (some cdNEEDAUTH, c)
  else if !(c.fld pgCMD CMD_KEYMASK_KEYS).testBit x.key || !s.keyUsable x.key then (some cdKEYSLOT, c)
  else
    let c := c.modItem t (fun y => { y with signed := true })
    if c.stat pgSEC 0 then (some cdRATELIM, c)
    else if last = 0xFFFFFFFF then (some cdCTREND, c)
    else if x.counter ≤ last then (some cdREPLAY, c.authFail x 0)
    else
      let c := c.countMac
      if s.keyTag x.key (s.uidBytes ++ l.take 24) ≠ l.drop 24 then (some cdBADTAG, c.authFail x 1)
      else if c.ceiling x.key < x.counter then (some cdCTREND, c.overCeiling x.key x.counter)
      else (none, ((c.takeCounter x.key x.counter).secPass).incSat pgCMD CMD_AUTHCNT_PASS 1)

/-- The checks of an item that has been read whole: it fails and completes, or waits to be applied (R147, R149, R151,
R173). -/
def State.checkItem (s : State) (t : Nat) (l : List Byte) : State :=
  let x := s.core.item t
  if badFormat l then s.onCore (fun c => c.failItem t stFAILED cdBADFMT true)
  else if !opKnown x.opc then s.onCore (fun c => c.failItem t stFAILED cdBADOPC true)
  else match s.authCheck t l with
    | (some code, c) => { s with core := c.failItem t stREFUSED code true }
    | (none, c) =>
      match c.argFails x with
      | some (st, code) => { s with core := c.failItem t st code true }
      | none => { s with core := c.modItem t (fun y => { y with phase := 2 }) }

/-! ## Flush and reset (R169, R170) -/

/-- Every uncompleted item of a context completes ABORTED_BY_FLUSH; a read in progress is marked (R169). -/
def Core.flushCtx (c : Core) (ctx : Nat) : Core :=
  let open_ (x : Item) : Bool := x.phase ≠ 0 && x.ctx = ctx && x.done.isNone
  let c := (c.tagsWhere open_).foldl (fun c t =>
    if (c.item t).phase = 3 then c.completeItem t stABORTFLUSH 0 else c.failItem t stABORTFLUSH 0 true) c
  [0, 1].foldl (fun c b => match (c.bus b).reading with
    | some (i, _, _) => if i = ctx then c.modBus b (fun x => { x with flushed := true }) else c
    | none => c) c

/-- CMD_FLUSH.GO for a context; 65 to 127 name none (R169). -/
def Core.flushGo (c : Core) (ctx : Nat) : Core := if ctx ≤ 64 then (c.flushCtx ctx).raise pgCMD 7 else c

/-- CMD_CTRL.FLUSHALL (R169). -/
def Core.flushAll (c : Core) : Core := ((List.range 65).foldl (fun c i => c.flushCtx i) c).raise pgCMD 7

/-- Every item that holds a tag is marked, so that its record goes to ORP. -/
def Core.orphanAll (c : Core) : Core :=
  { c with cmd := { c.cmd with tags := c.cmd.tags.map (fun (x : Item) => if x.phase = 0 then x else { x with gone := true }) } }

/-- Every vote ends (R170 step 2). -/
def Core.endVotes (c : Core) : Core :=
  { c with cmd := { c.cmd with
      ovfVotes := Vector.replicate 8 none
      ctxs := c.cmd.ctxs.map (fun (x : Ctx) => { x with votes := Vector.replicate 8 none }) } }

/-- Tags, contexts and the free list at their reset (R170 step 3). -/
def Core.clearTags (c : Core) : Core :=
  { c with cmd := { c.cmd with
      ctxs := Vector.replicate 64 {}, tags := Vector.replicate 128 {}, free := List.range 128, seq := 0, checks := [] } }

/-- The reset of the command engine proper (R170): items in flight, votes, pages and free list, buses. A record that waits
for delivery goes to ORP with the status it has (DEDUCED, log 10). -/
def Core.cmdResetNow (c : Core) : Core :=
  let c := c.orphanAll
  let c := (c.tagsWhere (fun x => x.phase ≠ 0 && x.done.isNone)).foldl (fun (c : Core) t =>
    if (c.item t).phase = 3 then c.completeItem t stFAILED cdCMDRESET else c.failItem t stFAILED cdCMDRESET true) c
  let c := [0, 1].foldl (fun (c : Core) b => c.orphanQueue b (fun _ => true)) c
  let c := c.endVotes.rearbAll
  let c := [0, 1].foldl (fun (c : Core) b => c.departAll b) c
  ({ c.clearTags with cmd := { c.clearTags.cmd with resetDue := false, resetPgs := [] } }).syncTags

/-- CMD_CTRL.PRST, or PRST of a context or tag page: the reset begins once the transfers in progress have ended (R170), and
until then the bit reads 1 on its page (R25). -/
def Core.cmdReset (c : Core) (pg : Nat) : Core :=
  if c.readsOn ≠ 0 then { c with cmd := { c.cmd with resetDue := true, resetPgs := pg :: c.cmd.resetPgs } } else c.cmdResetNow

/-- A reset of the command engine that waited runs once no read is in progress (R170). -/
def Core.resetIfDue (c : Core) : Core := if c.cmd.resetDue && c.readsOn = 0 then c.cmdResetNow else c

/-- What waits for a read to end goes ahead once it has: a reset of the engine; and a reset of the bus or an ENTDAA, which in a
freeze wait on for the release (R19, R140, R170). -/
def Core.afterRead (c : Core) (b : Nat) : Core :=
  let x := c.bus b
  let c := c.modBus b (fun x => { x with flushed := false })
  if c.cmd.resetDue && c.readsOn = 0 then c.cmdResetNow
  else if c.rpr.depth ≠ 0 then c
  else if x.rstDue then c.departAll b
  else match x.daaDue with
    | some ts => (c.modBus b (fun x => { x with daaDue := none })).entdaa b false ts
    | none => c

/-- On the release of a freeze, what waited on each bus goes ahead (R439). -/
def Core.busesOn (c : Core) : Core := [0, 1].foldl (fun (c : Core) b => if c.busIdle b then c.afterRead b else c) c

/-- The device's EN of bus `b` goes to 0: the transfer is abandoned, the addresses are free and every requester has
departed (R141, R166, R451); a reset that waited for that transfer runs (R170). -/
def Core.busDown (c : Core) (b : Nat) : Core := ((c.setFld pgHST (HST_I3CCFG_EN b) 0).departAll b).resetIfDue

/-! ## An item arrives (R143, R144, R165) -/

/-- An item read answered with NACK (R144, R165). -/
def Core.readNacked (c : Core) (b ctx da : Nat) : Core :=
  let mine (p : Nat × Nat × Nat) : Bool := p.1 = ctx && p.2.1 = da
  let n := (((c.bus b).nackReads.find? mine).map (·.2.2)).getD 0 + 1
  let c := (c.countNack b).modBus b (fun x => { x with nackReads := x.nackReads.filter (fun p => !mine p) ++ [(ctx, da, n)] })
  if c.retries < n then c.depart b ctx da else c

/-- A read of a requester has been answered: its retries and its reread are over, and the reread that it was, if any, is
returned. -/
def Core.readEnds (c : Core) (b ctx da : Nat) : Core :=
  c.modBus b (fun x => { x with
    nackReads := x.nackReads.filter (fun p => !(p.1 = ctx && p.2.1 = da))
    rereads := x.rereads.filter (fun r => !(r.ctx = ctx && r.da = da)) })

/-- An item that has been read whole is checked, or fails by what its read has shown, as `why` says. In observe freeze that
waits for the release (R439, R452). -/
def State.check (s : State) (t : Nat) (why : Option (Nat × Nat)) (l : List Byte) : State :=
  if s.core.rpr.depth ≠ 0 then
    s.onCore (fun c => { c with cmd := { c.cmd with checks := c.cmd.checks ++ [(t, why, l)] } })
  else
    match why with
    | some (status, code) => s.onCore (fun c => c.failItem t status code false)
    | none => s.checkItem t l

/-- The checks that have waited for the release, of the items that still stand in their phase 1 (R439, R452). -/
def State.checkHeld (s : State) : State :=
  s.core.cmd.checks.foldl (fun (s : State) p => if (s.core.item p.1).phase = 1 then s.check p.1 p.2.1 p.2.2 else s)
    (s.onCore (fun c => { c with cmd := { c.cmd with checks := [] } }))

/-- The bytes of an item, or a NACK, end the read in progress on bus `b` (R143, R144, R147, R169, R170). -/
def State.itemReceived (s : State) (b : Nat) (reply : Option (List Byte)) : State :=
  match (s.core.bus b).reading with
  | none => s
  | some (ctx, da, _) =>
    let flushed := (s.core.bus b).flushed
    let tries := (((s.core.bus b).rereads.find? (fun r => r.ctx = ctx && r.da = da)).map (·.tries)).getD 0
    let c := s.core.modBus b (fun x => { x with reading := none })
    match reply with
    | none => { s with core := (c.readNacked b ctx da).afterRead b }
    | some l =>
      let c := c.readEnds b ctx da
      if l.head? = some 0 then { s with core := (c.setPending b ctx da 0).afterRead b }
      else if flushed || c.cmd.resetDue then
        let p := c.newTag b ctx da l false
        let s := { s with core := p.2 }
        (if flushed then s.check p.1 (some (stABORTFLUSH, 0)) l else s).onCore (fun c => c.afterRead b)
      else
        let badLen := !(l.length = 16 && !(byteAt l 0).getLsbD 5) && !(l.length = 32 && (byteAt l 0).getLsbD 5)
        let badCrc := crc8 (l.take 15) ≠ byteAt l 15
        if badLen || badCrc then
          if tries < c.retries then
            { s with core := (c.modBus b (fun x => { x with rereads := x.rereads ++ [⟨ctx, da, tries + 1, badLen⟩] })).afterRead b }
          else
            let p := c.newTag b ctx da l false
            ({ s with core := p.2 }.check p.1 (some (stFAILED, if badLen then cdBADLEN else cdITEMCRC)) l).onCore
              (fun c => c.afterRead b)
        else
          let p := c.newTag b ctx da l true
          ({ s with core := p.2 }.check p.1 none l).onCore (fun c => c.afterRead b)

/-! ## Application (R152, R154 to R159, R132) -/

/-- The item of tag `t` has passed its checks, carries this opcode, and is the earliest of its context to be applied
(R152). -/
def Core.turnOf (c : Core) (t opc : Nat) : Bool :=
  let x := c.item t
  x.phase = 2 && x.opc = opc &&
  !c.cmd.tags.toList.any (fun y => y.phase = 2 && y.ctx = x.ctx && y.seq < x.seq)

/-- An item that completes DONE at once (R148). -/
def Core.applyNow (c : Core) (t opc : Nat) : Core := if c.turnOf t opc then c.completeItem t stDONE 0 else c

/-- The vote that a VSET, VSETA or VREL leaves is recorded, and arbitration run; a vote of CTX_OVF follows R154. -/
def Core.castVote (c : Core) (t : Nat) : Core :=
  let x := c.item t
  let rate := x.arg1 % 1024
  let v : Vote := ⟨x.arg0 % 4096, rate⟩
  if x.ctx = 64 then
    let hold := zeroAsOne (c.fld pgCMD CMD_CFG_OVFHOLD) * 400000
    let low := match vget c.cmd.ovfVotes x.rail none with | some (w, _) => v.code < w.code | none => false
    if x.opc = opVREL || low then c
    else ({ c with cmd := { c.cmd with ovfVotes := vmod c.cmd.ovfVotes x.rail (fun _ => some (v, c.absTime + hold)) } }).rearb x.rail rate
  else
    (c.modCtx x.ctx (fun y => { y with votes := vmod y.votes x.rail (fun _ => if x.opc = opVREL then none else some v) })).rearb x.rail rate

/-- A VSET, VSETA or VREL is applied (R154, R156, R159). -/
def Core.applyVolt (c : Core) (t opc : Nat) : Core :=
  if !c.turnOf t opc then c
  else
    let x := c.item t
    let old := c.win x.rail
    let c := c.castVote t
    let same := c.win x.rail = old
    let clamp := opc ≠ opVREL && c.fld (pgV x.rail) V_VMAX_CODE < x.arg0 % 4096
    let c := c.modItem t (fun y => { y with flags := 0x10 * b2n clamp + 0x20 * b2n same })
    if same then c.completeItem t stDONE 0
    else match (c.rail x.rail).rstate with
      | .off | .precheck | .softoff => c.completeItem t stDONE 0
      | .safe => c.completeItem t stFAILED cdRAILSAFE
      | _ => c.modItem t (fun y => { y with phase := 3 })

/-- A PHREQ is applied (R127, R132, R452). -/
def Core.applyPhreq (c : Core) (t : Nat) : Core :=
  if !c.turnOf t opPHREQ then c
  else
    let x := c.item t
    let n := x.rail
    let old := (c.rail n).ntarget
    let c := (c.setFld (pgV n) V_SHEDCFG_NREQ (x.arg0 % 256)).retarget n true
    match (c.rail n).rstate with
    | .off | .precheck | .softoff => c.completeItem t stDONE 0
    | .safe => c.completeItem t stFAILED cdRAILSAFE
    | _ =>
      let r := c.rail n
      if r.ntarget = old || (r.ntarget = r.nact && r.tstate = 0) then c.completeItem t stDONE 0
      else c.modItem t (fun y => { y with phase := 3 })

/-- An AUWR is applied: the AU field of the word is written and read back (R148, R149, R387, R395). -/
def State.applyAuwr (s : State) (t : Nat) : State :=
  if !s.core.turnOf t opAUWR then s
  else
    let x := s.core.item t
    let s :=
      if x.arg0 = pgSEC * 256 + 0x4C then s.revoke x.arg2
      else if x.arg0 = pgNVM * 256 + 0x2C then
        s.onCore (fun c => if c.fld pgNVM NVM_MINVER_MINVER ≤ x.arg2 then
          (c.setFld pgNVM NVM_MINVER_MINVER x.arg2).wantCtl (fun y => { y with minver := x.arg2 }) else c)
      else s.onCore (fun c => if x.arg2 % 2 = 1 then c.eraseLog else c)
    let back :=
      if x.arg0 = pgSEC * 256 + 0x4C then (List.range 4).foldl (fun a k => a + b2n (s.keyRev k) * 2 ^ k) 0
      else (s.core.reg (x.arg0 / 256) (x.arg0 % 256)).toNat
    s.onCore (fun c => c.finishItem t stDONE 0 true (back % 65536, back / 65536))

/-! ## Delivery (R163 to R165) -/

/-- An attempt to write the record at the head of the delivery queue of bus `b` (R164). `first` tells a first attempt from
a retry. -/
def State.recordWrite (s : State) (b : Nat) (first ack : Bool) : State :=
  let c := s.core
  match (c.bus b).queue with
  | [] => s
  | t :: rest =>
    if !(c.bus b).up || !c.busIdle b || first ≠ ((c.bus b).attempts = 0) then s
    else
      let x := c.item t
      let bytes := s.recordSent t
      let c := if first && x.signed then c.countMac else c
      let c := { c with cmd := { c.cmd with sent := (b, x.da, bytes) :: c.cmd.sent.filter (fun p => p.1 ≠ b) } }
      let c := c.modItem t (fun y => { y with phase := 5 })
      if ack then
        let c := c.modBus b (fun q => { q with queue := rest, attempts := 0 })
        { s with core := (c.freeTag t).pullQueue b }
      else
        let c := (c.countNack b).modBus b (fun q => { q with attempts := q.attempts + 1 })
        { s with core := if c.retries < (c.bus b).attempts then c.depart b x.ctx x.da else c }

/-- A record waits for its first attempt. -/
def Core.writeDue (c : Core) (b : Nat) : Bool := (c.bus b).queue ≠ [] && (c.bus b).attempts = 0

/-- A GETSTATUS poll of address `da`, and `retry` one sent again after 125 µs, once no record write and no item read of the bus
is due (R145, R165). -/
def Core.poll (c : Core) (b da : Nat) (reply : Option Word) (retry : Bool) : Core :=
  let was := ((c.bus b).polls.find? (fun p => p.1 = da)).map (·.2)
  match c.ctxOfDa b da with
  | none => c
  | some ctx =>
    if !(c.bus b).up || !c.busIdle b || c.writeDue b || (c.dueRead b).isSome || was.isSome ≠ retry ||
        (!retry && c.fld pgCMD CMD_CFG_POLL = 0) then c
    else
      let c := c.modBus b (fun x => { x with polls := x.polls.filter (fun p => p.1 ≠ da) })
      match reply with
      | some _ => c
      | none =>
        let n := was.getD 0 + 1
        let c := (c.countNack b).modBus b (fun x => { x with polls := x.polls ++ [(da, n)] })
        if c.retries < n then c.depart b ctx da else c

/-- The hold time of CTX_OVF's vote on rail `n` runs out: a vote that has been refreshed meanwhile stays until its own hold has
passed (R154; log 81). -/
def Core.ovfExpire (c : Core) (n : Nat) : Core :=
  match vget c.cmd.ovfVotes n none with
  | none => c
  | some (_, ends) =>
    if c.absTime < ends then c
    else ({ c with cmd := { c.cmd with ovfVotes := vmod c.cmd.ovfVotes n (fun _ => none) } }).rearb n 0

/-- ORP_POP.POP: the head leaves the queue (R167). -/
def Core.orpPop (c : Core) : Core := { c with cmd := { c.cmd with orp := c.cmd.orp.drop 1 } }

end Sys2Proof.Machine
end

