-- ==== Sys2Proof/Machine/Lenulink.lean ====
section
/-! DEFINITION. The ring: bring-up, tokens and VC0 orders of owner and lender, summaries, drops, and the effect of each
message (R183 to R219). What this device receives reaches it as a command; what it sends is recorded in the state. -/
namespace Sys2Proof.Machine

/-! ## Ring state -/

/-- Ring ID of this device, and the ring state (R196, R219). -/
def Core.ringId (c : Core) : Nat := c.fld pgLNK LNK_ID_DEVID
def Core.rstate (c : Core) : Nat := c.fld pgLNK LNK_ID_RSTATE
def Core.isMaster (c : Core) : Bool := c.flag pgHST HST_STRAP_MSTR

/-- LNK_CTRL.EN. -/
def Core.ringOn (c : Core) : Bool := c.flag pgLNK LNK_CTRL_EN

/-- The ring state changes; STAT.OPEN and STAT.BROKEN follow it (R218). -/
def Core.setRstate (c : Core) (v : Nat) : Core :=
  let c := c.setFld pgLNK LNK_ID_RSTATE v
  let c := (c.setLevel pgLNK 0 (v = 4)).setLevel pgLNK 3 (v = 5)
  if v = 5 then c else { c with flt := { c.flt with live := c.flt.live.filter (fun p => p.1 ≠ 0x39) } }

/-- Owner of label `l` in the slot map that acts: the register on the master, elsewhere the map of the latest opening
(R199). -/
def Core.labelOwner (c : Core) (l : Nat) : Nat :=
  if c.isMaster then getBits (c.reg pgLNK (0x24 + l / 4 * 4)) (8 * (l % 4)) 8 else (c.lnk.map[l]?).getD 0

/-- The labels this device owns (R189). -/
def Core.ownLabels (c : Core) : List Nat :=
  (List.range 16).filter (fun l => c.ringId ≠ 0 && c.labelOwner l = c.ringId)

/-- The cyclic distance from each owned label to the next: 16 for a single one. -/
def labelGaps : List Nat → List Nat
  | [] => []
  | x :: t => List.zipWith (fun a b => if a < b then b - a else b + 16 - a) (x :: t) (t ++ [x])

/-- LNK_MYSLOT (R209, R219). -/
def Core.showLabels (c : Core) : Core :=
  let l := c.ownLabels
  (c.setFld pgLNK LNK_MYSLOT_LABELS (l.foldl (fun a i => a + 2 ^ i) 0)).setFld pgLNK LNK_MYSLOT_GAP ((labelGaps l).foldl max 0)

/-- GSC of a rail: floor(128 × min(1, 80 / FIRE_BUDGET)) on a cascaded rail, 128 on another (R210). -/
def Core.showGsc (c : Core) (n : Nat) : Core :=
  let b := c.fld pgLNK (LNK_CR_BUDGET n)
  c.setFld pgLNK (LNK_CRST_GSC n) (if c.cascaded n then min 128 (128 * 80 / max 1 b) else 128)

/-- This device is a source and sink of the F lane (R188, R215, R217). -/
def Core.isSink (c : Core) : Bool := (c.isMaster && c.ringId = 1) || c.stat pgLNK 4 || c.lnk.source

/-- The SSN of the slot that leaves next on the F output: a source's own count goes on, any other device forwards the slots
of its input (R187, R188). -/
def Core.nextSsn (c : Core) : Nat := ((if c.isSink then c.lnk.ssn else c.lnk.ssnIn) + 1) % 256

/-- One slot passes: the SSN of the input is counted on, and a slot leaves on the F output, with a token or IDLE; LNK_LOAD is
found at the end of each 65,536 slots (R187, R219). -/
def Core.slotOut (c : Core) (token : Bool) : Core :=
  let k := c.lnk.tokens + b2n token
  let c := { c with lnk := { c.lnk with
    ssn := c.nextSsn, ssnIn := (c.lnk.ssnIn + 1) % 256, slots := c.lnk.slots + 1, tokens := k } }
  if c.lnk.slots < 65536 then c
  else
    let c := (c.setFld pgLNK LNK_LOAD_FLOAD (k * 1000 / 65536)).setFld pgLNK LNK_LOAD_DLOAD (min 1000 (c.lnk.vc0s * 6000 / 131072))
    { c with lnk := { c.lnk with slots := 0, tokens := 0, vc0s := 0 } }

/-- A code error (R186, R218). -/
def Core.codeError (c : Core) : Core := (c.incSat pgLNK LNK_CNT0_CODEERR 1).raise pgLNK 10

/-- A token discarded, or a firing that ended MISSED or HELD (R205, R218). -/
def Core.countMiss (c : Core) : Core := (c.incSat pgLNK LNK_CNT1_MISS 1).raise pgLNK 9

/-- ADDR of a ring device, with the rail it concerns (R329). -/
def ringAddr (id : Nat) (rail : Option Nat) : Nat :=
  mkAddr 0xB (id + match rail with | some n => 256 * n + 2048 | none => 0)

/-! ## Owner: drops and failures (R205, R208, R213, R217) -/

/-- The firings of a dropped phase that waited for their slots pass to the members at the pointer, in turn (R208). -/
def Core.passOn (c : Core) (n : Nat) (d : Due) : Core :=
  match ((c.rail n).order)[(c.rail n).ptr]? with
  | none => c
  | some x =>
    if !x.turn then c
    else (c.modRail n (fun r => { r with due := r.due ++ [⟨x.dev, x.port, d.at_⟩] })).afterFiring n x

/-- A remote member is dropped at once (R205), and with the last port of a transition that transition ends (R128, R130, R132).
A rail that has lost it and finds NACT below NTARGET adds at once (R127). -/
def Core.dropRemote (c : Core) (n dev port : Nat) : Core :=
  match (c.rail n).order.find? (fun x => x.dev = dev && x.port = port && x.member) with
  | none => c
  | some x =>
    let waiting := (c.rail n).due.filter (fun d => d.dev = dev && d.port = port)
    let c := (c.sendMid n dev port).modSlot n dev port (fun x => { x with
      member := false, lost := true, trans := .none, sk4 := 4, fired := 0, passes := 0 })
    let c := c.modRemote n dev port (fun y => { y with fails := 0, awaits := [] })
    let c := c.modRail n (fun r => { r with ptr := nextTurn r.order r.ptr })
    let c := ((c.syncMembers n).syncTrans n).setFld pgLNK (LNK_CRST_DROP n) 1
    let c := (c.raise pgLNK 5).send 0x3A 0 (ringAddr dev (some n))
    let c :=
      if x.trans ≠ .none && (c.rail n).tstate = 0 then (if x.trans = .leaving then c.shedDone n else c.addDone n)
      else ((c.shedEnd n).addEnd n).startTrans n
    let c := c.recomputeTon n
    let c := waiting.foldl (fun (c : Core) d => c.passOn n d) c
    if (c.rail n).nact < zeroAsOne (c.fld pgLNK (LNK_CR_NMINC n)) then (c.raise pgLNK 6).send 0x3B 0 (mkAddr 1 n) else c

/-- Every remote member on a device that meets a condition is dropped, and no phase of such a device joins before the next proof
ramp (R213, R217). -/
def Core.dropWhere (c : Core) (p : Nat → Bool) : Core :=
  (List.range 8).foldl (fun (c : Core) n =>
    let c := c.modRail n (fun r => { r with
      order := r.order.map (fun x => if x.dev ≠ 0 && !x.member && p x.dev then { x with lost := true } else x) })
    ((c.rail n).order.filter (fun x => x.dev ≠ 0 && x.member && p x.dev)).foldl
      (fun (c : Core) x => c.dropRemote n x.dev x.port) c) c

/-- A firing of a remote port has failed; the eighth in a row drops it (R205). -/
def Core.remoteFail (c : Core) (n dev port : Nat) : Core :=
  let c := c.modRemote n dev port (fun y => { y with fails := y.fails + 1 })
  if 8 ≤ (c.remote n dev port).fails then c.dropRemote n dev port else c

/-- The rail one of whose firings a summary from a port of a device answers. -/
def Core.awaited (c : Core) (dev port : Nat) : Option Nat :=
  (c.lnk.remotes.find? (fun (x : Remote) => x.dev = dev && x.port = port && x.awaits ≠ [])).map (·.rail)

/-- ISAMP of a summary in A (R192). -/
def summaryAmps (isamp : Int) : Rat := (isamp : Rat) / 16

/-- The value of a phase's model at the sample nearest to an instant in 10 ps (R203 step 5). -/
def nearestModel (hist : List (Nat × Rat)) (at_ : Int) : Option Rat :=
  (hist.foldl (fun (a : Option (Nat × Rat)) p =>
    let d := (250 * (p.1 : Int) - at_).natAbs
    match a with
    | none => some (d, p.2)
    | some b => if d < b.1 then some (d, p.2) else some b) none).map (·.2)

/-- The correction of R72 at the sample nearest to the token's arrival, the predicted edge less 3.0 ns, less AGE × 5 ns (R203
step 5). -/
def Slot.correct (x : Slot) (isamp : Int) (edge age shift : Nat) : Slot :=
  match nearestModel x.hist ((edge : Int) - 300 - 500 * age) with
  | some m => if x.inSum then { x with ihat := x.ihat + (summaryAmps isamp - m) / 2 ^ shift } else x
  | none => x

/-- MISSED or HELD: the modelled on-time of that firing ends, or does not begin, and the model takes ISAMP (R205). -/
def Slot.unfired (x : Slot) (isamp : Int) (edge now : Nat) : Slot :=
  let own : Bool := match x.fire with | some f => f.1 = edge | none => false
  let x := { x with ihat := summaryAmps isamp }
  if own then { x with fire := none, pwm := if x.pwm = .high then .low else x.pwm, fallAt := if x.pwm = .high then 250 * now else x.fallAt }
  else x

/-- The firing that a summary answers, and those left to wait. Summaries come in firing order, so one in time answers the
oldest firing that is not yet overdue, and those before it have none; a late one answers the oldest of all. -/
def takeAwait (late : Bool) (l : List Await) : Option (Await × List Await) :=
  match if late then l else l.dropWhile (·.lost) with
  | a :: t => some (a, t)
  | [] => none

/-- A summary of a remote firing, `late` ns after the aperture of the deciding sample: LATE beyond FIRE_BUDGET, otherwise
used as its kind says (R205). A firing that was overdue has already counted as a failure. -/
def Core.summary (c : Core) (fired : Bool) (dev port : Nat) (isamp : Int) (age late : Nat) : Core :=
  match c.awaited dev port with
  | none => c
  | some n =>
    let tardy := c.fld pgLNK (LNK_CR_BUDGET n) < late
    let c := if tardy then (c.incSat pgLNK LNK_CNT1_LATE 1).raise pgLNK 8 else c
    match takeAwait tardy (c.remote n dev port).awaits with
    | none => c
    | some (a, rest) =>
      let c := c.modRemote n dev port (fun y => { y with awaits := rest })
      if tardy then (if a.lost then c else c.remoteFail n dev port)
      else if fired then
        let c := c.modRemote n dev port (fun y => { y with fails := 0 })
        if 15 ≤ age then c
        else c.modSlot n dev port (fun x => x.correct isamp a.edge age (c.fld (pgV n) V_MODEL_CSHIFT))
      else (c.modSlot n dev port (fun x => x.unfired isamp a.edge c.time.toNat)).countMiss.remoteFail n dev port

/-! ## Owner: dispatch (R203, R204) -/

/-- Firings of a remote phase whose summaries are overdue count as failures, each once (R205). -/
def Core.overdue (c : Core) (n dev port : Nat) : Core :=
  let late (a : Await) : Bool := !a.lost && 2 * c.fld pgLNK (LNK_CR_BUDGET n) < 5 * (c.time.toNat - a.at_)
  let k := ((c.remote n dev port).awaits.filter late).length
  let c := c.modRemote n dev port (fun y => { y with awaits := y.awaits.map (fun a => if late a then { a with lost := true } else a) })
  iter k (fun c => c.remoteFail n dev port) c

/-- The sum of the hops: the ring's round trip in 40 ps (R200). -/
def Core.ringTrip (c : Core) : Nat := c.lnk.hops.foldl (fun a h => a + h.1) 0

/-- F latency from the master's output to the input of device `id`, in 40 ps (R200). -/
def Core.fromMaster (c : Core) (id : Nat) : Nat := if id = 0 then 0 else ((c.lnk.hops[id - 1]?).getD (0, 0)).2

/-- The predicted edge in 10 ps of a token that leaves now: the difference of the FROMM values of lender and owner, round the
ring, 6.25 ns and 3.0 ns later (R203). -/
def Core.predictedEdge (c : Core) (dev : Nat) : Nat :=
  let t := max 1 c.ringTrip
  250 * c.time.toNat + 4 * ((c.fromMaster dev + t - c.fromMaster c.ringId % t) % t) + 925

/-- A firing decided for a dropped remote member has passed to a local port, which fires (R208). -/
def Core.fireLocal (c : Core) (n : Nat) (x : Slot) (rest : List Due) : Core :=
  if !c.offPassed n x then c
  else
    let c := (c.modRail n (fun r => { r with due := rest })).setTon n x
    if c.limitHi x.port then c.limitedFiring x.port else (c.driveHigh n x).recomputeTon n

/-- The token of a remote firing leaves in the owned slot now, and the PRELOAD of the next firing follows (R203 step 2). -/
def Core.fireRemote (c : Core) (n : Nat) (d : Due) (rest : List Due) : Core :=
  let c := c.modRail n (fun r => { r with due := rest })
  let y := c.remote n d.dev d.port
  let edge := c.predictedEdge d.dev
  let c := (c.slotOut true).sendFrame (.token d.dev n d.port)
  let c := c.modSlot n d.dev d.port (fun x => { x with fire := some (edge, y.preload) })
  let c := (c.setLevel (pgV n) 21 y.preRaised).setLevel (pgV n) 22 y.preLowered
  let c := c.modRemote n d.dev d.port (fun y => { y with awaits := y.awaits ++ [⟨d.at_, edge, false⟩] })
  c.sendPreload n d.dev d.port

/-- The oldest firing that waits goes: a remote one in the next slot if its label is owned, no sooner than FIRE_BUDGET after the
PRELOAD of a join, and with the phase's off-time passed (R189, R203, R204, R208). -/
def Core.dispatch (c : Core) (n : Nat) : Core :=
  match (c.rail n).due with
  | [] => c
  | d :: _ =>
    if c.crowHeld n || c.tripped n then c
    else
      let c := if d.dev = 0 then c else c.overdue n d.dev d.port
      match (c.rail n).due with
      | [] => c
      | d :: rest =>
        match (c.rail n).order.find? (fun x => x.dev = d.dev && x.port = d.port && x.member) with
        | none => c.modRail n (fun r => { r with due := rest })
        | some x =>
          if d.dev = 0 then c.fireLocal n x rest
          else if c.rstate ≠ 4 || !c.ownLabels.contains (c.nextSsn % 16) || c.time.toNat < (c.remote n d.dev d.port).notBefore ||
              !c.offPassed n x then c
          else c.fireRemote n d rest

/-! ## Lender (R190, R203, R204, R206 to R208, R235) -/

/-- The AGE code and ISAMP of a summary, `age` ns after the aperture of the latest low-segment sample (R192). -/
def Core.summaryOf (c : Core) (k : Nat) (age : Option Nat) : Nat × Int :=
  let conv (i : Int) : Int := clampInt (-2048) 2047 (roundDiv i 4)
  match age, (c.port k).lowI with
  | some a, some i => if a ≤ 72 then ((a + 2) / 5, conv i) else (15, conv (c.sfld (pgP k) P_IMON_ISAMP))
  | _, _ => (15, conv (c.sfld (pgP k) P_IMON_ISAMP))

/-- FIRED (2), MISSED (3) or HELD (4) is sent to the port's owner (R192). -/
def Core.sendSummary (c : Core) (k ty : Nat) (age : Option Nat) : Core :=
  let p := c.summaryOf k age
  c.sendVC0 (c.fld pgLNK (LNK_LEND_OWNER k)) ty k (c.ringId + 2 ^ 8 * (ofSigned 12 p.2 + 2 ^ 12 * p.1))

/-- A lent port's token is answered HELD: its group trips, its device is in a safe or frozen state, or it is still high
(R192, R207, R208). -/
def Core.lentHeld (c : Core) (k : Nat) (safe : Bool) : Bool :=
  let g := c.fld pgTRP TRP_CFG_LENTGRP
  (g < 8 && c.tripped g) || safe || c.rpr.depth = 2 || (c.port k).pwm = .high

/-- A token names a port of this device (R190, R203 steps 3 and 4, R235). -/
def Core.lentToken (c : Core) (k rail : Nat) (age : Option Nat) (safe : Bool) : Core :=
  if !(c.lentBound k && c.fld pgLNK (LNK_LEND_ORAIL k) = rail) then c.countMiss
  else if c.lentHeld k safe then c.sendSummary k 4 age
  else if c.cmpHi (8 + k) then (c.limitedFiring k).sendSummary k 3 age
  else match vget c.lnk.preloads k none with
    | none => c.sendSummary k 3 age
    | some _ =>
      let g := c.fld pgTRP TRP_CFG_LENTGRP
      let c := { c with lnk := { c.lnk with
        preloads := vmod c.lnk.preloads k (fun _ => none)
        lentFired := vmod c.lnk.lentFired k (fun _ => true)
        lentMid := vmod c.lnk.lentMid k (fun _ => false)
        lentLater := vmod c.lnk.lentLater k (fun _ => false) } }
      (c.portHigh k (if g < 8 then c.fld pgTRP (TRP_RAIL_LEB g) else 0)).sendSummary k 2 age

/-- The device before this one on the ring (R212, R213). -/
def Core.predecessor (c : Core) : Nat := if c.ringId ≤ 1 then c.fld pgLNK LNK_ID_NDEV else c.ringId - 1

/-- A code error in one copy of a slot (R186). -/
def Core.copyError (c : Core) (bad : Bool) : Core := if bad then c.codeError else c

/-- A token arrives on the F lane, with or without a code error in its primary and its chord copy: one that names this device
is consumed, a sink removes any other, a chord copy that names the predecessor is consumed, and every other is forwarded
(R188, R189, R212). A token damaged in both copies goes on as an IDLE slot. -/
def Core.token (c : Core) (devid rail port : Nat) (primBad chordBad : Bool) (age : Option Nat) (safe : Bool) : Core :=
  if !c.ringOn || !c.lnk.locked then c
  else
    let c := (c.copyError primBad).copyError chordBad
    if primBad && chordBad then c.slotOut false
    else if c.ringId = 0 then (c.slotOut true).sendFrame (.token devid rail port)
    else if devid = c.ringId then (c.slotOut false).lentToken port rail age safe
    else if primBad && devid = c.predecessor then c.slotOut false
    else if c.isSink then (c.slotOut false).countMiss
    else (c.slotOut true).sendFrame (.token devid rail port)

/-- A PRELOAD is stored; the newer one is kept (R204). -/
def Core.takePreload (c : Core) (k ton : Nat) : Core :=
  if c.lentBound k then { c with lnk := { c.lnk with preloads := vmod c.lnk.preloads k (fun _ => some (ton % 2 ^ 18)) } } else c

/-- A lent port goes to mid until its next token, an on-time in progress included: what a MID order brings, for the owner sends
it on the early ends of R114, and a safe state of the lender (R114, R206, R207). -/
def Core.lentToMid (c : Core) (k : Nat) : Core := { c with lnk := { c.lnk with lentMid := vmod c.lnk.lentMid k (fun _ => true) } }

/-- A lent port goes to mid until its next token, after any on-time in progress (R114). -/
def Core.lentRelease (c : Core) (k : Nat) : Core :=
  { c with lnk := { c.lnk with lentLater := vmod c.lnk.lentLater k (fun _ => true) } }

/-- A MID order (R192). -/
def Core.takeMid (c : Core) (k : Nat) : Core :=
  if c.lentBound k then
    { (c.lentToMid k) with lnk := { (c.lentToMid k).lnk with preloads := vmod c.lnk.preloads k (fun _ => none) } }
  else c

/-- Every lent port goes to mid: a DEVICE or GRAVE safe state of the lender (R207). -/
def Core.lentAllMid (c : Core) : Core := { c with lnk := { c.lnk with lentMid := Vector.replicate 24 true } }

/-- Every lent port goes to mid after any on-time in progress, and its preload is cleared (R114, R217). -/
def Core.lentAllRelease (c : Core) : Core :=
  { c with lnk := { c.lnk with lentLater := Vector.replicate 24 true, preloads := Vector.replicate 24 none } }

/-- No token and no order for `us` (R207). -/
def Core.lendTimeout (c : Core) (k us : Nat) : Core :=
  if c.lentBound k && vget c.lnk.lentFired k false && !vget c.lnk.lentMid k true && !vget c.lnk.lentLater k false &&
      zeroAsOne (c.fld pgLNK (LNK_LEND_TMO k)) ≤ us then
    ((c.lentRelease k).raise pgLNK 7).send 0x3C 0 (mkAddr 2 k)
  else c

/-- A binding check names one of this device's ports; it is answered, and when the owner confirms that every check of its rail
has passed the port is bound (R201, R202). -/
def Core.bindCheck (c : Core) (src k rail : Nat) (confirm : Bool) : Core :=
  let ok := k < 24 && c.flag pgLNK (LNK_LEND_EN k) && c.fld pgLNK (LNK_LEND_OWNER k) = src && c.fld pgLNK (LNK_LEND_ORAIL k) = rail
  if c.rstate ≠ 3 then c
  else if confirm then (if ok then c.setFld pgLNK (LNK_LEND_BOUND k) 1 else c)
  else c.sendMsg src (.bindAnswer k rail ok)

/-- The rail of which a phase of another device is a member or an entry of the order. -/
def Core.railOfRemote (c : Core) (dev port : Nat) : Option Nat :=
  (c.lnk.remotes.find? (fun (x : Remote) => x.dev = dev && x.port = port)).map (·.rail)

/-- An identification request: from the owner of a lent port, whose fit begins; or from the lender of a remote phase, whose
identification the owner then asks of its arbiter (R119, R206; DEDUCED, log 75). -/
def Core.takeIdRequest (c : Core) (src k : Nat) (ask : Option (Nat × Nat × Nat)) : Core :=
  match ask with
  | none =>
    if c.lentBound k && c.fld pgLNK (LNK_LEND_OWNER k) = src && !c.lnk.idLent.contains k then
      let c := { c with lnk := { c.lnk with idLent := c.lnk.idLent ++ [k] } }
      (c.modPort k (fun p => { p with fit := { on := true } })).setLevel (pgP k) 3 true
    else c
  | some (dith, hw, nrep) =>
    match c.railOfRemote src k with
    | none => c
    | some n =>
      if (c.remote n src k).ident.busy then c
      else
        let c := c.modRemote n src k (fun y => { y with ident := {
          dith := zeroAsOne dith, hw := zeroAsOne hw, nrep := zeroAsOne nrep } })
        (c.requestAct ⟨actIDENT, 32 * src + k, 0⟩).pumpIdents

/-- A lender's slope reaches the owner: one that comes after the dither has ended counts as CAUSE 3 (R206). -/
def Core.takeIdResult (c : Core) (src k : Nat) (num : Int) (den : Nat) : Core :=
  match c.railOfRemote src k with
  | none => c
  | some n =>
    let c := c.modRemote n src k (fun y => { y with ident := y.ident.turn c.time.toNat })
    let p := (c.remote n src k).ident
    if !p.busy then c
    else if p.nrep ≤ p.pairs then c.endRemoteIdent n src k 3
    else c.modRemote n src k (fun y => { y with ident := { y.ident with slope := some ((num : Rat) / den) } })

/-- A lender's stage fault or its release is relayed: each rail with a remote port of that group is named (R207). -/
def Core.faultRelay (c : Core) (src group : Nat) (on : Bool) : Core :=
  (List.range 8).foldl (fun (c : Core) n =>
    if (c.rail n).order.any (fun x => x.dev = src && x.dev ≠ 0 && x.port / 8 = group) then
      let c := c.setLive 0x3F (ringAddr src (some n)) on
      if on then c.send 0x3F group (ringAddr src (some n)) else c
    else c) c

/-! ## Bring-up (R195 to R201) -/

/-- LNK_CTRL.EN is written (R196). At 0 the device leaves the ring, and its lent ports go to mid after any on-time in progress. -/
def Core.ringEnable (c : Core) (en : Bool) : Core :=
  let was := c.ringOn
  let c := c.setFld pgLNK LNK_CTRL_EN (b2n en)
  if en && !was then c.setRstate 1
  else if !en && was then
    let c := ((c.setFld pgLNK LNK_ID_DEVID 0).setFld pgLNK LNK_ID_NDEV 0).setRstate 0
    let c := (List.range 8).foldl (fun (c : Core) n => c.setFld pgLNK (LNK_CRST_READY n) 0) c
    let c := (List.range 24).foldl (fun (c : Core) k => c.setFld pgLNK (LNK_LEND_BOUND k) 0) c
    let c := (c.setLevel pgLNK 2 false).setLevel pgLNK 4 false
    let c := { c with lnk := { c.lnk with
      locked := false, openDue := false, absent := none, credits := Vector.replicate 8 0, outq := [], inq := [], failed := false
      prior := none
      meas := [], map := [], chordDelay := 0, chordStore := [], chordSeen := [], source := false }
                      flt := { c.flt with live := c.flt.live.filter (fun p => p.1 ≠ 0x38) } }
    c.lentAllRelease.showLabels
  else c

/-- A bring-up ends with OPENFAIL (R197, R201). -/
def Core.openFail (c : Core) (cause : Nat) (rail : Option Nat) : Core :=
  let c := c.setFld pgLNK LNK_ID_FCAUSE cause
  let c := match rail with | some n => c.setFld pgLNK LNK_ID_FRAIL n | none => c
  (c.raise pgLNK 11).send 0x3D cause (ringAddr c.ringId rail)

/-- A cascaded rail of this device is in a state other than OFF and SAFE (R198). -/
def Core.cascBusy (c : Core) : Bool :=
  (List.range 8).any (fun n => c.cascaded n && (c.rail n).rstate ≠ .off && (c.rail n).rstate ≠ .safe)

/-- The words of page LNK that an opening changes: LNK_ID, the slot map, LNK_MYSLOT, LNK_MEAS and LNK_RTT. -/
def ringRegs : List Nat := [0x20, 0x24, 0x28, 0x2C, 0x30, 0x34, 0x38, 0x3C]

/-- An opening begins on this device: the ring as it stands is kept for a refusal, and BOUND, READY, the deputy's role and what
an earlier opening has left are cleared (R196, R198, R215, R219). -/
def Core.openBegins (c : Core) : Core :=
  let p : RingPrior := {
    regs := (ringRegs ++ (List.range 8).map (fun n => 0xE0 + 4 * n)).map (fun o => (o, c.reg pgLNK o))
    bound := (List.range 24).map (fun k => c.flag pgLNK (LNK_LEND_BOUND k))
    map := c.lnk.map, hops := c.lnk.hops, credits := c.lnk.credits, delay := c.lnk.chordDelay
    source := c.lnk.source, deputy := c.stat pgLNK 4 }
  let c := (List.range 24).foldl (fun (c : Core) k => c.setFld pgLNK (LNK_LEND_BOUND k) 0) c
  let c := (List.range 8).foldl (fun (c : Core) n => c.setFld pgLNK (LNK_CRST_READY n) 0) c
  ({ c with lnk := { c.lnk with
    prior := some p, answers := [], busyRail := false, openDue := false, failed := false, meas := [], source := false } }).setLevel
    pgLNK 4 false

/-- An opening is refused: the ring is as it was before (R198). -/
def Core.openRefused (c : Core) : Core :=
  match c.lnk.prior with
  | none => c
  | some p =>
    let c := p.regs.foldl (fun (c : Core) r => c.setReg pgLNK r.1 r.2) c
    let c := (List.range 24).foldl (fun (c : Core) k => c.setFld pgLNK (LNK_LEND_BOUND k) (b2n ((p.bound[k]?).getD false))) c
    let c := { c with lnk := { c.lnk with
      map := p.map, hops := p.hops, credits := p.credits, chordDelay := p.delay, source := p.source, prior := none } }
    let v := c.rstate
    (((c.setStat pgLNK 0 (v = 4)).setStat pgLNK 3 (v = 5)).setStat pgLNK 4 p.deputy).setLive 0x39 (ringAddr c.ringId none) (v = 5)

/-- The master sends ENUM with ID 2 (R196 step 2). -/
def Core.startEnum (c : Core) : Core :=
  (((c.openBegins.setFld pgLNK LNK_CTRL_OPEN 0).setFld pgLNK LNK_ID_DEVID 1).setRstate 2).sendMsg 0xFF (.enum 2)

/-- A write of 1 to LNK_CTRL.OPEN (R195, R196, R198): ignored by a device that is no master, refused while one of its
cascaded rails runs, and waiting until the inputs have locked. -/
def Core.ringOpen (c : Core) : Core :=
  if !c.isMaster || c.stat pgLNK 12 || !c.ringOn then c
  else if c.cascBusy then c.raise pgLNK 13
  else if c.lnk.locked then c.startEnum
  else { c with lnk := { c.lnk with openDue := true } }.setFld pgLNK LNK_CTRL_OPEN 1

/-- The inputs lock (R196 step 1). -/
def Core.inputLock (c : Core) : Core :=
  if !c.ringOn then c
  else
    let c := { c with lnk := { c.lnk with locked := true } }
    if c.lnk.openDue then c.ringOpen else c

/-- The credits that a ring gives at its opening: 16 frames of VC0 and 4 of each other channel, in each class (R194). -/
def fullCredits : Vector Nat 8 := Vector.ofFn (fun i => if i.val < 2 then 16 else 4)

/-- A bring-up ends here for good: OPENFAIL of R197. -/
def Core.openStops (c : Core) (cause : Nat) : Core :=
  ({ c with lnk := { c.lnk with failed := true } }).openFail cause none

/-- An ENUM frame arrives (R195 to R197): a master takes the one that it sent, and reports any other; a device takes the ID
that it finds. -/
def Core.takeEnum (c : Core) (id : Nat) (own : Bool) : Core :=
  if c.isMaster then
    if !own then
      let c := { c with lnk := { c.lnk with failed := true, openDue := false } }
      ((c.setLevel pgLNK 12 true).setLive 0x3E (ringAddr c.ringId none) true).send 0x3E 0 (ringAddr c.ringId none)
    else if c.rstate ≠ 2 || c.lnk.failed then c
    else
      let c := { c with lnk := { c.lnk with credits := fullCredits } }
      if 256 < id then (c.setRstate 3).openStops 5 else (c.setFld pgLNK LNK_ID_NDEV (id - 1)).setRstate 3
  else
    let c := c.openBegins
    let c := { c with lnk := { c.lnk with credits := fullCredits } }
    if id < 256 then (c.setFld pgLNK LNK_ID_DEVID id).setRstate 2 else c

/-- Hop latencies and the F latency from the master to each device's input, from the forwarding latencies in ring order, the
round trip and the number of devices (R200). The share of each hop is rounded down to 40 ps (DESIGN CHOICE, log 115). -/
def hopTable (rtt ndev : Nat) (fwds : List Nat) : List (Nat × Nat) :=
  let share := (rtt - fwds.foldl (· + ·) 0) / max 1 ndev
  let hops := fwds.map (· + share)
  hops.mapIdx (fun i h => (h, (hops.take i).foldl (· + ·) 0))

/-- The master has the results of every device: it broadcasts NDEV, the slot map and the hop table (R196 step 5). -/
def Core.sendMap (c : Core) : Core :=
  let n := c.fld pgLNK LNK_ID_NDEV
  let fwd (i : Nat) : Option Nat := (c.lnk.meas.find? (fun p => p.1 = i + 1)).map (·.2)
  if n = 0 || (List.range n).any (fun i => (fwd i).isNone) then c
  else
    let t := hopTable (c.fld pgLNK LNK_RTT_RTT) n ((List.range n).map (fun i => (fwd i).getD 0))
    ({ c with lnk := { c.lnk with hops := t, meas := [] } }).sendMsg 0xFF (.slotMap n ((List.range 16).map c.labelOwner) t)

/-- A chord offset within 0 to 25 ns, in 40 ps (R200). -/
def chofsOk (x : Int) : Bool := 0 ≤ x && x ≤ 625

/-- The master takes a device's results, and a failed measurement ends the bring-up (R196 step 4, R197). -/
def Core.collect (c : Core) (id fwd : Nat) (chofs : Int) : Core :=
  if !c.isMaster || c.rstate ≠ 3 || c.lnk.failed then c
  else if !chofsOk chofs then c.openStops 1
  else ({ c with lnk := { c.lnk with meas := c.lnk.meas.filter (fun (p : Nat × Nat) => p.1 ≠ id) ++ [(id, fwd)] } }).sendMap

/-- The measurement of R200 ends on this device: LNK_MEAS holds its results, the chord delay buffer takes the offset, and a
chord offset outside 0 to 25 ns fails it. The master adds the round trip; any other device reports to it (R196 step 4). An
offset that its field cannot hold is free there (log 6). -/
def Core.measured (c : Core) (fwd : Nat) (chofs : Int) (rtt : Nat) : Core :=
  if !c.ringOn || c.ringId = 0 || !(c.rstate = 2 || c.rstate = 3) || c.lnk.failed then c
  else
    let c := (c.setRstate 3).setFld pgLNK LNK_MEAS_FWD (min 511 fwd)
    let c := if 0 ≤ chofs && chofs < 1024 then c.setFld pgLNK LNK_MEAS_CHOFS chofs.toNat else c.freeFld pgLNK LNK_MEAS_CHOFS
    let c := if chofsOk chofs then { c with lnk := { c.lnk with chordDelay := chofs.toNat } } else c
    if c.isMaster then (c.setFld pgLNK LNK_RTT_RTT (min 0xFFFF rtt)).collect 1 (min 511 fwd) chofs
    else
      let c := c.sendMsg 1 (.measure c.ringId (min 511 fwd) chofs)
      if chofsOk chofs then c else c.openStops 1

/-- Remote entries of a rail's active order. -/
def Core.remoteEntries (c : Core) (n : Nat) : List (Nat × Nat) :=
  ((c.rail n).order.filter (fun x => x.dev ≠ 0)).map (fun x => (x.dev, x.port))

/-- The sum of the remote firing rates of this owner's cascaded rails, in M/s (R211). -/
def Core.remoteRate (c : Core) : Rat :=
  (List.range 8).foldl (fun a n =>
    if c.cascaded n then a + (400 * (c.remoteEntries n).length : Rat) / max 1 (c.fld (pgV n) V_PHF_PERIOD) else a) 0

/-- RTTchk in 1/100 ns (R209). -/
def Core.rttChk (c : Core) : Nat := 6135 + 625 * c.fld pgLNK LNK_MYSLOT_GAP + 800 * c.fld pgLNK LNK_ID_NDEV

/-- The first check of R201 that a rail fails; 0 when it passes all. `bound` names the ports that have answered rightly. -/
def Core.ringChecks (c : Core) (n : Nat) (bound : List (Nat × Nat × Nat)) : Nat :=
  let rem := c.remoteEntries n
  let labels := c.ownLabels.length
  if rem.any (fun p => !(c.ringId < p.1 || p.1 = 1)) then 2
  else if rem.any (fun p => !bound.contains (n, p.1, p.2)) then 6
  else if 100 * c.fld pgLNK (LNK_CR_BUDGET n) < c.rttChk then 3
  else if (rem ≠ [] && labels = 0) || (9 * labels : Rat) < c.remoteRate then 4
  else 0

/-- One cascaded rail is checked: its lenders are asked, and when all checks pass READY is set and they are told to bind
(R201). -/
def Core.checkRail (c : Core) (n : Nat) (bound : List (Nat × Nat × Nat)) : Core :=
  if !c.cascaded n then c.setFld pgLNK (LNK_CRST_READY n) 0
  else
    let l := c.remoteEntries n
    let c := l.foldl (fun (c : Core) p => c.sendMsg p.1 (.bindCheck p.2 n false)) c
    let f := c.ringChecks n bound
    let c := c.setFld pgLNK (LNK_CRST_READY n) (b2n (f = 0))
    if f = 0 then l.foldl (fun (c : Core) p => c.sendMsg p.1 (.bindCheck p.2 n true)) c else c.openFail f (some n)

/-- Step 5: NDEV, slot map and hop table are taken, and every cascaded rail is checked; `bound` names the ports that answer
rightly (R196, R199, R201). -/
def Core.slotMap (c : Core) (ndev : Nat) (map : List Nat) (hops : List (Nat × Nat)) (bound : List (Nat × Nat × Nat)) : Core :=
  if !c.ringOn || c.ringId = 0 || !(c.rstate = 2 || c.rstate = 3) || c.lnk.failed then c
  else
    let c := (c.setFld pgLNK LNK_ID_NDEV ndev).setRstate 3
    let c := if c.isMaster then c
      else
        let c := { c with lnk := { c.lnk with map := map, hops := hops } }
        (List.range 4).foldl (fun (c : Core) m => c.setReg pgLNK (0x24 + 4 * m)
          (BitVec.ofNat 32 ((List.range 4).foldl (fun a i => a + ((map[4 * m + i]?).getD 0) % 256 * 2 ^ (8 * i)) 0))) c
    let c := (List.range 8).foldl (fun (c : Core) n => c.checkRail n bound) c.showLabels
    c.sendMsg 1 (.answer c.ringId c.cascBusy)

/-- A device's step-5 answer reaches the master; once all have answered it broadcasts OPEN, or refuses it (R196, R198). -/
def Core.cascAnswer (c : Core) (id : Nat) (busy : Bool) : Core :=
  if !c.isMaster || c.rstate ≠ 3 || c.lnk.failed then c
  else
    let a := if c.lnk.answers.contains id then c.lnk.answers else c.lnk.answers ++ [id]
    let c := { c with lnk := { c.lnk with answers := a, busyRail := c.lnk.busyRail || busy } }
    if a.length < c.fld pgLNK LNK_ID_NDEV then c
    else if c.lnk.busyRail then (c.sendMsg 0xFF (.opened true)).openRefused.raise pgLNK 13
    else c.sendMsg 0xFF (.opened false)

/-- The OPEN broadcast, or the word that the master has refused the opening (R196 step 6, R198). On a ring that opens the lent
ports wait in mid for their first tokens, without preloads. -/
def Core.opened (c : Core) (refused : Bool) : Core :=
  if !c.ringOn || c.ringId = 0 || c.rstate ≠ 3 || c.lnk.failed then c
  else if refused then c.openRefused
  else
    let c := { c with lnk := { c.lnk with prior := none, lentFired := Vector.replicate 24 false } }
    c.lentAllRelease.setRstate 4

/-- A credit frame for this device returns credits (R194). -/
def Core.takeCredit (c : Core) (vc cls count : Nat) : Core :=
  let i := 2 * (vc % 4) + cls % 2
  { c with lnk := { c.lnk with credits := vmod c.lnk.credits i (fun x => min (if i < 2 then 16 else 4) (x + count)) } }

/-- An IDLE slot arrives, or the source emits one: `prim` and `chord` are the SSN of each copy, none for one that holds a
code error. Every device counts the SSN of its input and checks it (R187, R212). Before the inputs have locked nothing is
decoded, and the output's slots are counted alone (R196 step 1). -/
def Core.idleSlot (c : Core) (prim chord : Option Nat) : Core :=
  if !c.ringOn then c
  else if !c.lnk.locked then c.slotOut false
  else
    let c := (c.copyError prim.isNone).copyError chord.isNone
    let next := (c.lnk.ssnIn + 1) % 256
    let c := match prim.orElse (fun _ => chord) with
      | none => c
      | some v => if v % 256 = next then c else { c.codeError with lnk := { c.lnk with ssnIn := (v + 255) % 256 } }
    c.slotOut false

/-! ## Absent devices (R212 to R217) -/

/-- An ABSENT broadcast (R213). -/
def Core.absentNotice (c : Core) (id : Nat) : Core := c.dropWhere (fun d => d = id)

/-- 1,024 valid primary slots in a row: the device goes back to the primary (R216). -/
def Core.primaryReturn (c : Core) : Core :=
  if !c.stat pgLNK 2 then c
  else
    { (c.setLevel pgLNK 2 false) with
      lnk := { c.lnk with absent := none, chordStore := [], chordSeen := [] }
      flt := { c.flt with live := c.flt.live.filter (fun p => p.1 ≠ 0x38) } }

/-- BROKEN: lent ports go to mid after any on-time in progress, and every remote member is dropped (R217). -/
def Core.broken (c : Core) : Core :=
  (((c.setRstate 5).setLive 0x39 (ringAddr c.ringId none) true).lentAllRelease).dropWhere (fun _ => true)

/-- The ring has opened: it is open, or BROKEN since (R217, R219). -/
def Core.ringUp (c : Core) : Bool := c.rstate = 4 || c.rstate = 5

/-- Both inputs are invalid for four slots: this device becomes a source and sink and broadcasts BREAK, once for each break that
it finds (R217). -/
def Core.ringBreak (c : Core) : Core :=
  if !c.ringUp || c.lnk.source then c
  else
    let c := ({ c with lnk := { c.lnk with source := true } }.incSat pgLNK LNK_CNT2_BRK 1).sendMsg 0xFF (.broken c.ringId)
    (c.send 0x39 0 (ringAddr c.ringId none)).broken

/-- A BREAK broadcast (R217). -/
def Core.breakNotice (c : Core) : Core := if c.ringUp then c.broken else c

/-! ## The page -/

/-- A staged order slot written through LNK_ORDDAT (R202). -/
def Core.writeOrdDat (c : Core) (w : Word) : Core :=
  if c.locked pgLNK LNK_ORDDAT_DEVID then c
  else
    let n := c.fld pgLNK LNK_ORDSEL_RAIL
    let i := c.fld pgLNK LNK_ORDSEL_IDX
    let e : OrdEntry := ⟨getBits w 0 8, getBits w 8 5, bitOf w 15⟩
    if 254 < i then c
    else { c with lnk := { c.lnk with staging := vmod c.lnk.staging n (fun l =>
      (l ++ List.replicate (i + 1 - l.length) ({} : OrdEntry)).set i e) } }

/-- LNK_ORDDAT and LNK_TOPODAT as they read (R219). -/
def Core.readOrdDat (c : Core) : Word :=
  let e := ((vget c.lnk.staging (c.fld pgLNK LNK_ORDSEL_RAIL) [])[c.fld pgLNK LNK_ORDSEL_IDX]?).getD {}
  BitVec.ofNat 32 (e.dev + 2 ^ 8 * e.port + 2 ^ 15 * b2n e.used)
def Core.readTopo (c : Core) : Word :=
  let t := c.fld pgLNK LNK_TOPOSEL_ID
  let e := if t = 0 then (0, 0) else (c.lnk.hops[t - 1]?).getD (0, 0)
  BitVec.ofNat 32 (min 511 e.1 + 2 ^ 16 * min 0xFFFF e.2)

/-- LNK_CTRL.PRST: the device leaves the ring and the page returns to its reset values (R25); a group whose lent ports are no
longer lent leaves use (R106). -/
def Core.lnkPageReset (c : Core) : Core :=
  let was := (List.range 8).map c.cascaded
  let c := (c.dropWhere (fun _ => true)).ringEnable false
  let stage := if bitOf (c.reg pgLNK 0x18) 1 then c.lnk.staging else Vector.replicate 8 []
  let c := c.resetPage pgLNK (fun _ => false)
  let c := { c with lnk := { c.lnk with staging := stage, hops := [], slots := 0, tokens := 0, vc0s := 0 } }
  let c := (List.range 8).foldl (fun (c : Core) n => if (was[n]?).getD false then c.showGsc n else c) c
  c.showLabels.syncStages

end Sys2Proof.Machine
end

