-- ==== Sys2Proof/Machine/Crumbs.lean ====
section
/-! DEFINITION. The merge stage, the packer, the FIFO and the remote drain (R290 to R306). -/
namespace Sys2Proof.Machine

/-! ## Bytes of a crumb (R291, R292) -/

/-- The bytes of a crumb on its way to the packer: header TYPE and LEN, then the payload. -/
def crumbBytes (ty prod : Nat) (payload : List Byte) : List PByte :=
  let all := BitVec.ofNat 8 (16 * ty + payload.length) :: payload
  all.mapIdx (fun i b => ⟨b, i = 0, i = payload.length, prod⟩)

/-- A TIME crumb with the given base in units of 64 periods (R291, R292). -/
def timeBytes (base : Nat) : List PByte := crumbBytes 1 0xFF (toLeBytes 6 (64 * base))

/-- A stamped crumb needs a TIME crumb before it (R292). -/
def Core.needsTime (c : Core) (t : Nat) : Bool :=
  match c.crb.base with
  | none => true
  | some b => t / 64 < b || b + 65536 ≤ t / 64

/-! ## The packer and the FIFO (R294, R295, R297) -/

/-- The word of up to three bytes (R294). -/
def packWord (l : List PByte) : Word :=
  let bit (i : Nat) (f : PByte → Bool) : Nat := match l[i]? with | some b => if f b then 2 ^ i else 0 | none => 0
  let sum (f : PByte → Bool) : Nat := bit 0 f + bit 1 f + bit 2 f
  let byte (i : Nat) : Nat := match l[i]? with | some b => b.val.toNat * 2 ^ (8 * i) | none => 0
  BitVec.ofNat 32 (2 ^ 31 + sum (fun _ => true) * 2 ^ 27 + sum (fun b => b.hdr) * 2 ^ 24 + byte 0 + byte 1 + byte 2)

/-- The idle word (R294). -/
def idleWord : Word := 0

/-- LVL, 0 used as 1 (R297). -/
def Core.crumbLevel (c : Core) : Nat := zeroAsOne (c.fld pgCRB CRB_CNT_LVL)

/-- CRB_STAT.FULL follows the FIFO (R309). -/
def Core.syncFull (c : Core) : Core := c.setLevel pgCRB 1 (c.crb.fifo.length = 1024)

/-- A closed word enters the FIFO (R295). -/
def Core.pushWord (c : Core) (w : Word) : Core :=
  ({ c with crb := { c.crb with fifo := c.crb.fifo ++ [w], wp := (c.crb.wp + 1) % 2048 } } : Core).syncFull

/-- LVLUP is judged on what has become of WORDS, which was `was` (R297). -/
def Core.judgeLevel (c : Core) (was : Nat) : Core :=
  if was < c.crumbLevel && c.crumbLevel ≤ c.crb.fifo.length then c.raise pgCRB 0 else c

/-- The open word is closed: into the FIFO, or held by the packer while it is full (R295). -/
def Core.closeWord (c : Core) : Core :=
  if c.crb.openw = [] then c
  else if c.crb.fifo.length < 1024 then
    { c with crb := { c.crb with openw := [], closing := false } }.pushWord (packWord c.crb.openw)
  else { c with crb := { c.crb with closing := true } }

/-- The bytes of the merge stage enter the packer until a closed word finds no room (R294, R295). -/
def Core.packBytes (c : Core) : List PByte → Core
  | [] => { c with crb := { c.crb with merge := [] } }
  | b :: t =>
    if c.crb.closing then { c with crb := { c.crb with merge := b :: t } }
    else
      let c := { c with crb := { c.crb with openw := c.crb.openw ++ [b] } }
      let c := if c.crb.openw.length = 3 || (b.last && c.fld pgCRB CRB_CFG_PACKT = 0) then c.closeWord else c
      c.packBytes t

/-- A held word and waiting bytes move on when there is room (R295). -/
def Core.moveOn (c : Core) : Core :=
  let c := if c.crb.closing then c.closeWord else c
  if c.crb.closing then c else c.packBytes c.crb.merge

/-- A held word and waiting bytes move on, and LVLUP is judged (R295, R297). -/
def Core.pump (c : Core) : Core := c.moveOn.judgeLevel c.crb.fifo.length

/-- PACKT has passed since the open word's first byte (R294). -/
def Core.packTimeout (c : Core) (us : Nat) : Core :=
  let t := c.fld pgCRB CRB_CFG_PACKT
  if t ≠ 0 && t ≤ us && c.crb.openw ≠ [] && !c.crb.closing then c.closeWord.judgeLevel c.crb.fifo.length else c

/-! ## The merge stage (R290) -/

/-- The first producer in the order of R290 with a crumb waiting. -/
def Core.nextProducer (c : Core) : Option (Nat × Crumb × List Crumb) :=
  (List.range 5).foldl (fun (a : Option (Nat × Crumb × List Crumb)) p =>
    match a with
    | some x => some x
    | none => match vget c.crb.queues p [] with | x :: t => some (p, x, t) | [] => none) none

/-- The merge stage takes the next crumb: a LOST crumb for its producer's drops, a TIME crumb where its stamp needs one, and
the crumb (R290, R292). -/
def Core.mergeNext (c : Core) : Core :=
  if c.crb.merge ≠ [] || c.crb.closing then c.pump
  else match c.nextProducer with
    | none => c
    | some (p, x, t) =>
      let c := { c with crb := { c.crb with queues := vmod c.crb.queues p (fun _ => t) } }
      let lost := if x.lost = 0 then [] else crumbBytes 7 0xFF (BitVec.ofNat 8 p :: toLeBytes 2 (min 0xFFFF x.lost))
      let c := c.incSat pgCRB CRB_LOST_COUNT x.lost
      match x.at_ with
      | none =>
        (c.packBytes (lost ++ crumbBytes x.ty p x.payload)).judgeLevel c.crb.fifo.length
      | some tm =>
        let need := c.needsTime tm
        let base := if need then tm / 64 else c.crb.base.getD 0
        let c := { c with crb := { c.crb with base := some base } }
        (c.packBytes (lost ++ (if need then timeBytes base else []) ++ crumbBytes x.ty p (x.payload ++ toLeBytes 2 (tm / 64 - base)))).judgeLevel
          c.crb.fifo.length

/-! ## Flush and reset (R298 to R300) -/

/-- The bytes of whole FLUSH crumbs at the head of the merge stage, whose flushes came just before: their number. -/
def flushesAhead : Nat → List PByte → Nat
  | 0, _ => 0
  | k + 1, l => match l with
    | b :: _ => if b.hdr && b.val = 0x84 && b.prod = 0xFF then 5 + flushesAhead k (l.drop 5) else 0
    | [] => 0

/-- The crumb whose bytes have begun to enter the packer and whose last byte has not is cut by a flush (R298). -/
def Core.flushCuts (c : Core) : Bool := match c.crb.merge with | b :: _ => !b.hdr | [] => false

/-- CRB_CTRL.FLUSH (R298, R299). What waits in the merge stage and has not begun to enter the packer stays behind the FLUSH
crumb, with a TIME crumb where its own was cut; the FLUSH crumb of an earlier flush that waits there stays ahead of it. -/
def Core.crumbFlush (c : Core) : Core :=
  let cut := c.flushCuts
  let prod := match c.crb.merge with | b :: _ => if cut then b.prod else 0xFF | [] => 0xFF
  let left := if cut then c.crb.merge.dropWhile (fun b => !b.hdr) else c.crb.merge
  let ahead := flushesAhead left.length left
  let rest := left.drop ahead
  let words := c.crb.fifo.length + b2n c.crb.closing
  let hasTime := rest.any (fun b => b.hdr && b.val = 0x16)
  let flush := crumbBytes 8 0xFF [BitVec.ofNat 8 (b2n cut), BitVec.ofNat 8 prod, BitVec.ofNat 8 words, BitVec.ofNat 8 (words / 256)]
  let time := if rest = [] || hasTime then [] else timeBytes (c.crb.base.getD 0)
  let c := { c with crb := { c.crb with fifo := [], rp := c.crb.wp, openw := [], closing := false, merge := left.take ahead ++ flush ++ time ++ rest,
                                        base := if rest = [] then none else c.crb.base } }
  let c := ((c.setFld pgCRB CRB_LASTFL_PART prod).setFld pgCRB CRB_LASTFL_WORDS words).incSat pgCRB CRB_LOST_FLWORDS words
  let c := (c.syncFull).raise pgCRB 3
  if cut then c.raise pgCRB 4 else c

/-- CRB_CTRL.PRST (R300). -/
def Core.crbPageReset (c : Core) : Core := (({ c with crb := {} }).syncFull).resetPage pgCRB (fun _ => false)

/-- A write of CRB_CNT.LVL: kept to 1,024, and LVLUP at once when it lies at or below the fill (R297). -/
def Core.writeLvl (c : Core) (v : Nat) : Core :=
  let c := c.setFld pgCRB CRB_CNT_LVL (min 1024 v)
  if c.crumbLevel ≤ c.crb.fifo.length then c.raise pgCRB 0 else c

/-! ## Reading (R296, R301) -/

/-- CRB_DATA is no stream port: the ring master drains this device, or a freeze stands (R300, R301). -/
def Core.crumbClosed (c : Core) : Bool := (c.flag pgCRB CRB_CFG_DEST && !c.isMaster) || c.rpr.depth ≠ 0

/-- The head word as a port sees it. -/
def Core.crumbHead (c : Core) : Word := if c.crumbClosed then idleWord else c.crb.fifo.headD idleWord

/-- A read of CRB_DATA: the head word is popped, but not by JTAG; the pop and the push that it makes room for are judged together
(R296, R297). -/
def Core.crumbRead (c : Core) (p : HostPort) : Word × Core :=
  if c.crumbClosed || p = .jtag || c.crb.fifo = [] then (c.crumbHead, c)
  else
    let w := c.crumbHead
    (w, ((({ c with crb := { c.crb with fifo := c.crb.fifo.drop 1, rp := (c.crb.rp + 1) % 2048 } }).syncFull).moveOn).judgeLevel
      c.crb.fifo.length)

/-- A read of CRB_RDATA: the receive buffer's head is popped, and RP advances (R296, R305). -/
def Core.rdataRead (c : Core) (p : HostPort) : Word × Core :=
  if p = .jtag || c.rpr.depth ≠ 0 then (if c.rpr.depth ≠ 0 then idleWord else c.crb.rbuf.headD idleWord, c)
  else match c.crb.rbuf with
    | [] => (idleWord, c)
    | w :: t => (w, { c with crb := { c.crb with rbuf := t, rrp := (c.crb.rrp + 1) % 2048 } })

/-! ## Remote drain (R302 to R306) -/

/-- Gray code of an 11-bit pointer and back (R302). -/
def toGray (b : Nat) : Nat := (b % 2048) ^^^ (b % 2048 / 2)
def ofGray (g : Nat) : Nat :=
  let x := g % 2048
  let x := x ^^^ (x / 2)
  let x := x ^^^ (x / 4)
  let x := x ^^^ (x / 16)
  x ^^^ (x / 256)

/-- Words from pointer `a` to pointer `b`. -/
def ptrDist (a b : Nat) : Nat := (b + 2048 - a % 2048) % 2048

/-- This device answers the ring master's requests (R301). -/
def Core.drained (c : Core) : Bool := c.flag pgCRB CRB_CFG_DEST && !c.isMaster && c.rstate = 4

/-- RESYNC with the present pointers to the master or deputy that asked (R303, R306). -/
def Core.sendResync (c : Core) (src : Nat) : Core := c.sendMsg src (.crbResync c.crb.wp c.crb.rp)

/-- A REQ arrives from `src` with RP, FP and NMAX (R303). -/
def Core.takeReq (c : Core) (src rp fp nmax : Nat) : Core :=
  if !c.drained then c
  else
    let occ := c.crb.fifo.length
    let free := ptrDist c.crb.rp rp
    let skip := ptrDist rp fp
    if occ < free || occ < ptrDist c.crb.rp fp || occ - free < skip then c.sendResync src
    else
      let c := ((({ c with crb := { c.crb with fifo := c.crb.fifo.drop free, rp := rp } }).syncFull).moveOn).judgeLevel occ
      let l := (c.crb.fifo.drop skip).take (min 14 nmax)
      c.sendMsg src (.crbData c.crb.wp fp l)

/-- A SYNC arrives (R303). -/
def Core.takeSync (c : Core) (src : Nat) : Core := if c.drained then c.sendResync src else c

/-- This device drains others: the master, or its deputy (R305, R306). -/
def Core.drains (c : Core) : Bool := c.isMaster || c.stat pgLNK 4

/-- A REQ or a SYNC leaves for the selected device (R305). -/
def Core.sendReq (c : Core) : Core :=
  let c := { c with crb := { c.crb with reqWait := true } }
  c.sendMsg (c.fld pgCRB CRB_RSEL_ID) (.crbReq c.crb.rrp c.crb.rfp (min 14 (64 - c.crb.rbuf.length)))
def Core.sendSync (c : Core) : Core :=
  ({ c with crb := { c.crb with syncWait := true, reqWait := false } } : Core).sendMsg (c.fld pgCRB CRB_RSEL_ID) (.crbSync 14)

/-- A write of CRB_RSEL: the buffer empties, and a SYNC is sent (R305). -/
def Core.writeRsel (c : Core) (id : Nat) : Core :=
  let c := ({ c with crb := { c.crb with rbuf := [], syncWait := false, reqWait := false } }).setFld pgCRB CRB_RSEL_ID id
  if c.drains && id % 256 ≠ 0 then c.sendSync else c

/-- A DATA frame arrives (R305). -/
def Core.takeData (c : Core) (src wp fp : Nat) (words : List Word) : Core :=
  if !c.drains then c
  else if src = c.fld pgCRB CRB_RSEL_ID && !c.crb.syncWait && fp = c.crb.rfp &&
      words.length + c.crb.rbuf.length ≤ 64 then
    ({ c with crb := { c.crb with rbuf := c.crb.rbuf ++ words, rfp := (c.crb.rfp + words.length) % 2048, reqWait := false } }).setFld
      pgCRB CRB_RPTR_WPLAST wp
  else c.incSat pgCRB CRB_RSTAT_DUPS 1

/-- A RESYNC frame arrives (R305). -/
def Core.takeResync (c : Core) (src wp rp : Nat) : Core :=
  if !c.drains || src ≠ c.fld pgCRB CRB_RSEL_ID then c
  else
    ({ c with crb := { c.crb with rbuf := [], rrp := rp, rfp := rp, syncWait := false, reqWait := false } }).setFld
      pgCRB CRB_RPTR_WPLAST wp

/-- A request is due: room for 14 words and a remote that is not empty, or RPOLL since the previous one (R304, R305). -/
def Core.drainRequest (c : Core) (us : Nat) : Core :=
  let room := 64 - c.crb.rbuf.length
  if !c.drains || c.rstate ≠ 4 || c.fld pgCRB CRB_RSEL_ID = 0 || c.crb.reqWait || c.crb.syncWait || room = 0 then c
  else if (14 ≤ room && c.fld pgCRB CRB_RPTR_WPLAST ≠ c.crb.rfp) || zeroAsOne (c.fld pgCRB CRB_RCFG_RPOLL) ≤ us then c.sendReq
  else c

/-- A request has had no accepted answer for RTMO (R306). -/
def Core.drainTimeout (c : Core) (us : Nat) : Core :=
  if !c.drains || us < zeroAsOne (c.fld pgCRB CRB_RCFG_RTMO) || !(c.crb.reqWait || c.crb.syncWait) then c
  else
    let c := (c.incSat pgCRB CRB_RSTAT_RETRY 1).raise pgCRB 5
    if c.crb.syncWait then c.sendSync else c.sendReq

/-- CRB_CNT, CRB_RCNT, CRB_RPTR and CRB_PTR as they read; the remote count is that of R304 (log 31). -/
def Core.readCnt (c : Core) : Word := BitVec.ofNat 32 (c.crb.fifo.length + 2 ^ 16 * c.fld pgCRB CRB_CNT_LVL)
def Core.readRcnt (c : Core) : Word :=
  BitVec.ofNat 32 (ptrDist c.crb.rrp (c.fld pgCRB CRB_RPTR_WPLAST) + 2 ^ 16 * c.crb.rbuf.length)
def Core.readRptr (c : Core) : Word := BitVec.ofNat 32 (c.crb.rrp + 2 ^ 16 * c.fld pgCRB CRB_RPTR_WPLAST)
def Core.readPtr (c : Core) : Word := BitVec.ofNat 32 (c.crb.wp + 2 ^ 16 * c.crb.rp)

end Sys2Proof.Machine
end

