-- ==== Sys2Proof/Machine/Faults.lean ====
section
/-! DEFINITION. The fault collector: classification, class actions, hold sets, FAULT_N, release, forcing and the GRAVE
latch (R328 to R347). -/
namespace Sys2Proof.Machine

/-! ## Sources and scopes (R329, R333, R340) -/

/-- ATYPE of a source (R333). -/
def srcAtype (src : Nat) : Nat :=
  if src < 6 then 1 else match src with
  | 0x06 => 3 | 0x07 => 0xF | 0x08 => 0xF | 0x10 => 5 | 0x11 => 2 | 0x12 => 2 | 0x13 => 2 | 0x14 => 6 | 0x15 => 6
  | 0x16 => 4 | 0x18 => 4 | 0x19 => 7 | 0x1A => 7 | 0x1B => 7 | 0x20 => 8 | 0x21 => 8 | 0x22 => 8 | 0x23 => 5
  | 0x24 => 1 | 0x25 => 1 | 0x26 => 8 | 0x28 => 8 | 0x29 => 8 | 0x2A => 4 | 0x2B => 6 | 0x2E => 0xC | 0x31 => 9
  | 0x32 => 0xA | 0x33 => 9 | 0x38 => 0xB | 0x39 => 0xB | 0x3A => 0xB | 0x3B => 1 | 0x3C => 2 | 0x3D => 0xB | 0x3E => 0xB
  | 0x3F => 0xB | 0x40 => 0xD | 0x41 => 0xD | 0x42 => 0xD | 0x45 => 9 | 0x46 => 9 | 0x48 => 0xE | 0x49 => 0xE
  | 0x51 => 3 | 0x52 => 1
  | _ => 0

/-- A number that the table of R333 lists. -/
def srcListed (src : Nat) : Bool :=
  src ≤ 0x08 || (0x10 ≤ src && src ≤ 0x1C) || (0x20 ≤ src && src ≤ 0x2E) || (0x30 ≤ src && src ≤ 0x33) ||
  (0x38 ≤ src && src ≤ 0x46) || (0x48 ≤ src && src ≤ 0x4A) || (0x50 ≤ src && src ≤ 0x52) || src = 0x5E || src = 0x5F

/-- The RAIL action of an ATYPE can reach a target (R329, R334). -/
def atypeReaches (a : Nat) : Bool := [1, 2, 3, 5, 6, 7, 0xB, 0xF].contains a

/-- The targets that a RAIL action reaches, 0 to 7 rails and 8 to 11 channels; `running` applies the running-state condition
of an input bus (R329, R340). -/
def Core.scope (c : Core) (addr : Nat) (running : Bool) : List Nat :=
  let i := addr % 4096
  match addr / 4096 with
  | 1 => [i % 8]
  | 2 => let n := if i % 32 < 24 then c.portRail (i % 32) else 0xF; if n < 8 then [n] else []
  | 3 => let n := i / 16 % 16; if n < 8 then [n] else []
  | 5 => if i % 4 < 3 then (List.range 8).filter (fun n => c.railInGroup n (i % 4)) else []
  | 6 => (List.range 8).filter (fun n => c.vinsel n = i % 2 && (!running || (c.rail n).runs))
  | 7 => [8 + i % 4]
  | 0xB => if i / 2048 % 2 = 1 then [i / 256 % 8] else []
  | 0xF => if i % 16 < 12 then [i % 16] else []
  | _ => []

/-! ## Hold sets (R340) -/

/-- The hold set of a target; 12 and above stand for the DEVICE action. -/
def Core.holdSet (c : Core) (t : Nat) : HoldSet := if t < 12 then vget c.flt.holds t {} else c.flt.dev

/-- The live sources of a target's hold set (R340). -/
def Core.liveOf (c : Core) (t : Nat) : List Nat :=
  ((c.holdSet t).srcs.map (·.src)).filter (fun src =>
    c.flt.live.any (fun p => p.1 = src && (12 ≤ t || (c.scope p.2 false).contains t)))

/-- BUSY of a target (R340). -/
def Core.holdBusy (c : Core) (t : Nat) : Bool := c.liveOf t ≠ []

/-- FLT_HOLDt and FLT_DEVHOLD as they read (R340, R345). -/
def Core.holdWord (c : Core) (t : Nat) : Word :=
  let h := c.holdSet t
  let first := match h.srcs with | x :: _ => x.src | [] => 0xFF
  let low := (c.liveOf t).foldl min 0xFF
  BitVec.ofNat 32 (first + 2 ^ 8 * (h.count % 256) + 2 ^ 16 * b2n (c.holdBusy t) + 2 ^ 17 * b2n h.held + 2 ^ 24 * low)

/-- A hold set gains a source whose action reached it as a RAIL or as a DEVICE action (R335, R340). -/
def HoldSet.gain (h : HoldSet) (src : Nat) (dev : Bool) : HoldSet :=
  let srcs := if h.srcs.any (fun x => x.src = src)
    then h.srcs.map (fun x => if x.src = src then { x with rail := x.rail || !dev, dev := x.dev || dev } else x)
    else h.srcs ++ [⟨src, !dev, dev⟩]
  { srcs := srcs, count := (h.count + 1) % 256, held := true }

/-- An action reaches a target: SAFE, and its hold set gains the source (R335). -/
def Core.reach (c : Core) (t src : Nat) (dev : Bool) : Core :=
  let c := { c with flt := { c.flt with holds := vmod c.flt.holds t (fun h => h.gain src dev) } }
  if t < 8 then c.railToSafe t else c.xToSafe (t - 8)

/-- A target leaves SAFE with an empty hold set (R340). -/
def Core.freeTarget (c : Core) (t : Nat) : Core :=
  let c := { c with flt := { c.flt with holds := vmod c.flt.holds t (fun _ => {}) } }
  if t < 8 then c.railFromSafe t else c.xFromSafe (t - 8)

/-! ## Sticky bits and the levels of page FLT (R337, R344) -/

/-- Offset of the sticky word of a source. -/
def sstkOff (src : Nat) : Nat := 0x24 + src / 32 * 4

/-- The sticky bit of a source (R337). -/
def Core.srcSticky (c : Core) (src : Nat) : Bool := bitOf (c.reg pgFLT (sstkOff src)) (src % 32)

/-- The sticky bit of a source is set; its rise counts in FLT_EVC (R27, R337). -/
def Core.setSticky (c : Core) (src : Nat) : Core :=
  if c.srcSticky src then c
  else (c.setReg pgFLT (sstkOff src) (putBit (c.reg pgFLT (sstkOff src)) (src % 32) true)).countEvc pgFLT 1

/-- Sources with a sticky bit at 1. -/
def Core.stickies (c : Core) : List Nat := (List.range 96).filter c.srcSticky

/-- FAULT_N is driven low; it is released in reset and in BOOT (R337, R418, R420). -/
def State.faultLow (s : State) : Bool :=
  s.booted && (s.pw.grave || s.core.stickies.any (fun src => s.core.fld pgFLT FLT_CFG_FNCLS ≤ s.core.classOf src))

/-- The levels of FLT_STAT follow the sticky bits, the hold sets and the latch (R344). -/
def State.syncFlt (s : State) : State :=
  let low := s.faultLow
  let g := s.pw.grave
  s.onCore (fun c =>
    let l := c.stickies
    let c := c.setStat pgFLT 0 (l.any (fun src => c.classOf src = 0))
    let c := c.setStat pgFLT 1 (l.any (fun src => 1 ≤ c.classOf src))
    let c := c.setStat pgFLT 2 ((List.range 12).any (fun t => (c.holdSet t).held))
    ((c.setLevel pgFLT 3 c.flt.dev.held).setLevel pgFLT 4 g).setLevel pgFLT 5 low)

/-- A write of 1s to FLT_SSTKi: a bit whose source is live stays 1 and counts; `coinc` marks the sources with a message at
the same instant, whose bit is 1 and counts twice (R8, R26, R27, R337). -/
def Core.clearSstk (c : Core) (i : Nat) (w coinc : Word) : Core :=
  (bitsOf w).foldl (fun (c : Core) b =>
    let src := 32 * i + b
    let put (v : Bool) : Core := c.setReg pgFLT (0x24 + 4 * i) (putBit (c.reg pgFLT (0x24 + 4 * i)) b v)
    if bitOf coinc b then (put true).countEvc pgFLT 2
    else if !c.srcSticky src then c
    else if c.srcLive src then c.countEvc pgFLT 1
    else put false) c

/-- The other register of a snapshot of page FLT (R20, R345). -/
def snapMate (off : Nat) : Nat := if off = 0x3C then 0x40 else if off = 0x40 then 0x3C else if off = 0x44 then 0x48 else 0x44

/-- A host's read of FLT_FIRST, FLT_FIRSTT, FLT_LAST or FLT_LASTT: the first read of a pair takes both, and the next read
of the other returns what was taken with it (R20, R345; DESIGN CHOICE, log 92). -/
def Core.snapRead (c : Core) (off : Nat) : Word × Core :=
  match c.flt.snap.find? (fun p => p.1 = off) with
  | some p => (p.2, { c with flt := { c.flt with snap := c.flt.snap.filter (fun q => q.1 ≠ off) } })
  | none =>
    let m := snapMate off
    (c.reg pgFLT off, { c with flt := { c.flt with snap := c.flt.snap.filter (fun q => q.1 ≠ m) ++ [(m, c.reg pgFLT m)] } })

/-! ## Class actions (R335, R338) -/

/-- The Bakehouse's fault handling on a rise of DEVSAFE: the device leaves SEQUENCING or RUN for SAFE, where no pin is watched,
and FAULT runs (R335, R355, R359, R404). -/
def State.bakeFault (s : State) : State :=
  let s := if s.pw.pstate = .sequencing || s.pw.pstate = .run then
      { s.onCore Core.unwatch with pw := { s.pw with pstate := .safe } } else s
  s.onCore Core.bakeDevSafe

/-- The DEVICE action: every target to SAFE, lent ports to mid, DEVSAFE, and on its rise the SEQ outputs' release under
SEQSAFE and the Bakehouse's fault handling, which in BOOT waits for the programs (R335, R355, R358, R359; log 73). -/
def State.deviceAction (s : State) (src : Nat) : State :=
  let rise := !s.core.flt.dev.held
  let booted := s.booted
  let s := s.onCore (fun c =>
    let c := (List.range 12).foldl (fun (c : Core) t => c.reach t src true) c
    { c.lentAllMid with flt := { c.lentAllMid.flt with dev := c.flt.dev.gain src true } })
  if !rise then s
  else
    let s := s.onCore (fun c => (c.setLevel pgFLT 3 true).seqDevSafe)
    if booted then s.bakeFault else s

/-- Entry to GRAVE: the next BOOT is cold, and LASTGRAVE tells it of this session (R404, R410, R419). -/
def Power.enterGrave (p : Power) : Power := { p with pstate := .grave, fastok := false, lastGrave := true }

/-- Both copies of the GRAVE latch are set, and the latch keeps its first message and its time (R338, R404). -/
def Power.latchGrave (p : Power) (msg t : Word) : Power :=
  if p.grave then { p with graveD := true, graveV := true }
  else { p with graveD := true, graveV := true, graveMsg := msg, graveTime := t }

/-- The GRAVE latch is set, and the device enters GRAVE from SEQUENCING, RUN or SAFE; the fleet report's summary shows the
latch's message (R338, R366, R368, R404). -/
def State.setGrave (s : State) (msg : Word) : State :=
  let p := s.pw.latchGrave msg (BitVec.ofNat 32 s.core.time32)
  let s := if p.pstate = .sequencing || p.pstate = .run then s.onCore Core.unwatch else s
  let s := s.onCore (fun c => { c with bkh := { c.bkh with reportDue := true } })
  { s with pw := if p.pstate = .sequencing || p.pstate = .run || p.pstate = .safe then p.enterGrave else p }

/-- The sticky bit, FLT_LAST and FLT_FIRST, the count and the crumb of a message, and its black-box record where its class
reaches BKH_CFG.BBCLS (R332, R363). -/
def State.reportMsg (s : State) (w : Word) (cls : Nat) : State :=
  let src := msgSrc w
  let s := s.onCore (fun c =>
    let none0 := c.stickies = []
    let t := c.time32
    let c := c.setSticky src
    let c := (c.setFld pgFLT FLT_LAST_MSG w.toNat).setFld pgFLT FLT_LASTT_TIME t
    let c := if none0 then (c.setFld pgFLT FLT_FIRST_MSG w.toNat).setFld pgFLT FLT_FIRSTT_TIME t else c
    let c := (c.incSat pgFLT FLT_CNT_MSGS 1).raise pgFLT (if cls = 0 then 0 else 1)
    c.crumb 0 3 (wordBytes w) (some c.time.toNat))
  if s.core.fld pgBKH BKH_CFG_BBCLS ≤ cls then s.queueRecord 1 cls w else s

/-- A message is classified and acts (R332, R335). -/
def State.classify (s : State) (w : Word) : State :=
  let cls := s.core.classOf (msgSrc w)
  let src := msgSrc w
  let s :=
    if 3 ≤ cls then (s.deviceAction src).onCore (fun c => c.raise pgFLT 2)
    else if cls = 2 then
      let l := s.core.scope (msgAddr w) true
      let s := s.onCore (fun c => l.foldl (fun (c : Core) t => c.reach t src false) c)
      if l = [] then s else s.onCore (fun c => c.raise pgFLT 2)
    else s
  let s := if cls = 4 then s.setGrave w else s
  (s.reportMsg w cls).syncFlt

/-- A message as the check of R331 leaves it. -/
def checkedMsg (w : Word) : Word × Bool :=
  if !msgOk w then (mkMsg 0x5E 0 0, true) else if 0x5F < msgSrc w then (mkMsg 0x5E 1 0, true) else (w, false)

/-- The collector takes the oldest message of its latch (R330 to R332). -/
def State.takeMessage (s : State) : State :=
  match s.core.flt.latch with
  | [] => s
  | w :: t =>
    let s := s.onCore (fun c => ({ c with flt := { c.flt with latch := t } }).fillLatch [])
    let m := checkedMsg w
    let s := if m.2 then s.onCore (fun c => (c.incSat pgFLT FLT_CNT_MSGERR 1).raise pgFLT 6) else s
    s.classify m.1

/-- A check of the collector's own registers fails: the DEVICE safe state by the fixed path, the GRAVE latch and the message
of FLTREG (R339). -/
def State.fltReg (s : State) : State := s.classify (mkMsg 0x5F 0 0)

/-! ## Release (R340) -/

/-- A release of a target is refused (R340); 15 is the device. -/
def State.relRefused (s : State) (tgt count : Nat) : Bool :=
  s.pw.grave || (12 ≤ tgt && tgt ≠ 15) || s.core.holdBusy tgt || count ≠ (s.core.holdSet tgt).count ||
  (tgt ≠ 15 && s.core.stat pgFLT 3)

/-- The device is released: DEVSAFE ends, with every target that only DEVICE actions hold and whose BUSY is 0 (R340). -/
def State.freeDevice (s : State) : State :=
  let s := s.onCore (fun c =>
    let c := { c with flt := { c.flt with dev := {} } }
    (List.range 12).foldl (fun (c : Core) t =>
      if !c.holdBusy t && (c.holdSet t).held && (c.holdSet t).srcs.all (fun x => !x.rail) then c.freeTarget t else c) c)
  if s.pw.pstate = .safe then { s with pw := { s.pw with pstate := .run } } else s

/-- FLT_REL with GO at 1 (R340). -/
def State.release (s : State) (tgt count : Nat) : State :=
  if s.relRefused tgt count then s.onCore (fun c => c.raise pgFLT 7)
  else (if tgt = 15 then s.freeDevice else s.onCore (fun c => c.freeTarget tgt)).syncFlt

/-- A write of FLT_REL: TGT and COUNT are kept, and GO asks for the release (R345). -/
def State.writeRel (s : State) (w : Word) : State :=
  let s := s.onCore (fun c => (c.setFld pgFLT FLT_REL_TGT (getBits w 0 4)).setFld pgFLT FLT_REL_COUNT (getBits w 8 8))
  if bitOf w 16 then s.release (getBits w 0 4) (getBits w 8 8) else s

/-! ## Classes and forcing (R334, R341, R342) -/

/-- A write of one class field (R334). -/
def Core.writeClass (c : Core) (src v : Nat) : Core :=
  if !srcListed src then c
  else if src = 0x5F || 5 ≤ v || (v = 2 && !atypeReaches (srcAtype src)) then c.raise pgFSV 0
  else c.setFld pgFSV (FSV_CLS_CLASS src) v

/-- A write of FSV_CLSi (R29, R334). -/
def State.writeClasses (s : State) (i : Nat) (w : Word) : State :=
  if s.core.locked pgFSV (FSV_CLS_CLASS (8 * i)) then s
  else (s.onCore (fun c => (List.range 8).foldl (fun (c : Core) j => c.writeClass (8 * i + j) (getBits w (4 * j) 3)) c)).syncFlt

/-- A write of FSV_FRCi: a message of each source with KIND 0x3F and the ADDR of FSV_FRCADDR (R341). -/
def Core.forceFaults (c : Core) (i : Nat) (w : Word) : Core :=
  if bitOf (c.reg pgFSV 0x18) 4 then c
  else (bitsOf w).foldl (fun (c : Core) b =>
    if srcListed (32 * i + b) then c.send (32 * i + b) 0x3F (c.fld pgFSV FSV_FRCADDR_ADDR) else c) c

/-- FLT_CTRL.PRST: the records of past messages go; sticky bits, hold sets and the latch stay (R342). -/
def State.fltPageReset (s : State) : State :=
  (s.onCore (fun c =>
    let keep (f : Field) : Bool := 0x24 ≤ f.off && f.off < 0x3C
    let c := c.resetPage pgFLT keep
    { c with flt := { c.flt with snap := [] } }.setFld pgFLT FLT_LATCH_MAXDEPTH c.flt.latch.length)).syncFlt

/-- FSV_CTRL.PRST, ignored while a lock group of the page is closed (R342). -/
def State.fsvPageReset (s : State) : State :=
  if getBits (s.core.reg pgFSV 0x18) 0 4 ≠ 0 then s else (s.onCore (fun c => c.resetPage pgFSV (fun _ => false))).syncFlt

end Sys2Proof.Machine
end

