-- ==== Sys2Proof/Machine/Thermal.lean ====
section
/-! DEFINITION. Thermal and housekeeping: the round, the sensors' cross-check, the absolute and the rate limits, the
stage limits and the compensation words (R311 to R325). Readings reach a round as the operands of its end. -/
namespace Sys2Proof.Machine

/-- Round period in steps of 0.25 ms as the present PER gives it (R311). -/
def Core.thmPer (c : Core) : Nat := zeroAsOne (min 32 (c.fld pgTHM THM_CFG_PER))

/-- Confirming evaluations (R320). -/
def Core.tconf (c : Core) : Nat := zeroAsOne (min 4 (c.fld pgTHM THM_CFG_TCONF))

/-- Evaluations to exclusion and cross-check limit (R316). -/
def Core.xcnt (c : Core) : Nat := zeroAsOne (c.fld pgTHM THM_CFG_XCNT)
def Core.xchk (c : Core) : Nat := zeroAsOne (c.fld pgTHM THM_CFG_XCHK)

/-- Rate window in rounds (R322). -/
def Core.rrk (c : Core) : Nat := zeroAsOne (c.fld pgTHM THM_LIM_RRK)

/-- Sensor Ti is valid: it is not excluded (R316). -/
def Core.dieValid (c : Core) (i : Nat) : Bool := !c.flag pgTHM (THM_T_EXCL i)

/-- One evaluation of a confirmed condition: it rises after `k` evaluations in a row that meet it and falls after `k` in
a row that meet its release (R320). -/
def Confirm.eval (x : Confirm) (k : Nat) (meets releases : Bool) : Confirm :=
  if x.on then
    if !releases then { on := true, up := 0, dn := 0 }
    else if k ≤ x.dn + 1 then { on := false, up := 0, dn := 0 }
    else { on := true, up := 0, dn := x.dn + 1 }
  else
    if !meets then { on := false, up := 0, dn := 0 }
    else if k ≤ x.up + 1 then { on := true, up := 0, dn := 0 }
    else { on := false, up := x.up + 1, dn := 0 }

/-- Valid neighbours of Ti: T(i−1), T(i+1) and T(i+3), modulo 6 (R315). -/
def Core.neighbours (c : Core) (i : Nat) : List Nat :=
  [(i + 5) % 6, (i + 1) % 6, (i + 3) % 6].filter c.dieValid

/-- Twice the reference that Ti is judged against: the median of three valid neighbours, the mean of two, or the one;
none without a valid neighbour (R316). -/
def neighbourRef2 (t : Nat → Int) : List Nat → Option Int
  | [a, b, d] => some (2 * (t a + t b + t d - max (t a) (max (t b) (t d)) - min (t a) (min (t b) (t d))))
  | [a, b] => some (t a + t b)
  | [a] => some (2 * t a)
  | _ => none

/-- Twice the deviation of Ti, in 1/16 °C (R316). -/
def Core.deviation2 (c : Core) (t : Nat → Int) (i : Nat) : Option Int :=
  if c.dieValid i then (neighbourRef2 t (c.neighbours i)).map (fun m => 2 * t i - m) else none

/-- The hottest of the valid sensors and its reading; none without a valid sensor (R317). -/
def Core.hottest (c : Core) (t : Nat → Int) : Option (Nat × Int) :=
  ((List.range 6).filter c.dieValid).foldl
    (fun a i => match a with
      | some (j, x) => if x < t i then some (i, t i) else some (j, x)
      | none => some (i, t i)) none

/-- The stage temperature that a TMON voltage stands for, in 1/16 °C (R318). -/
def Core.stageTemp (c : Core) (g mv : Nat) : Int :=
  roundDiv (64 * ((mv : Int) - (c.fld pgTHM (THM_TMONCFG_V0C g) : Nat))) (zeroAsOne (c.fld pgTHM (THM_TMONCFG_GAIN g)))

/-- The readings of a round are written: die sensors, stage lines and supplies (R312, R318, R321). -/
def Core.thmReadings (c : Core) (temps : Nat → Int) (tmon sup : Nat → Nat) (win : Nat → Bool) : Core :=
  let tmon (g : Nat) : Nat := min 4095 (tmon g)
  let c := (List.range 6).foldl (fun c i => c.setSfld pgTHM (THM_T_TEMP i) (temps i)) c
  let c := (List.range 3).foldl (fun c g =>
    if c.groupInUse g && 250 ≤ tmon g then
      (c.setSfld pgTHM (THM_TMON_TEMP g) (c.stageTemp g (tmon g))).setFld pgTHM (THM_TMON_VALID g) 1
    else c.setFld pgTHM (THM_TMON_VALID g) 0) c
  (List.range 5).foldl (fun c s =>
    (c.setFld pgTHM (THM_SUP_V s) (min 4095 (sup s))).setFld pgTHM (THM_SUP_INWIN s) (b2n (win s))) c

/-- Stage temperature of rail `n`: the highest valid TMON among the groups of its local members (R318). -/
def Core.railTemp (c : Core) (n : Nat) : Option Int :=
  (((List.range 3).filter (fun g => c.railInGroup n g && c.flag pgTHM (THM_TMON_VALID g))).map
    (fun g => c.sfld pgTHM (THM_TMON_TEMP g))).foldl
      (fun a x => match a with | some y => some (max x y) | none => some x) none

/-- Supply window limits in mV (R321). -/
def supplyWindow (vio33 : Bool) (s : Nat) : Nat × Nat :=
  match s with
  | 0 => (3000, 3600) | 1 => (1620, 1980) | 2 => (700, 800)
  | 3 => if vio33 then (2970, 3630) else (1620, 1980)
  | _ => (2450, 3650)

/-- Fault source of a supply (R333). -/
def supplySrc (s : Nat) : Nat := if s < 3 then 0x28 else 0x29

/-- The comparator and the base sample of bus `b` disagree by more than 3 % (R320). -/
def Core.vinDisagrees (c : Core) (b : Nat) : Bool :=
  let v := vget c.tlm.vin b 0 * 16 * 100
  let lo := c.thrLo (32 + b) * 10 * c.vinDiv b
  let hi := c.thrHi (32 + b) * 10 * c.vinDiv b
  c.busServes b &&
  ((if c.cmpLo (32 + b) then v > lo * 103 else v < lo * 97) ||
   (if c.cmpHi (32 + b) then v < hi * 97 else v > hi * 103))

/-- A condition with a STAT bit and a live fault source: its level, its live level and, on a rise, its message. -/
def Core.condition (c : Core) (was now : Confirm) (bit src kind addr : Nat) : Core :=
  let c := (c.setLevel pgTHM bit now.on).setLive src addr now.on
  if now.on && !was.on then c.send src kind addr else c

/-- The die limits TJWARN and TSD (R320). -/
def Core.judgeTj (c : Core) (tj : Int) (src : Nat) : Core :=
  let k := c.tconf
  let w := 16 * (c.fld pgTHM THM_LIM_TJWARN : Int)
  let s := 16 * (c.fld pgTHM THM_LIM_TSD : Int)
  let h := 16 * (c.fld pgTHM THM_LIM_TSDHYS : Int)
  let a := c.thm.tjwarn.eval k (w ≤ tj) (tj < w - 80)
  let b := c.thm.tsd.eval k (s ≤ tj) (tj < s - h)
  let live (c : Core) (n : Nat) (on : Bool) : Core :=
    if on then c else { c with flt := { c.flt with live := c.flt.live.filter (fun p => p.1 ≠ n) } }
  let c' := live (live c 0x20 a.on) 0x21 b.on
  let go (c : Core) (was now : Confirm) (bit n : Nat) : Core :=
    let c := c.setLevel pgTHM bit now.on
    if now.on && !was.on then (c.setLive n (mkAddr 8 src) true).send n 0 (mkAddr 8 src) else c
  let c' := go (go c' c.thm.tjwarn a 2 0x20) c.thm.tsd b 3 0x21
  { c' with thm := { c'.thm with tjwarn := a, tsd := b } }

/-- The supplies: each rises on its own and all fall once all lie inside for TCONF evaluations (R320, R321). -/
def Core.judgeSupplies (c : Core) (sup : Nat → Nat) (win : Nat → Bool) : Core :=
  let k := c.tconf
  let all := (List.range 5).all win
  let c := (List.range 5).foldl (fun c s =>
    let was := vget c.thm.supply s {}
    let now := was.eval k (!win s) all
    let below := sup s < (supplyWindow (c.flag pgTHM THM_CFG_VIO33) s).1
    let c := c.setLive (supplySrc s) (mkAddr 8 (8 + s)) now.on
    let c := if now.on && !was.on then c.send (supplySrc s) (if below then 0 else 1) (mkAddr 8 (8 + s)) else c
    { c with thm := { c.thm with supply := vmod c.thm.supply s (fun _ => now) } }) c
  c.setLevel pgTHM 7 ((List.range 5).any (fun s => (vget c.thm.supply s {}).on))

/-- The references of C52 to C55: more than 0.5 % from nominal, in steps of 0.01 % (R320). -/
def Core.judgeRefs (c : Core) (refs : Nat → Int) : Core :=
  let k := c.tconf
  let off (i : Nat) : Bool := 50 < refs i || refs i < -50
  let all := (List.range 4).all (fun i => !off i)
  let c := (List.range 4).foldl (fun c i =>
    let was := vget c.thm.refdrift i {}
    let now := was.eval k (off i) all
    let addr := mkAddr 4 (52 + i + if 0 < refs i then 64 else 0)
    let c := if now.on then (if was.on then c else (c.setLive 0x2A addr true).send 0x2A 0 addr)
      else (c.setLive 0x2A (mkAddr 4 (52 + i)) false).setLive 0x2A (mkAddr 4 (116 + i)) false
    { c with thm := { c.thm with refdrift := vmod c.thm.refdrift i (fun _ => now) } }) c
  c.setLevel pgTHM 8 ((List.range 4).any (fun i => (vget c.thm.refdrift i {}).on))

/-- The input-bus cross-check (R320). -/
def Core.judgeVin (c : Core) : Core :=
  let k := c.tconf
  let c := (List.range 2).foldl (fun c b =>
    let was := vget c.thm.vinchk b {}
    let d := c.vinDisagrees b
    let now := was.eval k d (!d)
    let c := c.setLive 0x2B (mkAddr 6 b) now.on
    let c := if now.on && !was.on then c.send 0x2B 0 (mkAddr 6 b) else c
    { c with thm := { c.thm with vinchk := vmod c.thm.vinchk b (fun _ => now) } }) c
  c.setLevel pgTHM 9 ((List.range 2).any (fun b => (vget c.thm.vinchk b {}).on))

/-- A rise of `new` over `old` in 1/16 °C within RRK rounds exceeds `lim` °C/s; a limit of 0 is off (R322). -/
def Core.tooFast (c : Core) (lim : Nat) (new old : Option Int) : Bool :=
  match new, old with
  | some a, some b => lim ≠ 0 && 4000 * (a - b) > (lim * 16 * c.rrk * c.thm.per : Nat)
  | _, _ => false

/-- The rate limits TRISE and SRISE, and the history (R322). -/
def Core.judgeRates (c : Core) (now : ThmRow) : Core :=
  let k := c.tconf
  let old := if c.rrk ≤ c.thm.hist.length then c.thm.hist[c.rrk - 1]? else none
  let fast (i : Nat) : Bool := match old with
    | some r => c.tooFast (c.fld pgTHM THM_RATE_RRLIM) (vget now.die i none) (vget r.die i none)
    | none => false
  let sfast (g : Nat) : Bool := match old with
    | some r => c.tooFast (c.fld pgTHM THM_RATE_SRRLIM) (vget now.stage g none) (vget r.stage g none)
    | none => false
  let any := (List.range 6).any fast
  let first := ((List.range 6).find? fast).getD 0
  let was := c.thm.trise
  let tr := was.eval k any (!any)
  let c := c.setLevel pgTHM 4 tr.on
  let c := if tr.on && !was.on then (c.setLive 0x22 (mkAddr 8 first) true).send 0x22 0 (mkAddr 8 first)
    else if tr.on then c
    else { c with flt := { c.flt with live := c.flt.live.filter (fun p => p.1 ≠ 0x22) } }
  let c := { c with thm := { c.thm with trise := tr } }
  let c := (List.range 3).foldl (fun c g =>
    let was := vget c.thm.srise g {}
    let n := was.eval k (sfast g) (!sfast g)
    let c := c.condition was n (11 + g) 0x23 0 (mkAddr 5 g)
    { c with thm := { c.thm with srise := vmod c.thm.srise g (fun _ => n) } }) c
  { c with thm := { c.thm with hist := (now :: c.thm.hist).take c.rrk } }

/-- The stage limits of every rail (R319). -/
def Core.judgeStages (c : Core) : Core :=
  let k := c.tconf
  (List.range 8).foldl (fun c n =>
    let w := 16 * (c.fld pgTHM (THM_OTL_WARN n) : Int)
    let o := 16 * (c.fld pgTHM (THM_OTL_OT n) : Int)
    let t := c.railTemp n
    let above (l : Int) : Bool := match t with | some x => l ≤ x | none => false
    let below (l : Int) : Bool := match t with | some x => x < l - 80 | none => false
    let ww := vget c.thm.stgw n {}
    let oo := vget c.thm.stgot n {}
    let w' := ww.eval k (above w) (below w)
    let o' := oo.eval k (above o) (below o)
    let c := (c.condition ww w' (16 + n) 0x24 0 (mkAddr 1 n)).condition oo o' (24 + n) 0x25 0 (mkAddr 1 n)
    { c with thm := { c.thm with stgw := vmod c.thm.stgw n (fun _ => w'), stgot := vmod c.thm.stgot n (fun _ => o') } }) c

/-- The cross-check of the die sensors: deviations, exclusions and TSENSLOW (R316). -/
def Core.crossCheck (c0 : Core) (t : Nat → Int) : Core :=
  let c := (List.range 6).foldl (fun c i =>
    match c0.deviation2 t i with
    | none => { c with thm := { c.thm with xcnt := vmod c.thm.xcnt i (fun _ => 0) } }
    | some d =>
      let c := c.setSfld pgTHM (THM_T_DEV i) (roundDiv d 32)
      let n := if d.natAbs > 32 * c0.xchk then vget c.thm.xcnt i 0 + 1 else 0
      let c := { c with thm := { c.thm with xcnt := vmod c.thm.xcnt i (fun _ => n) } }
      if c0.xcnt ≤ n then
        (((c.setFld pgTHM (THM_T_EXCL i) 1).setFld pgTHM (THM_T_VALID i) 0).raise pgTHM 5).send 0x26 0 (mkAddr 8 i)
      else c) c0
  let low := ((List.range 6).filter c.dieValid).length < 3
  let was := c.stat pgTHM 6
  let c := (c.setLevel pgTHM 6 low).setLive 0x27 0 low
  if low && !was then c.send 0x27 0 0 else c

/-- The compensation words of a round, from coefficients that stand in OTP in a form the manual does not give: each
word is free, TREF within 20 ppm of its last value (R323, log 6). Engines get them as control-path transfers (R82). -/
def Core.compWords (c : Core) : Core :=
  let p := c.takeWord
  let old := c.sfld pgTHM THM_CREF_TREF
  let c := p.2.setSfld pgTHM THM_CREF_TREF (clampInt (old - 20) (old + 20) (toSigned 16 p.1.toNat))
  let c := [THM_CREF_BG, THM_CDLY0_R0, THM_CDLY0_R1, THM_CDLY0_R2, THM_CDLY1_R3, THM_CDLY1_R4, THM_CDLY1_R5].foldl
    (fun c f => c.freeFld pgTHM f) c
  { c with engs := c.engs.map (fun e => { e with compNew := true, compIn := (c.reg pgTHM THM_CDLY0_R0.off, c.reg pgTHM THM_CDLY1_R3.off) }) }

/-- TJ and its source; with no valid sensor the manual gives no value, and TJ is free (R317, log 6). -/
def Core.findTj (c : Core) (t : Nat → Int) : Core :=
  match c.hottest t with
  | some (i, x) => (c.setSfld pgTHM THM_TJ_TJ x).setFld pgTHM THM_TJ_SRC i
  | none => (c.freeFld pgTHM THM_TJ_TJ).freeFld pgTHM THM_TJ_SRC

/-- Steps 3 and 4 of a round (R312, R325). -/
def Core.thmEvaluate (c : Core) (t : Nat → Int) (tmon sup : Nat → Nat) (refs : Nat → Int) (words : Bool) : Core :=
  let win (s : Nat) : Bool :=
    let w := supplyWindow (c.flag pgTHM THM_CFG_VIO33) s
    w.1 ≤ sup s && sup s ≤ w.2
  let row : ThmRow := ⟨Vector.ofFn (fun i => if c.dieValid i then some (t i) else none), Vector.replicate 3 none⟩
  let c := (c.thmReadings t tmon sup win).findTj t
  let row := { row with stage := Vector.ofFn (fun g =>
    if c.flag pgTHM (THM_TMON_VALID g) then some (c.sfld pgTHM (THM_TMON_TEMP g)) else none) }
  let c := c.judgeTj (c.sfld pgTHM THM_TJ_TJ) (c.fld pgTHM THM_TJ_SRC)
  let c := ((((c.judgeSupplies sup win).judgeRefs refs).judgeVin).judgeRates row).judgeStages
  let c := c.crossCheck t
  let c := ((c.raise pgTHM 0).incWrap pgTHM THM_RNDCNT_COUNT 1).setFld pgTHM THM_LASTRND_TIME c.time32
  let c := if words && !c.flag pgTHM THM_CFG_CHOLD then c.compWords else c
  { c with thm := { c.thm with active := false, missed := 0 } }

/-- A round starts with the present PER, and a change of it restarts the history (R311, R322). -/
def Core.thmStart (c : Core) : Core :=
  { c with thm := { c.thm with active := true, per := c.thmPer, hist := if c.thm.per = c.thmPer then c.thm.hist else [] } }

/-- A write has changed RRK from what it was in `old`: the history restarts (R322). -/
def Core.rrkWritten (c old : Core) : Core := if c.rrk = old.rrk then c else { c with thm := { c.thm with hist := [] } }

/-- A round is abandoned: RNDMISS, HKMISS, and on the fourth in a row HKLOST (R313). -/
def Core.thmAbandon (c : Core) : Core :=
  let n := c.thm.missed + 1
  let c := (c.raise pgTHM 1).send 0x2C 0 0
  let c := if n = 4 then (c.raise pgTHM 10).send 0x2D 0 0 else c
  { c with thm := { c.thm with active := false, missed := n } }

/-- The housekeeping round runs in BOOT from the end of phase A, and in every later state (R311, R412). -/
def State.thmRuns (s : State) : Bool := s.alive && (1 ≤ s.pw.phase || s.booted)

end Sys2Proof.Machine
end

