-- ==== Sys2Proof/Machine/Telemetry.lean ====
section
/-! DEFINITION. The telemetry unit: base samples, windows, banks, peaks and the host view (R281 to R289). -/
namespace Sys2Proof.Machine

/-! ## Channels (R281) -/

/-- What a channel measures: its class of R281, with the rail, port or bus. -/
inductive Chan where
  | railV (n : Nat) | railI (n : Nat) | railP (n : Nat) | railT (n : Nat)
  | portI (k : Nat) | portT (k : Nat) | busV (b : Nat) | busI (b : Nat) | unused
  deriving DecidableEq, Repr

/-- The channel of a number (R281). -/
def chanOf (ch : Nat) : Chan :=
  if ch < 0x08 then .railV ch else if ch < 0x10 then .railI (ch - 0x08) else if ch < 0x18 then .railP (ch - 0x10)
  else if ch < 0x20 then .railT (ch - 0x18) else if ch < 0x38 then .portI (ch - 0x20)
  else if ch < 0x50 then .portT (ch - 0x38) else if ch < 0x52 then .busV (ch - 0x50)
  else if ch < 0x54 then .busI (ch - 0x52) else .unused

/-- Least and greatest value of the channel's value field (R281). -/
def Chan.range : Chan → Int × Int
  | .railV _ => (0, 65535)
  | .busV _ => (0, 131071)
  | .railI _ | .railP _ | .busI _ => (-8388608, 8388607)
  | _ => (-32768, 32767)

/-- Least and greatest value of the channel's peak fields (R281). -/
def Chan.peakRange : Chan → Int × Int
  | .railV _ | .busV _ => (0, 65535)
  | _ => (-32768, 32767)

/-- The value in the unit of the peak fields (R281, R289). -/
def Chan.toPeak (h : Chan) (v : Int) : Int :=
  let x := match h with
    | .railI _ | .busI _ => roundDiv v 8
    | .railP _ => roundDiv v 16
    | .busV _ => roundDiv v 2
    | _ => v
  clampInt h.peakRange.1 h.peakRange.2 x

/-- The class bit of TLM_CRB (R308). -/
def Chan.classBit : Chan → Nat
  | .railV _ => 0 | .railI _ => 1 | .railP _ => 2 | .railT _ => 3 | .portI _ => 4 | .portT _ => 5 | .busV _ => 6 | _ => 7

/-- The exponent of the channel's window in TLM_AVG; a temperature channel has none (R285). -/
def Core.window (c : Core) : Chan → Option Nat
  | .railV _ => some (c.fld pgTLM TLM_AVG_KV)
  | .railI _ => some (c.fld pgTLM TLM_AVG_KI)
  | .railP _ => some (c.fld pgTLM TLM_AVG_KP)
  | .portI _ => some (c.fld pgTLM TLM_AVG_KPH)
  | .busV _ => some (c.fld pgTLM TLM_AVG_KVIN)
  | .busI _ => some (c.fld pgTLM TLM_AVG_KIIN)
  | _ => none

/-- The latest base sample of a channel. -/
def Core.baseOf (c : Core) (ch : Nat) : Option Int := vget c.tlm.base ch none

/-! ## Window ends (R285, R291) -/

/-- The channel's rail or port is named by TLM_CRB.RAILS (R308). -/
def Core.chanNamed (c : Core) (h : Chan) : Bool :=
  let rails := c.fld pgTLM TLM_CRB_RAILS
  let port (k : Nat) : Bool := c.portRail k = 0xE || (c.portRail k < 8 && rails.testBit (c.portRail k))
  match h with
  | .railV n | .railI n | .railP n | .railT n => rails.testBit n
  | .portI k | .portT k => port k
  | .busV _ | .busI _ => true
  | .unused => false

/-- A window of a channel has ended with a result: the working bank takes it, and a TLM crumb reports one window in 2^DEC
(R286, R291). -/
def Core.windowEnd (c : Core) (ch : Nat) (v : Int) : Core :=
  let h := chanOf ch
  let w := vget c.tlm.wins ch 0 + 1
  let c := { c with tlm := { c.tlm with work := vmod c.tlm.work ch (fun _ => v), wins := vmod c.tlm.wins ch (fun _ => w) } }
  if (c.fld pgTLM TLM_CRB_CLASS).testBit h.classBit && c.chanNamed h && w % 2 ^ c.fld pgTLM TLM_CRB_DEC = 0 then
    c.crumb 4 2 (BitVec.ofNat 8 ch :: toLeBytes 3 (ofSigned 24 v)) (some c.time.toNat)
  else c

/-- A base sample enters the window of its channel; `k` is its count (R285). -/
def Core.intoWindow (c : Core) (k ch : Nat) : Core :=
  match c.window (chanOf ch) with
  | none => c
  | some e =>
    let m := k % 2 ^ e
    let c := if m = 0 then { c with tlm := { c.tlm with sum := vmod c.tlm.sum ch (fun _ => 0), whole := vmod c.tlm.whole ch (fun _ => true) } } else c
    let c := match c.baseOf ch with
      | some v => { c with tlm := { c.tlm with sum := vmod c.tlm.sum ch (· + v) } }
      | none => { c with tlm := { c.tlm with whole := vmod c.tlm.whole ch (fun _ => false) } }
    if m = 2 ^ e - 1 && vget c.tlm.whole ch false then c.windowEnd ch (roundDiv (vget c.tlm.sum ch 0) (2 ^ e)) else c

/-- The windows in progress are given up in an observe freeze (R288). -/
def Core.dropWindows (c : Core) : Core := { c with tlm := { c.tlm with whole := Vector.replicate 84 false } }

/-- A change of TLM_AVG from what it was in `old` gives up the windows in progress of the classes that it changes (DESIGN
CHOICE, log 34). -/
def Core.dropChanged (c old : Core) : Core :=
  { c with tlm := { c.tlm with whole := Vector.ofFn (fun (i : Fin 84) =>
      decide (c.window (chanOf i.val) = old.window (chanOf i.val)) && vget c.tlm.whole i.val false) } }

/-! ## Base samples (R281 to R284) -/

/-- TLM_STKY.SAT; the page stands still in a freeze (R281, R288). -/
def Core.raiseSat (c : Core) : Core := if c.rpr.depth = 0 then c.raise pgTLM 1 else c

/-- A channel's base sample, saturated to its field (R281). -/
def Core.putBase (c : Core) (ch : Nat) (v : Int) : Core :=
  let r := (chanOf ch).range
  let c := if v < r.1 || r.2 < v then c.raiseSat else c
  { c with tlm := { c.tlm with base := vmod c.tlm.base ch (fun _ => some (clampInt r.1 r.2 v)) } }

/-- A bus voltage of the interval in 0.5 mV, before it saturates to its field (R240, R281). -/
def Core.busCode (c : Core) (sums : Vector Nat 2) (b : Nat) : Nat :=
  (roundDiv (min 16380 (vget sums b 0) * c.vinDiv b) 64).toNat

/-- The bus voltages of the interval, delivered to the loop; `sums` are the sums of its four conversions (R282). -/
def Core.busVolts (c : Core) (sums : Vector Nat 2) : Core :=
  let v (b : Nat) : Nat := min 131071 (c.busCode sums b)
  { c with tlm := { c.tlm with vin := Vector.ofFn (fun b => v b.val) } }

/-- Sums of rail `n` over the interval. -/
def Core.railAcc (c : Core) (n : Nat) : RailAcc := vget c.tlm.acc n {}

/-- The base samples of a rail's voltage, current and power (R281, R282, R284). -/
def Core.railBase (c : Core) (n : Nat) : Core :=
  let a := c.railAcc n
  if a.n = 0 then c
  else
    let c := if a.sat then c.raiseSat else c
    let c := if a.search || (a.sat && (c.baseOf n).isNone) then c else c.putBase n (roundDiv a.v (1024 * a.n))
    let i := roundRat (a.i * 64 / a.n)
    let c := c.putBase (0x08 + n) i
    let c := match c.baseOf n, c.baseOf (0x08 + n) with
      | some v, some i => c.putBase (0x10 + n) (roundDiv (v * i) 8000)
      | _, _ => c
    c.modRail n (fun r => { r with avgSum := r.avgSum + i, avgCnt := r.avgCnt + 1 })

/-- The window centre of an idle rail is steered after an interval with a saturated sample (R282). -/
def Core.steerRail (c : Core) (n : Nat) : Core :=
  let r := c.rail n
  let idle := r.rstate = .off || r.rstate = .safe || (r.rstate = .precheck && r.preStage ≠ 2)
  if idle && (c.railAcc n).sat then
    let v := r.vo + (if (c.railAcc n).low then -491520 else 491520)
    { c with tlm := { c.tlm with steer := vmod c.tlm.steer n (fun _ => v) } }
  else c

/-- The base sample of a port's current (R281). -/
def Core.portBase (c : Core) (k : Nat) : Core :=
  let a := vget c.tlm.pacc k (0, 0)
  if a.2 = 0 then c else c.putBase (0x20 + k) (roundDiv a.1 a.2)

/-- The base sample of a bus's input current (R283). -/
def Core.busCurrent (c : Core) (b : Nat) : Core :=
  c.putBase (0x52 + b) (roundRat ((List.range 8).foldl (fun s n =>
    let a := c.railAcc n
    if c.vinsel n = b && a.n ≠ 0 then s + a.iin * 64 / a.n else s) (0 : Rat)))

/-- A base sample enters both peak registers of its channel (R289). -/
def Core.intoPeaks (c : Core) (ch : Nat) : Core :=
  match c.baseOf ch with
  | none => c
  | some v =>
    let p := (chanOf ch).toPeak v
    let f : Option (Int × Int) → Option (Int × Int)
      | none => some (p, p)
      | some (lo, hi) => some (min lo p, max hi p)
    { c with tlm := { c.tlm with pkr := vmod c.tlm.pkr ch f, pkc := vmod c.tlm.pkc ch f } }

/-! ## Banks (R286) -/

/-- The banks swap. -/
def Core.bankSwap (c : Core) : Core :=
  let c := { c with tlm := { c.tlm with stable := c.tlm.work, swapReq := false } }
  let c := (c.incWrap pgTLM TLM_BANK_SEQ 1).incWrap pgTLM TLM_BANK_BANK 1
  (c.setFld pgTLM TLM_CTRL_SWAP 0).raise pgTLM 0

/-- Window ends come before a swap at the same instant (R286). -/
def Core.endInterval (c : Core) (booted : Bool) : Core :=
  let k := match c.tlm.count with | some k => k + 1 | none => 0
  let c := if booted then { c with tlm := { c.tlm with count := some k } } else c
  if c.rpr.depth ≠ 0 then c
  else
    let c := (List.range 84).foldl (fun (c : Core) ch => c.intoPeaks ch) c
    let c := if booted then (List.range 84).foldl (fun (c : Core) ch => c.intoWindow k ch) c else c
    let frame := booted && c.flag pgTLM TLM_FRAME_AUTO && (k + 1) % 2 ^ c.fld pgTLM TLM_FRAME_FK = 0
    if c.tlm.swapReq || frame then c.bankSwap else c

/-- A base interval ends; `vin` holds the bus conversions of an interval that the input-sense converters covered whole
(R281, R282). In a freeze only Vin, the averages of R127 and the steering go on (R288). -/
def Core.baseSample (c : Core) (vin : Option (Vector Nat 2)) (booted : Bool) : Core :=
  let c := match vin with | some v => c.busVolts v | none => c
  let c := (List.range 8).foldl (fun (c : Core) n => (c.railBase n).steerRail n) c
  let c := (List.range 24).foldl (fun (c : Core) k => c.portBase k) c
  let c := match vin with
    | some v => [0, 1].foldl (fun (c : Core) b => c.putBase (0x50 + b) (c.busCode v b)) c
    | none => c
  let c := [0, 1].foldl (fun (c : Core) b => c.busCurrent b) c
  let c := { c with tlm := { c.tlm with acc := Vector.replicate 8 {}, pacc := Vector.replicate 24 (0, 0) } }
  c.endInterval booted

/-- The end of a housekeeping round gives the temperature channels their base samples, each a window of its own once BOOT has
ended; in observe freeze no window ends, and the base sample that follows the release is that of the latest round (R281, R282,
R285, R288, R314). -/
def Core.tempChannels (c : Core) (booted : Bool) : Core :=
  if c.rpr.depth = 2 then c
  else
    let one (c : Core) (ch : Nat) (t : Option Int) : Core :=
      match t with
      | none => c
      | some v =>
        let c := c.putBase ch v
        if booted && c.rpr.depth = 0 then c.windowEnd ch ((c.baseOf ch).getD 0) else c
    let c := (List.range 8).foldl (fun (c : Core) n => one c (0x18 + n) (c.railTemp n)) c
    (List.range 24).foldl (fun (c : Core) k =>
      one c (0x38 + k) (if c.flag pgTHM (THM_TMON_VALID (k / 8)) then some (c.sfld pgTHM (THM_TMON_TEMP (k / 8))) else none)) c

/-! ## Requests and reads (R286, R287, R289) -/

/-- TLM_CTRL.SWAP: the banks swap at the next base sample. -/
def Core.swapRequest (c : Core) : Core := ({ c with tlm := { c.tlm with swapReq := true } }).setFld pgTLM TLM_CTRL_SWAP 1

/-- TLM_CTRL.PKCALL, and TLM_PKCTL.CLR for the selected channel. -/
def Core.peakClearAll (c : Core) : Core := { c with tlm := { c.tlm with pkc := Vector.replicate 84 none } }
def Core.peakClear (c : Core) : Core :=
  { c with tlm := { c.tlm with pkc := vmod c.tlm.pkc (c.fld pgTLM TLM_SEL_CH) (fun _ => none) } }

/-- A peak register as it reads: MAX above MIN; the most negative and the most positive code when it has been cleared, and
0 for an unused channel (R281, R289). -/
def peakWord (ch : Nat) (p : Option (Int × Int)) : Word :=
  if 84 ≤ ch then 0
  else
    let r := (chanOf ch).peakRange
    let v := p.getD (r.2, r.1)
    BitVec.ofNat 32 (ofSigned 16 v.1 + 2 ^ 16 * ofSigned 16 v.2)

/-- A complete read of TLM_PKR clears the selected channel's peaks (R289). -/
def Core.pkrRead (c : Core) : Word × Core :=
  let ch := c.fld pgTLM TLM_SEL_CH
  (peakWord ch (vget c.tlm.pkr ch none), { c with tlm := { c.tlm with pkr := vmod c.tlm.pkr ch (fun _ => none) } })

/-- TLM_VAL, TLM_RAILn, TLM_VINb and TLM_IINb (R287, R308). -/
def Core.tlmValue (c : Core) (ch : Nat) : Word := BitVec.ofInt 32 (vget c.tlm.stable ch 0)
def Core.tlmRail (c : Core) (n : Nat) : Word :=
  BitVec.ofNat 32 (ofSigned 16 (clampInt 0 65535 (roundDiv (c.hostView n) 4)) + 2 ^ 16 * ofSignedSat 16 (roundDiv (c.hostView (0x08 + n)) 8))

/-- TLM_CTRL.PRST (R308). -/
def Core.tlmPageReset (c : Core) : Core :=
  let t : Tlm := {}
  let c := c.resetPage pgTLM (fun _ => false)
  { c with tlm := { t with vin := c.tlm.vin, steer := c.tlm.steer, acc := c.tlm.acc, pacc := c.tlm.pacc, base := c.tlm.base } }

end Sys2Proof.Machine
end

