-- ==== Sys2Proof/Machine/Reads.lean ====
section
/-! DEFINITION. What a register reads as, without side effects (R7, R9, R20, R33): the stored fields of the register, with
every field that shows live state put in from that state. A read with its side effect is in Registers.lean. -/
namespace Sys2Proof.Machine

/-- A word built from values and their lowest bits. -/
def packWordOf (l : List (Nat × Nat)) : Word := BitVec.ofNat 32 (l.foldl (fun a p => a + p.1 * 2 ^ p.2) 0)

/-- A word with live values put into fields. -/
def overlay (w : Word) (l : List (Field × Nat)) : Word := l.foldl (fun w p => setBits w p.1.lo p.1.len p.2) w

/-! ## Device and host pages -/

/-- Page DEV (R404, R407, R415, R423). -/
def State.readDev (s : State) (off : Nat) (w : Word) : Word :=
  let p := s.pw
  match off with
  | 0x20 => packWordOf [(p.pstate.code, 0), (b2n p.halt, 3), (p.cause, 8), (b2n p.cold, 16)]
  | 0x24 => packWordOf [(min 0xFFFF p.bootUs, 0)]
  | 0x28 => packWordOf [(b2n p.coldall, 0), (b2n p.swren, 1)]
  | 0x2C => packWordOf [(p.wakes, 0), (p.wakeFails, 8), (b2n p.fastok, 16), (b2n p.lastGrave, 17)]
  | 0x30 => BitVec.ofNat 32 s.core.time.toNat
  | _ => w

/-- The interrupt summary of the pages from `base` on (R30, R61). -/
def Core.isum (c : Core) (base : Nat) : Word :=
  BitVec.ofNat 32 ((List.range 32).foldl (fun a i => a + b2n ((kindOf (base + i)).isSome && c.irq (base + i)) * 2 ^ i) 0)

/-- Some page's interrupt is raised (R30, R51). -/
def Core.anyIrq (c : Core) : Bool := c.isum 0 ≠ 0 || c.isum 0x20 ≠ 0 || c.isum 0x40 ≠ 0

/-- HST_I3CSTb (R179). -/
def Core.i3cStatus (c : Core) (b : Nat) : Word :=
  let nctx := (c.cmd.ctxs.toList.filter (fun x => x.st = 1 && x.bus = b)).length
  let novf := (c.cmd.ovf.filter (fun x => x.bus = b)).length
  let nref := (c.bus b).refused.length
  packWordOf [(min 127 (nctx + novf + nref), 0), (nctx, 8), (min 127 novf, 16), (min 127 nref, 24)]

/-- Page HST (R61, R62, R179): PRST reads 1 until the reset begins. -/
def Core.readHst (c : Core) (off : Nat) (w : Word) : Word :=
  match off with
  | 0x04 => putBit w 31 c.hst.resetDue
  | 0x40 => c.isum 0
  | 0x44 => c.isum 0x20
  | 0x48 => c.isum 0x40
  | 0x70 => c.i3cStatus 0
  | 0x74 => c.i3cStatus 1
  | _ => w

/-! ## Fault, security, store and Bakehouse pages -/

/-- The live levels of sources 32·i on (R333). -/
def Core.liveWord (c : Core) (i : Nat) : Word :=
  BitVec.ofNat 32 ((List.range 32).foldl (fun a j => a + b2n (c.srcLive (32 * i + j)) * 2 ^ j) 0)

/-- Page FLT (R338, R340, R345). -/
def State.readFlt (s : State) (off : Nat) (w : Word) : Word :=
  let c := s.core
  if 0x30 ≤ off && off ≤ 0x38 then c.liveWord ((off - 0x30) / 4)
  else if 0x54 ≤ off && off ≤ 0x84 then c.holdWord ((off - 0x54) / 4)
  else match off with
  | 0x88 => overlay w [(FLT_LATCH_DEPTH, c.flt.latch.length)]
  | 0x8C => s.pw.graveMsg
  | 0x90 => s.pw.graveTime
  | _ => w

/-- Four bits, one per key slot. -/
def slotBits (f : Nat → Bool) : Nat := (List.range 4).foldl (fun a k => a + b2n (f k) * 2 ^ k) 0

/-- Page SEC: the key registers always read 0 (R386, R394, R399). -/
def State.readSec (s : State) (off : Nat) (w : Word) : Word :=
  match off with
  | 0x28 | 0x2C | 0x30 | 0x34 => 0
  | 0x24 => packWordOf [(slotBits s.keyProv, 0), (slotBits s.keyRev, 4), (slotBits s.keyDamaged, 8), (b2n s.provClosed, 12),
      (b2n s.imgAuth, 13), (s.imgKey, 14)]
  | 0x38 => overlay w [(SEC_KPROG_BUSY, b2n s.core.sec.burn.isSome)]
  | 0x4C => packWordOf [(slotBits s.keyRev, 0)]
  | 0x74 => overlay w [(SEC_FAIL_REMAIN, min 0xFFFF s.core.holdRemain)]
  | _ => w

/-- Page NVM (R377, R397). -/
def Core.readNvm (c : Core) (off : Nat) (w : Word) : Word :=
  match off with
  | 0x34 => overlay w [(NVM_OP_BUSY, b2n c.nvm.host.isSome)]
  | _ => w

/-- Page BKH (R357, R370). -/
def Core.readBkh (c : Core) (off : Nat) (w : Word) : Word :=
  match off with
  | 0x40 => overlay w [(BKH_SEQST_LEVEL, c.seqLevels)]
  | 0x4C => overlay w [(BKH_BBCNT_QDEPTH, c.bkh.queue.length)]
  | _ => w

/-! ## Telemetry and crumbs -/

/-- Page TLM (R287, R289, R308). -/
def Core.readTlm (c : Core) (off : Nat) (w : Word) : Word :=
  let ch := c.fld pgTLM TLM_SEL_CH
  if 0x40 ≤ off && off ≤ 0x5C then c.tlmRail ((off - 0x40) / 4)
  else match off with
  | 0x30 => c.tlmValue ch
  | 0x34 => peakWord ch (vget c.tlm.pkr ch none)
  | 0x38 => peakWord ch (vget c.tlm.pkc ch none)
  | 0x60 => BitVec.ofInt 32 (c.hostView 0x50)
  | 0x64 => BitVec.ofInt 32 (c.hostView 0x51)
  | 0x68 => BitVec.ofInt 32 (c.hostView 0x52)
  | 0x6C => BitVec.ofInt 32 (c.hostView 0x53)
  | _ => w

/-- The receive buffer's head, or the idle word (R305). -/
def Core.rdataHead (c : Core) : Word := (c.rdataRead .jtag).1

/-- Page CRB (R296, R304, R305, R310). -/
def Core.readCrb (c : Core) (off : Nat) (w : Word) : Word :=
  match off with
  | 0x24 => c.crumbHead
  | 0x28 => c.readCnt
  | 0x3C => c.rdataHead
  | 0x40 => c.readRcnt
  | 0x48 => c.readRptr
  | 0x50 => c.readPtr
  | _ => w

/-! ## Command pages -/

/-- What is left of the overflow hold of rail `n`, in 0.25 ms (R154, R177). -/
def Core.ovfRemain (c : Core) (n : Nat) : Nat :=
  match vget c.cmd.ovfVotes n none with
  | some (_, t) => min 0xFFFF ((t - c.absTime + 99999) / 100000)
  | none => 0

/-- CTRL of a command page: PRST reads 1 until the reset of the engine begins (R25, R170). -/
def Core.cmdCtrl (c : Core) (pg : Nat) (w : Word) : Word := putBit w 31 (c.cmd.resetPgs.contains pg)

/-- Page CMD (R177, R178). -/
def State.readCmd (s : State) (off : Nat) (w : Word) : Word :=
  let c := s.core
  if 0x40 ≤ off && off ≤ 0x5C then
    let n := (off - 0x40) / 4
    match vget c.cmd.ovfVotes n none with
    | some (v, _) => packWordOf [(v.code, 0), (1, 12), (c.ovfRemain n, 16)]
    | none => 0
  else match off with
  | 0x04 => c.cmdCtrl pgCMD w
  | 0x2C => overlay w [(CMD_TAGS_FREE, c.cmd.free.length)]
  | 0x30 => packWordOf [(min 255 c.cmd.ovf.length, 0), (min 15 (c.inflight 64), 8)]
  | 0x38 =>
    match vget (c.ctx (c.fld pgCMD CMD_VOTESEL_CTX)).votes (c.fld pgCMD CMD_VOTESEL_RAIL) none with
    | some v => packWordOf [(v.code, 0), (1, 12), (v.rate % 1024, 16)]
    | none => 0
  | 0x80 => s.otp 16
  | 0x84 => s.otp 17
  | _ => w

/-- The pages CTX0 to CTX3 (R180): page `p` holds contexts 16p to 16p + 15. -/
def Core.readCtx (c : Core) (p off : Nat) (w : Word) : Word :=
  if 0x20 ≤ off && off < 0xE0 then
    let i := 16 * p + (off - 0x20) / 12
    let x := c.ctx i
    match (off - 0x20) % 12 with
    | 0 =>
      let votes := (List.range 8).foldl (fun a n => a + b2n (vget x.votes n none).isSome * 2 ^ n) 0
      packWordOf [(x.da, 0), (x.bus, 7), (x.st, 8), (votes, 16), (min 15 (c.inflight i), 24), (min 15 x.pending, 28)]
    | 4 => BitVec.ofNat 32 x.pid
    | _ => packWordOf [(x.pid / 2 ^ 32 % 65536, 0), (x.bcr % 256, 16), (x.dcr % 256, 24)]
  else if 0xE0 ≤ off then
    let a := 16 * p + 2 * ((off - 0xE0) / 4)
    packWordOf [((c.ctx a).items % 65536, 0), ((c.ctx (a + 1)).items % 65536, 16)]
  else if off = 0x04 then c.cmdCtrl (pgCTX (16 * p)) w
  else w

/-- The pages TAG0 to TAG3 (R181). -/
def Core.readTag (c : Core) (p off : Nat) (w : Word) : Word :=
  if 0x20 ≤ off && off < 0xA0 then
    let x := c.item (32 * p + (off - 0x20) / 4)
    packWordOf [(x.ctx % 128, 0), (x.bus % 2, 7), (x.da % 128, 8), (x.opc % 256, 16), (x.phase % 8, 24), (x.rail % 16, 27),
      (b2n x.auth, 31)]
  else if off = 0x04 then c.cmdCtrl (pgTAG (32 * p)) w
  else w

/-- Page ORP: the orphaned record at the head (R167, R182). -/
def Core.readOrp (c : Core) (off : Nat) (w : Word) : Word :=
  let h := c.cmd.orp.head?
  let b := (h.map (·.bytes)).getD []
  let at_ (i : Nat) : Word := if h.isSome then bytesWord ((List.range 4).map (fun j => byteAt b (4 * i + j))) else 0
  match off with
  | 0x20 => packWordOf [(c.cmd.orp.length, 0)]
  | 0x28 =>
    match h with
    | some o => packWordOf [(o.da, 0), (o.bus, 7), (o.ctx, 8), (1, 15)]
    | none => 0
  | 0x2C => BitVec.ofNat 32 ((h.map (·.pid)).getD 0)
  | 0x30 => BitVec.ofNat 32 ((h.map (·.pid)).getD 0 / 2 ^ 32 % 65536)
  | 0x34 => at_ 0
  | 0x38 => at_ 1
  | 0x3C => at_ 2
  | 0x40 => at_ 3
  | 0x44 => BitVec.ofNat 32 ((h.map (·.counter)).getD 0)
  | _ => w

/-! ## Ring, auxiliary, comparator and repair pages -/

/-- Page LNK (R202, R219). -/
def Core.readLnk (c : Core) (off : Nat) (w : Word) : Word :=
  if 0xE0 ≤ off then
    let n := (off - 0xE0) / 4
    overlay w [(LNK_CRST_NREM n, ((c.rail n).order.filter (fun x => x.dev ≠ 0 && x.member)).length)]
  else match off with
  | 0x44 => c.readTopo
  | 0x5C => c.readOrdDat
  | _ => w

/-- Page AUX (R266, R273, R280). -/
def Core.readAux (c : Core) (off : Nat) (w : Word) : Word :=
  if 0x20 ≤ off && off < 0xA0 && off % 32 = 0x1C then
    let n := (off - 0x20) / 32
    overlay w [(AUX_XMON_STATE n, (c.xch n).st.code), (AUX_XMON_TRIP n, b2n (c.tripped (8 + n)))]
  else w

/-- Page CMP: the outputs of the 56 comparators (R222, R256). -/
def Core.readCmp (c : Core) (off : Nat) (w : Word) : Word :=
  match off with
  | 0xBC => BitVec.ofNat 32 c.prot.lo.toNat
  | 0xC0 => BitVec.ofNat 32 (c.prot.lo.toNat / 2 ^ 32)
  | 0xC4 => BitVec.ofNat 32 c.prot.hi.toNat
  | 0xC8 => BitVec.ofNat 32 (c.prot.hi.toNat / 2 ^ 32)
  | _ => w

/-- A window slice serves a rail (R424). -/
def Core.windowServes (c : Core) (i : Nat) : Bool := (List.range 8).any (fun n => vget c.rpr.map.wsl n 15 = i)

/-- A retest of a unit runs or waits (R433). -/
def Core.inRetest (c : Core) (unit : Nat) : Bool := hasAct (c.rpr.running ++ c.rpr.waiting) actRETEST unit

/-- The spare window slice that is free: not serving, not retired and not under retest (R424, R433, R445). -/
def Core.spareWindow (c : Core) : Option Nat :=
  (List.range 9).find? (fun i => !c.windowServes i && !c.rpr.map.wret.getLsbD i && !c.inRetest (16 + i))

/-- Phase slice 24 or 25 is free: it serves no port, waits for none, is not retired and not under retest (R424, R433,
R445). -/
def Core.phaseFree (c : Core) (i : Nat) : Bool :=
  (if i = 24 then c.rpr.map.sp24 else c.rpr.map.sp25) = 31 && !c.rpr.map.pret.getLsbD i && !c.inRetest (32 + i) &&
  !(c.rpr.pspend.any (fun p => p.2 = i))

/-- The spare phase slices that are free. -/
def Core.sparePhases (c : Core) : List Nat := [24, 25].filter c.phaseFree

/-- The phase slice that serves port `k` (R104). -/
def Core.phaseSlice (c : Core) (k : Nat) : Nat :=
  if c.rpr.map.sp24 = k then 24 else if c.rpr.map.sp25 = k then 25 else k

/-- Page RPR (R425, R435, R438, R442, R445). -/
def Core.readRpr (c : Core) (off : Nat) (w : Word) : Word :=
  let m := c.rpr.map
  match off with
  | 0x24 => packWordOf [(actMask c.rpr.running, 0), (actMask (c.rpr.waiting ++ if c.recordWaits then [⟨actBBWRITE, 0, 0⟩] else []), 8)]
  | 0x30 => packWordOf ((List.range 10).map (fun j => (vget m.engSt j 0 % 4, 2 * j)))
  | 0x34 => packWordOf [(m.wret.toNat, 0), (m.sp24, 16), (m.sp25, 21)]
  | 0x38 => packWordOf [(m.pret.toNat, 0)]
  | 0x3C => packWordOf ((List.range 24).map (fun k => (b2n (c.rpr.pspend.any (fun p => p.1 = k)), k)))
  | 0x40 => BitVec.ofNat 32 m.seq
  | 0x44 => packWordOf [(min 3 ((List.range 10).filter c.idleSpare).length, 0), (b2n c.spareWindow.isSome, 2),
      (c.sparePhases.length, 3), (8 - min 8 m.sram.length, 8),
      (64 - ((List.range 64).filter (fun g => m.taps.getLsbD g)).length, 16)]
  | 0x48 => overlay w [(RPR_FRZ_FULL, b2n (c.rpr.depth = 2)), (RPR_FRZ_DEPTH, c.rpr.depth), (RPR_FRZ_PIN, b2n c.rpr.pin)]
  | 0x50 => (c.rpr.rack[c.fld pgRPR RPR_RACKADDR_ADDR]?).getD 0
  | 0x54 => packWordOf [(b2n (c.rpr.rack ≠ []), 0), (b2n c.rpr.rackDepth, 1), (b2n c.rpr.rackKept, 2)]
  | _ => w

/-! ## Rail, port and engine pages -/

/-- The rail pages (R98, R133). -/
def Core.readV (c : Core) (n off : Nat) (w : Word) : Word :=
  let r := c.rail n
  match off with
  | 0x4C => packWordOf [(c.win n, 0), (r.vrefCode % 4096, 16), (r.rstate.code, 28)]
  | 0x50 => packWordOf [((r.droop / 64).toNat % 4096, 0)]
  | 0x58 => packWordOf [(c.railEng n, 0), (vget c.rpr.map.wsl n 15 % 16, 4),
      (if c.fld pgRPR RPR_SHADOW_RAIL = n then c.fld pgRPR RPR_SHADOW_ENGINE else 0xF, 8)]
  | 0x8C => overlay w [(V_KNEAD_KSTART, r.kstart)]
  | 0x98 => packWordOf [(r.nact % 256, 0), (r.nassign % 256, 8), (r.ntarget % 256, 16), (r.tstate % 8, 24)]
  | 0x9C => packWordOf [(ofSignedSat 16 (roundRat (c.ibase n * 64)), 0)]
  | 0xB8 => overlay w [(V_ORDCTL_NORD, r.nassign)]
  | _ => w

/-- The port pages (R134): Īk from the model of its slot. -/
def Core.readP (c : Core) (k off : Nat) (w : Word) : Word :=
  match off with
  | 0x3C =>
    match c.slotOf k with
    | some x => overlay w [(P_IMON_IBAR, ofSignedSat 16 (roundRat (x.ibar * 64)))]
    | none => overlay w [(P_IMON_IBAR, 0)]
  | 0x44 => packWordOf [(c.phaseSlice k, 0)]
  | _ => w

/-- The engine pages (R17, R99). -/
def Core.readE (c : Core) (j off : Nat) (w : Word) : Word :=
  match off with
  | 0x20 =>
    let shadowing := c.fld pgRPR RPR_SHADOW_ENGINE = j
    let role := if c.engSt j = 2 then 3 else if shadowing then 2 else if c.engRail j ≠ 15 then 1 else 0
    packWordOf [(c.engRail j, 0), (role, 4), (if shadowing then c.fld pgRPR RPR_SHADOW_RAIL else 0xF, 8)]
  | 0x2C => BitVec.ofInt 32 (toSigned 16 (getBits w 0 16))
  | 0x30 => BitVec.ofInt 32 (toSigned 16 (getBits w 0 16))
  | 0x34 => BitVec.ofInt 32 (toSigned 16 (getBits w 0 16))
  | 0x38 => BitVec.ofInt 32 (toSigned 16 (getBits w 0 16))
  | _ => w

/-- What a register reads as, without the side effect of a read; 0 on a page that is not implemented (R33). -/
def State.peek (s : State) (pg off : Nat) : Word :=
  let c := s.core
  match kindOf pg with
  | none => 0
  | some k =>
    if off = 0 then BitVec.ofNat 32 (idWord pg)
    else
      let w := c.reg pg off
      let i := pageInst pg
      match k with
      | .dev => s.readDev off w
      | .flt => s.readFlt off w
      | .fsv => w
      | .thm => w
      | .tlm => c.readTlm off w
      | .crb => c.readCrb off w
      | .cmd => s.readCmd off w
      | .sec => s.readSec off w
      | .nvm => c.readNvm off w
      | .bkh => c.readBkh off w
      | .lnk => c.readLnk off w
      | .aux => c.readAux off w
      | .cmp => c.readCmp off w
      | .trp => w
      | .rpr => c.readRpr off w
      | .hst => c.readHst off w
      | .v => c.readV i off w
      | .p => c.readP i off w
      | .e => c.readE i off w
      | .ctx => c.readCtx i off w
      | .tag => c.readTag i off w
      | .orp => c.readOrp off w

end Sys2Proof.Machine
end

