-- ==== Sys2Proof/Machine/Repair.lean ====
section
/-! DEFINITION. Self-repair and the freeze: self-test, shadow-verify, slice compare, recalibration, and the cooling rack
(R424 to R434, R438 to R442). Units and instances are numbered as Maint.lean states; the kinds of unit are those of R427:
0 engine, 1 window slice, 2 phase slice, 3 tap group, 4 SRAM row (array × 128 + row). -/
namespace Sys2Proof.Machine

/-! ## A unit is mapped out (R424, R427) -/

/-- An engine is retired; a rail it serves takes the next spare, or is left without one (R424, R427). -/
def Core.retireEngine (c : Core) (j : Nat) : Core :=
  let n := c.engRail j
  let c := c.modMap (fun m => { m with engSt := vmod m.engSt j (fun _ => 2) })
  let c := if n = 15 then c
    else match c.nextSpare with
      | some k => (c.modMap (fun m => { m with eng := vmod m.eng n (fun _ => k) })).swapMarks n j k
      | none => (c.modMap (fun m => { m with eng := vmod m.eng n (fun _ => 15) })).spareOut 0 n
  c.syncEngines

/-- The window slice of a rail changed. -/
def Core.setWindow (c : Core) (n i : Nat) : Core := c.modMap (fun m => { m with wsl := vmod m.wsl n (fun _ => i) })

/-- A window slice is retired; a rail it serves takes the spare, or keeps its failing slice (R424). -/
def Core.retireWindow (c : Core) (i : Nat) : Core :=
  let retire (c : Core) : Core := c.modMap (fun m => { m with wret := m.wret ||| (1#9 <<< i) })
  match (List.range 8).find? (fun n => vget c.rpr.map.wsl n 15 = i) with
  | none => retire c
  | some n =>
    match c.spareWindow with
    | some k => (retire c).setWindow n k
    | none => c.spareOut 1 n

/-- Phase slice 24 or 25 made to serve port `k`, or the port returned to its own slice. -/
def Core.setPhase (c : Core) (k i : Nat) : Core :=
  c.modMap (fun m => { m with sp24 := if i = 24 then k else if m.sp24 = k then 31 else m.sp24
                              sp25 := if i = 25 then k else if m.sp25 = k then 31 else m.sp25 })

/-- A phase slice retired. -/
def Core.retirePhaseBit (c : Core) (i : Nat) : Core := c.modMap (fun m => { m with pret := m.pret ||| (1#26 <<< i) })

/-- The port that a phase slice serves. -/
def Core.phasePort (c : Core) (i : Nat) : Option Nat := (List.range 24).find? (fun k => c.phaseSlice k = i)

/-- The slice that can take port `k` from the one that serves it (R424, R433): a free spare, or the port's own slice. -/
def Core.spareFor (c : Core) (k : Nat) : Option Nat :=
  match c.sparePhases.head? with
  | some i => some i
  | none => if c.phaseSlice k ≠ k && !c.rpr.map.pret.getLsbD k && !c.inRetest (32 + k) then some k else none

/-- A port's slice changes while the port is in mid: it is calibrated before the port may leave mid, and both sides of its
limit stay asserted until then (R104, R227). -/
def Core.changeSlice (c : Core) (k i : Nat) : Core :=
  ((((c.setPhase k i).raise (pgP k) 9).setStat (pgP k) 1 false).holdLimits k).calStart k

/-- A phase slice is retired; the port it serves takes a spare at once where `now`, or else at its next entry to mid; with
no spare it stays in service, and SPAREOUT is sent if the port serves a local rail (R424, R433, R444). -/
def Core.retirePhase (c : Core) (i : Nat) (now : Bool) : Core :=
  match c.phasePort i with
  | none => c.retirePhaseBit i
  | some k =>
    match c.spareFor k with
    | some x =>
      let c := c.retirePhaseBit i
      if now then (c.setPhase k x).raise (pgP k) 9 else { c with rpr := { c.rpr with pspend := c.rpr.pspend ++ [(k, x)] } }
    | none => if c.portRail k < 8 then c.spareOut 2 (c.portRail k) else c.raise pgRPR 7

/-- Spare rows of an array in service (R424). -/
def Core.rowsUsed (c : Core) (a : Nat) : Nat := (c.rpr.map.sram.filter (fun p => p.1 = a)).length

/-- A spare row of an array is free and has not failed a background test (R424, R428). -/
def Core.rowSpare (c : Core) (a : Nat) : Bool :=
  c.rowsUsed a + ([0, 1].filter (fun r => c.rpr.badSpares.contains (128 + 2 * a + r))).length < 2

/-- A tap group's spare is free and has not failed a background test (R424, R428). -/
def Core.tapSpare (c : Core) (g : Nat) : Bool := !c.rpr.map.taps.getLsbD g && !c.rpr.badSpares.contains (64 + g)

/-- An SRAM row takes a spare row of its array, or stays in use: UNREP and BISTMAP with KIND [5] (R424). -/
def Core.retireRow (c : Core) (num : Nat) : Core :=
  let a := num / 128
  if c.rowSpare a then
    c.modMap (fun m => { m with sram := m.sram ++ [(a, num % 128)] })
  else (c.setLevel pgRPR 5 true).send 0x50 (4 + 32) (mkAddr 0 num)

/-- A failing unit is mapped out: it is retired or takes a spare. A slice, a tap group or a row with no spare stays as it is
(R424). -/
def Core.mapsOut (c : Core) (kind num : Nat) : Bool :=
  match kind with
  | 0 => true
  | 1 => !c.windowServes num || c.spareWindow.isSome
  | 2 => match c.phasePort num with | some k => (c.spareFor k).isSome | none => true
  | 3 => c.tapSpare num
  | _ => c.rowSpare (num / 128)

/-- BISTMAP for a unit that a self-test maps out, and its count (R427, R445). -/
def Core.bistMaps (c : Core) (kind num : Nat) : Core :=
  ((c.raise pgRPR 4).send 0x50 kind (mkAddr 0 num)).incSat pgRPR RPR_BIST_FAILS 1

/-- An engine that cannot go on: it is retired at once, or while its rail runs at the rail's next firing boundary (R96, R424). -/
def Core.retireLive (c : Core) (j : Nat) (now : Bool) : Core :=
  let n := c.engRail j
  if now || c.restful n then c.retireEngine j
  else
    let c := c.modMap (fun m => { m with engSt := vmod m.engSt j (fun _ => 2) })
    { c.syncEngines with rpr := { c.syncEngines.rpr with swapDue := c.rpr.swapDue ++ [n] } }

/-- The unit that a tap group with no spare times, which the manual does not name, is retired and follows its own row, with
BISTMAP where a self-test has found the group (R424, R427; log 6). -/
def Core.retireTimed (c : Core) (now bist : Bool) : Core :=
  let p := c.takeWord
  let u := p.1.toNat % 45
  let c := p.2
  let maps (c : Core) (kind num : Nat) : Core := if bist && c.mapsOut kind num then c.bistMaps kind num else c
  if u < 10 then
    let n := c.engRail u
    (maps (if n < 8 then c.spareOut 3 n else c) 0 u).retireLive u now
  else if u < 19 then
    let c := match (List.range 8).find? (fun n => vget c.rpr.map.wsl n 15 = u - 10) with
      | some n => c.spareOut 3 n
      | none => c
    (maps c 1 (u - 10)).retireWindow (u - 10)
  else
    let c := match c.phasePort (u - 19) with
      | some k => if c.portRail k < 8 then c.spareOut 3 (c.portRail k) else c.raise pgRPR 7
      | none => c
    (maps c 2 (u - 19)).retirePhase (u - 19) now

/-- A tap group outside its limits runs on its spare group (R424, R434); `bist` says that a self-test has found it. -/
def Core.retireTap (c : Core) (g : Nat) (now bist : Bool) : Core :=
  if c.tapSpare g then c.modMap (fun m => { m with taps := m.taps ||| (1#64 <<< g) }) else c.retireTimed now bist

/-- A unit fails its self-test: it is mapped out with BISTMAP, or has no spare (R424, R427). `now` says that a port may take
a slice at once, as at BOOT. -/
def Core.bistFail (c : Core) (now : Bool) (kind num : Nat) : Core :=
  let c := if c.mapsOut kind num then c.bistMaps kind num else c
  match kind with
  | 0 => if num < 10 then c.retireEngine num else c
  | 1 => if num < 9 then c.retireWindow num else c
  | 2 => if num < 26 then c.retirePhase num now else c
  | 3 => if num < 64 then c.retireTap num now true else c
  | _ => if num < 512 then c.retireRow num else c

/-! ## Shadow-verify (R429 to R432) -/

/-- A rail may be shadowed (R429). -/
def Core.shadowable (c : Core) (n : Nat) : Bool :=
  let r := c.rail n
  (r.rstate = .hold || r.rstate = .slew) && c.railEng n ≠ 15

/-- The rail that the next shadow takes: one whose engine has reported LATOVR, else the next in the rotation (R429). -/
def Core.nextShadow (c : Core) : Option Nat :=
  let l := ((List.range 8).map (fun i => (c.fld pgRPR RPR_SHADOW_NEXT + i) % 8)).filter c.shadowable
  match l.find? (fun n => (c.eng (c.railEng n)).latovr) with
  | some n => some n
  | none => l.head?

/-- A shadow runs or waits. -/
def Core.shadowBusy (c : Core) : Bool := (c.rpr.running ++ c.rpr.waiting).any (fun a => a.code = actSHADOW)

/-- SHADOW is requested for a rail, `ms` after the previous shadow ended (R429). -/
def Core.shadowRequest (c : Core) (n ms : Nat) : Core :=
  match c.nextSpare with
  | none => c
  | some j =>
    if c.flag pgRPR RPR_CFG_SHEN && !c.shadowBusy && c.nextShadow = some n && zeroAsOne (c.fld pgRPR RPR_CFG_SHGAP) ≤ ms then
      (c.requestAct ⟨actSHADOW, n, j⟩).setFld pgRPR RPR_SHADOW_NEXT ((n + 1) % 8)
    else c

/-- The spare that the granted shadow has asked for, while it is idle (R429, R430). -/
def Core.shadowSpare (c : Core) : Option Nat :=
  (c.rpr.running.find? (fun a => a.code = actSHADOW && c.idleSpare a.spare)).map (·.spare)

/-- A granted shadow starts at the rail's next firing boundary (R430). -/
def Core.shadowStart (c : Core) : Core :=
  if !c.rpr.shadowPend then c
  else
    let c := { c with rpr := { c.rpr with shadowPend := false } }
    match c.rpr.running.find? (fun a => a.code = actSHADOW), c.shadowSpare with
    | some a, some j =>
      if !c.shadowable a.inst then c.endAct actSHADOW a.inst
      else
        let c := (c.setFld pgRPR RPR_SHADOW_ENGINE j).setFld pgRPR RPR_SHADOW_RAIL a.inst
        let c := c.setFld pgRPR RPR_SHADOW_SAMPLES 0
        let c := c.modEng (c.railEng a.inst) (fun e => { e with latovr := false })
        (c.setLevel (pgE j) 1 true).syncEngines
    | some a, none => c.endAct actSHADOW a.inst
    | none, _ => c

/-- 65,536 samples have passed with no mismatch: the shadow passes (R430). -/
def Core.shadowPass (c : Core) : Core :=
  if c.fld pgRPR RPR_SHADOW_ENGINE ≠ 0xF && c.rpr.takeover.isNone && 65536 ≤ c.fld pgRPR RPR_SHADOW_SAMPLES then
    (c.incSat pgRPR RPR_SHCNT_PASSES 1).endShadow 1
  else c

/-- A retest ends (R431, R433): an engine passes to state 1 or is retired; a slice is a spare again or is retired. The map
is written. -/
def Core.retestDone (c : Core) (u : Nat) (ok : Bool) : Core :=
  if !c.actRuns actRETEST u then c
  else
    let c := c.endAct actRETEST u
    let c :=
      if u < 10 then (c.modMap (fun m => { m with engSt := vmod m.engSt u (fun _ => if ok then 1 else 2) })).syncEngines
      else if ok then c
      else if u < 32 then c.modMap (fun m => { m with wret := m.wret ||| (1#9 <<< (u - 16)) })
      else c.retirePhaseBit (u - 32)
    c.queueMap

/-! ## Slice compare (R433) -/

/-- The unit of the spare slice that a compare uses. -/
def Core.compareSpare (c : Core) (inst : Nat) : Option Nat :=
  if inst < 16 then c.spareWindow.map (fun i => 16 + i) else (c.spareFor (inst - 16)).map (fun i => 32 + i)

/-- A slice compare runs or waits. -/
def Core.comparing (c : Core) : Bool := (c.rpr.running ++ c.rpr.waiting).any (fun a => a.code = actSLCMP)

/-- The next slice compare that follows a shadow is requested once the one before it has ended; one with no idle spare slice
is skipped (R433). -/
def Core.compareRequest (c : Core) : Core :=
  match c.rpr.slq with
  | [] => c
  | i :: t =>
    if c.comparing then c
    else
    let c := { c with rpr := { c.rpr with slq := t } }
    match c.compareSpare i with
    | some u => if c.flag pgRPR RPR_CFG_SLCEN then c.requestAct ⟨actSLCMP, i, u⟩ else c
    | none => c

/-- A slice compare that waits uses the spare that is idle when its grant comes, and is skipped where none is (R433). -/
def Core.freshCompares (c : Core) : Core :=
  ({ c with rpr := { c.rpr with waiting := c.rpr.waiting.filterMap (fun (a : Act) =>
      if a.code = actSLCMP then (c.compareSpare a.inst).map (fun u => { a with spare := u }) else some a) } }).syncPend

/-- A compare ends; on a mismatch a window slice is swapped at once, and a phase slice at the port's next entry to mid
(R433). -/
def Core.compareDone (c : Core) (inst : Nat) (mism : Bool) : Core :=
  match c.rpr.running.find? (fun a => a.code = actSLCMP && a.inst = inst) with
  | none => c
  | some a =>
    let c := c.endAct actSLCMP inst
    if !mism then c
    else if inst < 16 then
      let old := vget c.rpr.map.wsl inst 15
      let c := ((c.setWindow inst (a.spare - 16)).raise pgRPR 2).requestAct ⟨actRETEST, 16 + old, 0⟩
      c.queueMap
    else if c.rpr.pspend.any (fun p => p.1 = inst - 16 || p.2 = a.spare - 32) then c
    else { c with rpr := { c.rpr with pspend := c.rpr.pspend ++ [(inst - 16, a.spare - 32)] } }

/-! ## Background self-test and recalibration (R428, R434) -/

/-- Spare row `r` of array `a` is not in service: the rows that have not failed are taken in rising order. -/
def Core.rowIdle (c : Core) (a r : Nat) : Bool :=
  match c.rowsUsed a with
  | 0 => true
  | 1 => r = 1 && !c.rpr.badSpares.contains (128 + 2 * a)
  | _ => false

/-- A unit is in service, or is retired or found failing, or is being retested: the background pass has nothing to test (R428).
Units 64 + g are the spare tap groups, and 128 + 2 × a + r spare row r of array a (log 41). -/
def Core.skipUnit (c : Core) (u : Nat) : Bool :=
  if u < 10 then !c.idleSpare u || c.inRetest u
  else if u < 32 then c.windowServes (u - 16) || c.rpr.map.wret.getLsbD (u - 16) || c.inRetest u
  else if u < 64 then (c.phasePort (u - 32)).isSome || c.rpr.map.pret.getLsbD (u - 32) || c.inRetest u
  else if c.rpr.badSpares.contains u then true
  else if u < 128 then c.rpr.map.taps.getLsbD (u - 64)
  else !c.rowIdle ((u - 128) / 2) ((u - 128) % 2)

/-- The units not in service: engines, slices, spare tap groups and spare SRAM rows (R428). -/
def Core.idleUnits (c : Core) : List Nat :=
  ((List.range 10) ++ (List.range 9).map (fun i => 16 + i) ++ (List.range 26).map (fun i => 32 + i) ++
    (List.range 72).map (fun i => 64 + i)).filter (fun u => !c.skipUnit u)

/-- The pass goes on with its next unit that is still out of service, or ends (R428). -/
def Core.backgroundNext (c : Core) : Core :=
  let c := { c with rpr := { c.rpr with bgLeft := c.rpr.bgLeft.filter (fun u => !c.skipUnit u) } }
  match c.rpr.bgLeft with
  | [] => c.setFld pgRPR RPR_BIST_BGDONE 1
  | u :: _ => c.requestAct ⟨actBISTBG, u, 0⟩

/-- A unit taken into service is released by the background pass, which skips it (R428). -/
def Core.releaseTest (c : Core) (u : Nat) : Core :=
  if hasAct (c.rpr.running ++ c.rpr.waiting) actBISTBG u then
    let c := c.endAct actBISTBG u
    (({ c with rpr := { c.rpr with waiting := c.rpr.waiting.filter (fun a => !(a.code = actBISTBG && a.inst = u)),
                                   bgLeft := c.rpr.bgLeft.filter (fun x => x ≠ u) } }).syncPend).backgroundNext
  else c

/-- Every unit that has gone into service is released by the background pass (R428). -/
def Core.releaseTests (c : Core) : Core :=
  ((c.rpr.running ++ c.rpr.waiting).filter (fun a => a.code = actBISTBG && c.skipUnit a.inst)).foldl
    (fun (c : Core) a => c.releaseTest a.inst) c

/-- The changes of slice that wait for a port are made while the port is in mid (R104, R433). -/
def Core.pumpSlices (c : Core) : Core :=
  (c.rpr.pspend.filter (fun p => (c.port p.1).pwm = .mid)).foldl (fun (c : Core) p =>
    let old := c.phaseSlice p.1
    let c := { c with rpr := { c.rpr with pspend := c.rpr.pspend.filter (fun q => q.1 ≠ p.1) } }
    let c := ((c.changeSlice p.1 p.2).raise pgRPR 2).releaseTest (32 + p.2)
    let c := if c.rpr.map.pret.getLsbD old then c else c.requestAct ⟨actRETEST, 32 + old, 0⟩
    c.queueMap) c

/-- A background pass is requested; while one runs the request is merged with it. FAILS counts the units that the latest
pass, or the BOOT after it, maps out (R428, R437, R445, log 106). -/
def Core.background (c : Core) : Core :=
  if c.rpr.bgLeft ≠ [] then c
  else ({ c with rpr := { c.rpr with bgLeft := c.idleUnits } }.setFld pgRPR RPR_BIST_FAILS 0).backgroundNext

/-- A background pass is due `min` minutes after the one before it, and once without that wait after a fast BOOT (R428). -/
def Core.backgroundRun (c : Core) (min : Nat) : Core :=
  let p := c.fld pgRPR RPR_CFG_BGP
  if (!c.flag pgRPR RPR_BIST_BGDONE && !c.flag pgRPR RPR_BIST_FULLB) || (p ≠ 0 && p ≤ min) then c.background else c

/-- The kind and number of a unit of the background pass (R427); a spare tap group has the number of its group, and the spare
rows follow the 512 rows of the arrays (log 41). -/
def unitKind (u : Nat) : Nat × Nat :=
  if u < 10 then (0, u) else if u < 32 then (1, u - 16) else if u < 64 then (2, u - 32)
  else if u < 128 then (3, u - 64) else (4, 512 + (u - 128))

/-- A unit out of service fails its background test: an engine or a slice is retired, and a spare tap group or row is no spare
any more; each is mapped out with BISTMAP (R424, R427, R428). -/
def Core.backgroundFail (c : Core) (u : Nat) : Core :=
  let k := unitKind u
  if u < 64 then (c.bistFail false k.1 k.2).queueMap
  else ({ c with rpr := { c.rpr with badSpares := c.rpr.badSpares ++ [u] } }).bistMaps k.1 k.2

/-- The test of a unit ends (R428): a unit that has gone into service meanwhile is skipped, and one that fails is mapped
out. -/
def Core.backgroundDone (c : Core) (u : Nat) (ok : Bool) : Core :=
  if !c.actRuns actBISTBG u then c
  else
    let skip := c.skipUnit u
    let c := c.endAct actBISTBG u
    let c := { c with rpr := { c.rpr with bgLeft := c.rpr.bgLeft.filter (fun x => x ≠ u) } }
    let c := if ok || skip then c else c.backgroundFail u
    c.backgroundNext

/-- RECAL is requested: RECALP s after the last run, or after a cold BOOT (R434). -/
def Core.recalRequest (c : Core) (secs : Nat) : Core :=
  let p := c.fld pgRPR RPR_CFG_RECALP
  if c.rpr.recalLeft = [] && (c.rpr.recalDue || (p ≠ 0 && p ≤ secs)) then
    ({ c with rpr := { c.rpr with recalLeft := List.range 6, recalDue := false } }).requestAct ⟨actRECAL, 0, 0⟩
  else c

/-- A region has been measured (R434): each failing tap group goes to its spare, the new calibration waits for each engine's
firing boundary, and the next region is measured. -/
def Core.recalDone (c : Core) (region : Nat) (fails : List Nat) : Core :=
  if !c.actRuns actRECAL region then c
  else
    let m := c.rpr.map
    let c := c.endAct actRECAL region
    let left := c.rpr.recalLeft.filter (fun x => x ≠ region)
    let c := { c with rpr := { c.rpr with recalLeft := left } }
    let fails := fails.filter (fun g => g < 64)
    let c := fails.foldl (fun (c : Core) g => c.retireTap g false false) c
    let c := if c.rpr.map = m then c else c.queueMap
    let c := { c with engs := c.engs.map (fun e => { e with compNew := true }) }
    match left with
    | [] => c
    | r :: _ => c.requestAct ⟨actRECAL, r, 0⟩

/-! ## The cooling rack (R442) -/

/-- The word of two halves. -/
def halves (lo hi : Int) : Word := BitVec.ofNat 32 (ofSigned 16 lo + 2 ^ 16 * ofSigned 16 hi)

/-- An engine's words in the rack; one that serves and shadows no rail computes no e, y, w or u, so these are free
(R442; log 6). -/
def State.rackEngine (s : State) (p : List Word × Nat) (j : Nat) : List Word × Nat :=
  let c := s.core
  let n := if c.fld pgRPR RPR_SHADOW_ENGINE = j then c.fld pgRPR RPR_SHADOW_RAIL else c.engRail j
  let r := c.rail n
  let two : List Word × Nat :=
    if n < 8 then
      ([halves (snapValue r.e 64) (snapValue r.ySnap (64 * 2 ^ 35)), halves (snapValue r.w 64) (snapValue r.u (64 * 2048))], p.2)
    else ([Config.freeWord p.2, Config.freeWord (p.2 + 1)], p.2 + 2)
  (p.1 ++ [s.peek (pgE j) 0x20] ++ two.1 ++ [s.peek (pgE j) 0x24], two.2)

/-- The window history of a rail: 64 samples, oldest first, two to a word; places before the first sample are 0. -/
def Core.rackWindow (c : Core) (n : Nat) : List Word :=
  let h : List Nat := ((c.rail n).winHist.map (fun p => ofSigned 9 p.1 + 2 ^ 15 * b2n p.2)).reverse
  let h := List.replicate (64 - h.length) 0 ++ h
  (List.range 32).map (fun i => BitVec.ofNat 32 ((h[2 * i]?).getD 0 + 2 ^ 16 * (h[2 * i + 1]?).getD 0))

/-- The words of the rack from 0x020 to 0x9FF, and the next free value. -/
def State.rackBody (s : State) : List Word × Nat :=
  let c := s.core
  let rails := (List.range 8).flatMap (fun n =>
    ([0x4C, 0x98, 0x9C, 0x8C, 0x08, 0x54, 0x50].map (fun o => s.peek (pgV n) o)) ++ [BitVec.ofNat 32 ((c.rail n).ptr % 256)])
  let engs := (List.range 10).foldl s.rackEngine ([], c.free)
  let ports := (List.range 24).flatMap (fun k =>
    [s.peek (pgP k) 0x3C, s.peek (pgP k) 0x40, s.peek (pgP k) 0x48,
      packWordOf [((c.port k).pwm.code, 0), (b2n (c.stat (pgP k) 0), 2), (b2n (c.stat (pgP k) 1), 3), (c.phaseSlice k, 4)]])
  let hist := (List.range 8).flatMap c.rackWindow
  let faults := [s.peek pgFLT 0x3C, s.peek pgFLT 0x44] ++ (List.range 16).map (fun i => (c.flt.latch[i]?).getD 0) ++
    (List.range 13).map (fun t => c.holdWord t) ++ [0]
  let tags := (List.range 32).map (fun i =>
    packWordOf ((List.range 4).map (fun j => (getBits (s.peek (pgTAG (4 * i + j)) (0x20 + 4 * ((4 * i + j) % 32))) 24 8, 8 * j))))
  let binds := (List.range 64).map (fun i => s.peek (pgCTX i) (0x20 + 12 * (i % 16)))
  let ring := ([0x20, 0x08, 0x34, 0x48, 0x4C, 0x50] ++ (List.range 8).map (fun n => 0xE0 + 4 * n)).map (fun o => s.peek pgLNK o) ++ [0, 0]
  let service := [s.peek pgDEV 0x20, s.peek pgCRB 0x28, s.peek pgCRB 0x50, s.peek pgBKH 0x24, s.peek pgBKH 0x4C, s.peek pgNVM 0x34,
    s.peek pgHST 0x40, s.peek pgHST 0x44, s.peek pgHST 0x48, s.peek pgTHM 0x44, s.peek pgCMP 0xBC, s.peek pgCMP 0xC0,
    s.peek pgCMP 0xC4, s.peek pgCMP 0xC8, s.peek pgTRP 0x08, s.peek pgTRP 0x98] ++
    (List.range 4).map (fun n => s.peek pgAUX (0x3C + 32 * n)) ++ List.replicate 12 0
  (rails ++ engs.1 ++ ports ++ hist ++ faults ++ tags ++ binds ++ ring ++ service, engs.2)

/-- The rack is captured (R442). -/
def State.captureRack (s : State) : State :=
  let c := s.core
  let b := s.rackBody
  let full := c.rpr.depth = 2
  let head := [packWordOf [(1, 0), (b2n full, 8), (b2n c.rpr.byPin, 9)], BitVec.ofNat 32 c.time.toNat,
    BitVec.ofNat 32 (c.time.toNat / 2 ^ 32), s.peek pgDEV 0x20, s.peek pgRPR 0x08, s.peek pgRPR 0x24, BitVec.ofNat 32 (c.absTime - c.rpr.reqAt),
    crc32 (b.1.flatMap wordBytes)]
  s.onCore (fun c =>
    ({ c with free := b.2
              rpr := { c.rpr with rack := head ++ b.1 ++ List.replicate 384 0, rackDepth := full, rackKept := false } }).raise pgRPR 10)

/-! ## Freeze (R438 to R441) -/

/-- The depth that the level requests ask for: the pin and RPR_FRZ.OBS (R438). -/
def Core.freezeWant (c : Core) : Nat :=
  let pin := c.rpr.pin && c.flag pgRPR RPR_FRZ_FRZEN
  if pin && c.flag pgRPR RPR_FRZ_PINDEPTH then 2 else if pin || c.flag pgRPR RPR_FRZ_OBS then 1 else 0

/-- Observe freeze begins: service paths stop, telemetry windows in progress are dropped, and the rack is captured (R288,
R439, R442). -/
def State.enterObserve (s : State) (byPin : Bool) : State :=
  (s.onCore (fun c =>
    ({ c with rpr := { c.rpr with depth := 1, byPin := byPin, reqAt := c.absTime }, nvm := { c.nvm with eraseStop := c.nvm.erases = [] } }.setLevel
      pgRPR 8 true).dropWindows.syncPend)).captureRack

/-- Step 1 of full freeze (R440): no further firing, MID to every remote member, and every running activity ends. -/
def Core.enterFull (c : Core) (byPin : Bool) : Core :=
  if c.rpr.depth = 2 then c
  else
    let c := { c with nvm := { c.nvm with eraseStop := c.nvm.eraseStop || c.nvm.erases = [] } }
    let c := ({ c with rpr := { c.rpr with depth := 2, byPin := byPin, reqAt := c.absTime } }.setLevel pgRPR 8 false).setLevel pgRPR 9 true
    let c := c.dropWindows
    let c := (List.range 8).foldl (fun (c : Core) n => c.freezeRemotes n) c
    let c := if c.fld pgRPR RPR_SHADOW_ENGINE ≠ 0xF then c.endShadow 3 else c
    let c := (List.range 24).foldl (fun (c : Core) k => (c.modPort k (fun p => { p with ident := {}, fit := {} })).setLevel (pgP k) 3 false) c
    let c := { c with lnk := { c.lnk with idLent := [], remotes := c.lnk.remotes.map (fun (y : Remote) => { y with ident := {} }) } }
    { c with rpr := { c.rpr with running := [], shadowPend := false, takeover := none, slq := [], bgLeft := [], recalLeft := [] } }.syncPend

/-- Step 3 of full freeze: every PWM output is in mid (R440). -/
def Core.freezeAllMid (c : Core) : Core :=
  if c.rpr.depth = 2 && !c.rpr.allMid && (List.range 24).all (fun k => (c.port k).pwm = .mid) then
    { c with rpr := { c.rpr with allMid := true } }
  else c

/-- Step 4 of full freeze: every handshake stops and the rack is captured (R440). -/
def State.freezeHalt (s : State) : State :=
  if s.core.rpr.allMid && !s.core.rpr.halted then
    (s.onCore (fun c => { c with rpr := { c.rpr with halted := true } })).captureRack
  else s

/-- RPR_FRZ.RECAP (R442). -/
def State.recapture (s : State) : State :=
  if s.core.rpr.depth = 1 then
    (s.onCore (fun c => { c with rpr := { c.rpr with reqAt := c.absTime } })).captureRack
  else s

/-- A complete read of RPR_RACKDATA advances ADDR (R445). -/
def Core.rackRead (c : Core) : Core :=
  if c.flag pgRPR RPR_RACKADDR_INC then c.incWrap pgRPR RPR_RACKADDR_ADDR 1 else c

/-- A complete TAP instruction at an active TAP leaves its code in the instruction register (R443). -/
def Core.tapIs (c : Core) (code : Nat) : Core := { c with rpr := { c.rpr with tapIr := code } }

/-- RPR_CTRL.PRST: RPR_CFG, RPR_RACKADDR and the page head (R445). -/
def Core.rprPageReset (c : Core) : Core :=
  c.resetPage pgRPR (fun f => f.off ≠ 0x04 && f.off ≠ 0x20 && f.off ≠ 0x4C)

end Sys2Proof.Machine
end

