-- ==== Sys2Proof/Machine/PageResets.lean ====
section
/-! DEFINITION. The page resets, PRST of each CTRL register (R25, R29, R417): what each chapter returns to reset on its
page and what it leaves. -/
namespace Sys2Proof.Machine

/-- A page reset of the fields that `f` names, and of the head. -/
def Core.resetOnly (c : Core) (pg : Nat) (f : Field → Bool) : Core := c.resetPage pg (fun x => !f x)

/-- DEV_CTRL.PRST (R423). -/
def Core.devPageReset (c : Core) : Core := c.resetOnly pgDEV (fun f => f.off = 0x34)

/-- Vn_CTRL.PRST (R92, R98): an immediate off unless the rail is OFF or SAFE, then the page; the rail's goal and target
count follow the registers, and y is 0. -/
def Core.railPageReset (c : Core) (n : Nat) : Core :=
  let c := if c.flag pgTRP (TRP_RST_HICW n) then c.hicCancel n else c
  let c := if (c.rail n).rstate = .off || (c.rail n).rstate = .safe then c else c.immediateOff n
  let c := (c.resetPage (pgV n) (fun f => f.off = 0x4C)).modRail n (fun r => { r with yAcc := 0, kstart := 0, droop := 0 })
  ((c.rearb n 0).retarget n false)

/-- Pk_CTRL.PRST: the head, Pk_TON, Pk_FIRES and Pk_IDRES (R134). -/
def Core.portPageReset (c : Core) (k : Nat) : Core :=
  c.resetOnly (pgP k) (fun f => f.off = 0x40 || f.off = 0x48 || f.off = 0x38)

/-- En_CTRL.PRST: the head, En_LAT, En_FIRES and the snapshot (R99). -/
def Core.engPageReset (c : Core) (j : Nat) : Core := c.resetOnly (pgE j) (fun f => 0x24 ≤ f.off)

/-- ORP_CTRL.PRST: the queue and ORP_LOST (R182). -/
def Core.orpPageReset (c : Core) : Core :=
  (({ c with cmd := { c.cmd with orp := [] } }).setFld pgORP ORP_LOST_COUNT 0).resetOnly pgORP (fun _ => false)

/-- The counts toward a rise or a fall of a limit condition start again; whether it holds stays (R314). -/
def Confirm.again (x : Confirm) : Confirm := { x with up := 0, dn := 0 }

/-- The round under way is abandoned, every sensor is reinstated, and every confirmation starts again (R314). -/
def Core.thmClear (c : Core) : Core :=
  { c with thm := { c.thm with active := false
                               xcnt := Vector.replicate 6 0
                               hist := []
                               tjwarn := c.thm.tjwarn.again
                               tsd := c.thm.tsd.again
                               trise := c.thm.trise.again
                               srise := c.thm.srise.map Confirm.again
                               stgw := c.thm.stgw.map Confirm.again
                               stgot := c.thm.stgot.map Confirm.again
                               supply := c.thm.supply.map Confirm.again
                               refdrift := c.thm.refdrift.map Confirm.again
                               vinchk := c.thm.vinchk.map Confirm.again } }

/-- THM_CTRL.PRST (R314): the page returns to reset, and a new round starts; the limit conditions that hold stay until it
is evaluated. -/
def State.thmPageReset (s : State) : State :=
  let runs := s.thmRuns
  s.onCore (fun c =>
    let c := (c.resetPage pgTHM (fun _ => false)).thmClear
    if runs then c.thmStart else c)

/-- SEC_CTRL.PRST: the key registers and SEC_CFG (R399). -/
def Core.secPageReset (c : Core) : Core :=
  [SEC_KLD_KEY 0, SEC_KLD_KEY 1, SEC_KLD_KEY 2, SEC_KLD_KEY 3, SEC_CFG_RSK, SEC_CFG_HOLDT, SEC_CFG_DECAY].foldl
    (fun (c : Core) f => if c.locked pgSEC f then c else c.setFld pgSEC f f.rst) c

/-- NVM_CTRL.PRST (R397): NVM_OPADDR, NVM_OP, NVM_BUF and NVM_CFG; a host erase keeps the sector in progress only, a
program or read in progress goes on to its end, and one that has not begun is dropped. -/
def Core.nvmPageReset (c : Core) : Core :=
  let fs := [NVM_OPADDR_OFFSET, NVM_OPADDR_AREA, NVM_OP_OP, NVM_CFG_SCRUBP, NVM_CFG_RETN] ++ (List.range 8).map NVM_BUF_DATA
  let c := fs.foldl (fun (c : Core) f => if c.locked pgNVM f then c else c.setFld pgNVM f f.rst) c
  let erases := c.nvm.erases.take 1 ++ (c.nvm.erases.drop 1).filter (fun p => p.2 ≠ .host)
  let left := erases.any (fun p => p.2 = .host)
  let host := match c.nvm.host with | some h => if (if h.op = 2 then left else h.begun) then some h else none | none => none
  let c := { c with nvm := { c.nvm with erases := erases, host := host } }
  if host.isNone then c.setFld pgNVM NVM_OP_BUSY 0 else c

/-- BKH_CTRL.PRST (R370): the program stops as ABORT stops it, the record queue is cleared, and the page returns to
reset; the log, FRCNT and the programs are kept. -/
def State.bkhPageReset (s : State) : State :=
  s.abortProg.onCore (fun c =>
    let c := { c with bkh := { c.bkh with queue := c.bkh.queue.filter (fun r => r.begun) } }.syncPend
    let keep (f : Field) : Bool := [0x44, 0x48, 0x50, 0x54, 0x60].contains f.off
    let b := c.bkh
    let c := { c with bkh := { b with watch := 0, prog := if b.running then b.prog else 0, step := if b.running then b.step else 0 } }
    (c.resetPage pgBKH keep).showProg.syncWatch)

/-- HST_CTRL.PRST: the host-port registers and the head (R61, R62). -/
def Core.hstPageReset (c : Core) : Core :=
  let c := c.resetOnly pgHST (fun f => 0x24 ≤ f.off && f.off < 0x60)
  { c with hst := { c.hst with resetDue := false } }

/-- A page reset of HST and a software reset take effect once no frame or transaction is in progress (R62, R416). -/
def State.frameEnd (s : State) : State :=
  if s.core.hst.stream.isSome then s
  else
    let s := if s.core.hst.resetDue then s.onCore Core.hstPageReset else s
    if s.core.hst.swrstDue then s.deviceReset 4 else s

/-- PRST written to the CTRL register of a page. -/
def State.pageReset (s : State) (pg : Nat) : State :=
  let i := pageInst pg
  match kindOf pg with
  | none => s
  | some k =>
    match k with
    | .dev => s.onCore Core.devPageReset
    | .flt => s.fltPageReset
    | .fsv => s.fsvPageReset
    | .thm => s.thmPageReset
    | .tlm => s.onCore Core.tlmPageReset
    | .crb => s.onCore Core.crbPageReset
    | .cmd | .ctx | .tag => s.onCore (fun c => c.cmdReset pg)
    | .sec => s.onCore Core.secPageReset
    | .nvm => s.onCore Core.nvmPageReset
    | .bkh => s.bkhPageReset
    | .lnk => s.onCore Core.lnkPageReset
    | .aux => s.onCore Core.auxPageReset
    | .cmp => (s.onCore (fun c => c.cmpPageReset.xSides)).copyThr
    | .trp => s.onCore Core.trpPageReset
    | .rpr => s.onCore Core.rprPageReset
    | .hst => s.onCore (fun c => { c with hst := { c.hst with resetDue := true } })
    | .v => s.onCore (fun c => c.railPageReset i)
    | .p => s.onCore (fun c => c.portPageReset i)
    | .e => s.onCore (fun c => c.engPageReset i)
    | .orp => s.onCore Core.orpPageReset

end Sys2Proof.Machine
end

