-- ==== Sys2Proof/Machine/BakeRun.lean ====
section
/-! DEFINITION. The Bakehouse's program steps, its waits and the default DOWN (R348 to R362). -/
namespace Sys2Proof.Machine

/-- BKHFAIL of a cause at a step (R354, R369). -/
def Core.bakeFail (c : Core) (cause op step : Nat) : Core :=
  (c.raise pgBKH 2).send 0x48 (16 * cause + op) (mkAddr 0xE step)

/-- A program ends without FAIL (R369). -/
def State.programEnds (s : State) : State :=
  let p := s.core.bkh.prog
  (s.onCore (fun c => (c.raise pgBKH 1).stopProg)).afterProg p false

/-- The step pointer moves to a step, and no wait is left. -/
def Core.goStep (c : Core) (i : Nat) : Core := ({ c with bkh := { c.bkh with step := i, wait := .none } }).showProg

/-- The next step (R350). -/
def Core.nextStep (c : Core) : Core := c.goStep (c.bkh.step + 1)

/-- The step word at the step pointer. -/
def Core.stepWord (c : Core) : Option (BitVec 64) := (vget c.bkh.progs c.bkh.prog [])[c.bkh.step]?

/-- The step about to run has this OP: a program of steps runs, no wait is under way and service paths run (R353, R356,
R439). -/
def State.atStep (s : State) (op : Nat) : Option (BitVec 64) :=
  let b := s.core.bkh
  if s.serviceRuns && b.running && !b.default_ && b.wait = .none then
    match s.core.stepWord with
    | some w => if stOp w = op then some w else none
    | none => none
  else none

/-! ## The default DOWN (R356) -/

/-- The highest OUT pin that BKH_SEQOUT drives low. -/
def Core.lastDriven (c : Core) : Option Nat := ((List.range 16).reverse.find? c.seqDriven)

/-- Step 4: the next pin is released; 100 µs pass before another, and without another the default DOWN ends. -/
def State.releaseNext (s : State) : State :=
  let s := match s.core.lastDriven with
    | some i => s.onCore (fun c => c.seqDrive i false)
    | none => s
  if s.core.lastDriven.isSome then s.onCore (fun c => { c with bkh := { c.bkh with wait := .outPin } })
  else s.programEnds

/-- Steps 3 and 4. -/
def State.channelsOff (s : State) : State :=
  (s.onCore (fun c => (List.range 4).foldl (fun (c : Core) n => c.xWriteEn n false) c)).releaseNext

/-- Step 1: a soft turn-off of every rail whose EN is 1. -/
def Core.railsDown (c : Core) : Core :=
  let c := (List.range 8).foldl (fun (c : Core) n => if c.flag (pgV n) V_CTRL_EN then c.writeEn n false true true else c) c
  { c with bkh := { c.bkh with wait := .railsOff } }

/-- Every rail is OFF. -/
def Core.railsOff (c : Core) : Bool := c.rails.toList.all (fun r => r.rstate = .off)

/-- What the Bakehouse does of itself once its conditions hold: the default DOWN's steps, and the end of a WAITGOOD whose
rail or channel is held (R353, R356). -/
def State.pumpBake (s : State) : State :=
  if !s.serviceRuns || !s.core.bkh.running then s
  else if s.core.bkh.default_ then
    let s := if s.core.bkh.wait = .none then s.onCore Core.railsDown else s
    if s.core.bkh.wait = .railsOff && s.core.railsOff then s.channelsOff else s
  else match s.core.bkh.wait with
    | .good t _ => if t < 12 && (s.core.holdSet t).held then s.onCore (fun c => c.setFF.nextStep) else s
    | _ => s

/-- A wait of the default DOWN ends: the 10 ms for the rails, or 100 µs between two pins. -/
def State.defaultWaitEnd (s : State) : State :=
  if !s.serviceRuns || !s.core.bkh.running then s
  else match s.core.bkh.wait with
    | .railsOff => s.channelsOff
    | .outPin => s.releaseNext
    | _ => s

/-! ## The steps (R350 to R354) -/

/-- END. -/
def State.stepEnd (s : State) : State :=
  match s.atStep 0x0 with
  | none => s
  | some w =>
    let fail := stFlg w % 2 = 1
    let i := s.core.bkh.step
    let p := s.core.bkh.prog
    let s := s.onCore (fun c => (c.setFld pgBKH BKH_PROG_RESULT (stDat w)).setFld pgBKH BKH_PROG_LASTFAIL (b2n fail))
    if fail then
      (((s.queueRecord 5 (stDat w % 256) 0).onCore (fun c => (c.bakeFail 0 0 i).stopProg))).afterProg p false
    else s.programEnds

/-- An ENABLE that is refused sets FF and sends BKHFAIL with cause 1 (R353, R354). -/
def Core.stepRefused (c : Core) : Core := c.setFF.bakeFail 1 1 c.bkh.step

/-- ENABLE of a rail or a channel; 1 on a held one is refused (R351, R353). -/
def Core.stepOn (c : Core) (t : Nat) (on soft : Bool) : Core :=
  let c := if tgtRail t then c.writeEn t on soft true else c.xWriteEn (t - 8) on
  if on && (c.holdSet t).held then c.stepRefused else c

/-- ENABLE of a SEQ pin: one whose role is not OUT is refused, and a pin that is released ends the watches paired with it
(R351, R357, R359). -/
def Core.stepPin (c : Core) (i : Nat) (on : Bool) : Core :=
  if c.seqRole i ≠ 1 then c.stepRefused
  else if on then c.seqDrive i true
  else (c.seqDrive i false).unwatchPaired i

/-- ENABLE of a release: FLT_REL with the hold's own count (R351, R353). -/
def State.stepRelease (s : State) (t : Nat) : State :=
  let tgt := if t = 0x4F then 15 else t - 0x40
  let cnt := (s.core.holdSet tgt).count
  let no := s.relRefused tgt cnt
  let s := s.writeRel (BitVec.ofNat 32 (tgt + 256 * cnt + 65536))
  if no then s.onCore Core.stepRefused else s

/-- ENABLE. -/
def State.stepEnable (s : State) : State :=
  match s.atStep 0x1 with
  | none => s
  | some w =>
    let t := stTgt w
    let on : Bool := stFlg w % 2 = 1
    let s :=
      if tgtRail t || tgtAux t then s.onCore (fun c => c.stepOn t on (2 ≤ stFlg w))
      else if tgtSeq t then s.onCore (fun c => c.stepPin (t - 0x10) on)
      else s.stepRelease t
    s.onCore Core.nextStep

/-- The good bit of a target (R351). -/
def Core.goodBit (c : Core) (t : Nat) : Bool :=
  if tgtRail t then c.stat (pgV t) 0 else if tgtAux t then c.stat pgAUX (t - 8) else c.seqGood (t - 0x10)

/-- WAITGOOD begins; on a held target, or a SEQ pin whose role is not IN, it ends at once with FF (R353). -/
def State.stepWait (s : State) : State :=
  match s.atStep 0x3 with
  | none => s
  | some w =>
    let t := stTgt w
    s.onCore (fun c =>
      if (t < 12 && (c.holdSet t).held) || (tgtSeq t && c.seqRole (t - 0x10) ≠ 2) then c.setFF.nextStep
      else { c with bkh := { c.bkh with wait := .good t (stFlg w % 2 = 1) } })

/-- The awaited good bit equals WANT; a pin waited for with WANT 1 becomes watched (R354, R359). -/
def State.waitSatisfied (s : State) : State :=
  match s.core.bkh.wait with
  | .good t want =>
    if !s.serviceRuns || !s.core.bkh.running || s.core.goodBit t ≠ want then s
    else s.onCore (fun c =>
      let c := c.nextStep
      if tgtSeq t && want then ({ c with bkh := { c.bkh with watch := c.bkh.watch ||| (1#16 <<< (t - 0x10)) } }).syncWatch else c)
  | _ => s

/-- A WAITGOOD times out; a good bit that has reached WANT at that instant comes first (R354, R355). -/
def State.waitTimeout (s : State) : State :=
  match s.core.bkh.wait with
  | .good t want =>
    if !s.serviceRuns || !s.core.bkh.running || s.core.goodBit t = want then s
    else s.onCore (fun c => ((c.setFF.raise pgBKH 3).send 0x49 0 (mkAddr 0xE c.bkh.step)).nextStep)
  | _ => s

/-- DELAY begins. -/
def State.stepDelay (s : State) : State :=
  match s.atStep 0x4 with
  | none => s
  | some _ => s.onCore (fun c => { c with bkh := { c.bkh with wait := .delay } })

/-- A DELAY ends. -/
def State.delayEnd (s : State) : State :=
  if s.serviceRuns && s.core.bkh.running && s.core.bkh.wait = .delay then s.onCore Core.nextStep else s

/-- CHECK: the register is read without a side effect (R354). -/
def State.stepCheck (s : State) : State :=
  match s.atStep 0x5 with
  | none => s
  | some w =>
    let v := s.peek (stArg w / 256) (stArg w % 256)
    let half := getBits v (if stFlg w % 2 = 1 then 16 else 0) 16
    let eq : Bool := (half &&& (stDat w / 65536)) = stDat w % 65536
    s.onCore (fun c => (c.setFld pgBKH BKH_PROG_CF (b2n (xor eq (2 ≤ stFlg w)))).nextStep)

/-- A BRFAULT condition (R350). -/
def Core.branchCond (c : Core) (f : Nat) : Bool :=
  match f with
  | 0 => !c.flag pgBKH BKH_PROG_CF
  | 1 => c.flag pgBKH BKH_PROG_FF
  | 2 => c.stat pgFLT 2
  | 3 => c.stat pgFLT 3
  | 4 => c.stat pgFLT 1
  | 5 => c.cmpLo 51
  | _ => true

/-- BRFAULT. -/
def State.stepBranch (s : State) : State :=
  match s.atStep 0x6 with
  | none => s
  | some w => s.onCore (fun c => if c.branchCond (stFlg w) then c.goStep (stArg w % 64) else c.nextStep)

/-- REPORT: a crumb with RCODE and, with REG, the register word (log 36), and with BB a record (R350, R363). -/
def State.stepReport (s : State) : State :=
  match s.atStep 0x7 with
  | none => s
  | some w =>
    let reg : Bool := 2 ≤ stFlg w
    let v := if reg then s.peek (stDat w / 256 % 256) (stDat w % 256) else 0
    let code := stArg w % 256
    let s := s.onCore (fun c =>
      c.crumb 3 6 ([BitVec.ofNat 8 code] ++ (if reg then wordBytes v else [])) (some c.time.toNat))
    let s := if stFlg w % 2 = 1 then s.queueRecord 4 code v else s
    s.onCore Core.nextStep

/-! ## Pins and parking (R357 to R362) -/

/-- The filtered level at the ball of SEQi, as the board and the pull-up make it (R357). -/
def Core.seqBall (c : Core) (i : Nat) (b : Bool) : Core :=
  let m : BitVec 16 := 1#16 <<< i
  { c with bkh := { c.bkh with seqIn := if b then c.bkh.seqIn ||| m else c.bkh.seqIn &&& ~~~m } }

/-- A filtered change at a SEQ pin (R357, R359). -/
def Core.seqInput (c : Core) (i : Nat) (b : Bool) : Core := (c.seqBall i b).syncWatch

/-- WAKE has been low for SLEEPDLY (R361). -/
def State.sleepTimeout (s : State) : State :=
  if s.serviceRuns && s.core.flag pgBKH BKH_WAKE_WAKEEN && s.core.cmpLo 51 &&
      (s.pw.pstate = .run || s.pw.pstate = .safe || s.pw.pstate = .grave) then s.onCore Core.parkRequest
  else s

/-- After DOWN: every queued record is committed, or 5 ms have passed, and the device parks (R361). -/
def State.mainenRelease (s : State) (late : Bool) : State :=
  let quiet := s.core.bkh.queue = [] && !s.core.nvm.write.any (fun w => w.kind = .log)
  if s.booted && s.core.bkh.parking && (late || quiet) then s.toParked else s

end Sys2Proof.Machine
end

