-- ==== Sys2Proof/Machine/Forced.lean ====
section
/-! DEFINITION. FRC: a write of 1 acts as a real occurrence of the condition, with a forced message (R28, R257, R328). -/
namespace Sys2Proof.Machine

/-- The forced message of a source, with KIND 0x3F and the ATYPE of its source (R28, R333). -/
def Core.forceMsg (c : Core) (src index : Nat) : Core := c.send src 0x3F (mkAddr (srcAtype src) index)

/-- The crumb code of a rail page's condition, where it has one (R293). -/
def railEventOf (bit : Nat) : Option Nat :=
  ([(0, 0), (1, 2), (2, 3), (6, 8), (7, 9), (8, 4), (17, 5), (18, 6), (19, 7), (20, 11)].find? (fun p => p.1 = bit)).map (·.2)

/-- The source and INDEX of a forced message for a condition of a page; none where the condition is no source. -/
def Core.forcedSource (c : Core) (k : PageKind) (i bit : Nat) : Option (Nat × Nat) :=
  match k with
  | .v => if bit = 8 then some (0x04, i) else if bit = 9 then some (0x05, i) else none
  | .e => if bit = 2 then some (0x06, i + 16 * c.engRail i) else none
  | .p => if bit = 2 then some (0x11, i) else if bit = 5 then some (0x12, i) else if bit = 6 then some (0x13, i)
      else if bit = 7 then some (0x10, i / 8) else none
  | .cmd => if bit < 4 then some (0x30 + bit, 0) else none
  | .lnk => ([(2, 0x38), (3, 0x39), (5, 0x3A), (6, 0x3B), (7, 0x3C), (11, 0x3D), (12, 0x3E)].find? (fun p => p.1 = bit)).map
      (fun p => (p.2, 0))
  | .cmp =>
      if bit < 8 then some (0x00, bit) else if bit < 16 then some (0x01, bit - 8) else if bit < 24 then some (0x02, bit - 16)
      else if bit < 26 then some (0x14, bit - 24) else if bit < 28 then some (0x15, bit - 26) else if bit = 28 then some (0x16, 0)
      else if bit = 29 then some (0x17, 0) else if bit = 30 then some (0x18, 0) else none
  | .trp => if 24 ≤ bit then some (0x03, bit - 24) else none
  | .aux =>
      if 4 ≤ bit && bit < 8 then some (0x19, bit - 4) else if 8 ≤ bit && bit < 12 then some (0x1A, bit - 8)
      else if 12 ≤ bit && bit < 16 then some (0x1B, bit - 12) else if bit = 24 then some (0x1C, 0) else none
  | .thm =>
      if 11 ≤ bit && bit < 14 then some (0x23, bit - 11) else if 16 ≤ bit && bit < 24 then some (0x24, bit - 16)
      else if 24 ≤ bit then some (0x25, bit - 24)
      else ([(1, 0x2C), (2, 0x20), (3, 0x21), (4, 0x22), (5, 0x26), (6, 0x27), (7, 0x28), (8, 0x2A), (9, 0x2B), (10, 0x2D)].find?
        (fun p => p.1 = bit)).map (fun p => (p.2, 0))

  | .bkh => ([(2, 0x48), (3, 0x49), (4, 0x4A)].find? (fun p => p.1 = bit)).map (fun p => (p.2, 0))
  | .nvm => if 2 ≤ bit && bit ≤ 6 then some (0x3E + bit, 0) else none
  | .sec => if bit < 2 then some (0x45 + bit, 0) else none
  | .rpr => ([(1, 0x51), (4, 0x50), (5, 0x50), (7, 0x52)].find? (fun p => p.1 = bit)).map (fun p => (p.2, 0))
  | _ => none

/-- What a condition's event does to its rail, engine or channel: an XOC ends the channel (R271), an XREV drops a high XLGn to
the next boundary (R272), a LATOVR marks its engine for the next shadow and is a mismatch of a shadow that runs (R429, R430),
and an OCFAULT ends the rail's hiccup (R237 step 4). -/
def Core.forcedEffect (c : Core) (k : PageKind) (i bit : Nat) : Core :=
  if k = .aux && 12 ≤ bit && bit < 16 then c.xOcOff (bit - 12)
  else if k = .aux && 16 ≤ bit && bit < 20 then c.xRevOff (bit - 16)
  else if k = .e && bit = 2 then c.latReport i (c.engRail i)
  else if k = .cmp && 16 ≤ bit && bit < 24 then
    (c.writeEn (bit - 16) false false false).setFld pgTRP (TRP_RST_HCNT (bit - 16)) 0
  else c

/-- One FRC bit of a page. TRP forces a trip state and a crowbar (R257); a stage fault is one condition of the eight ports
of its group (R105). -/
def Core.forceBit (c : Core) (pg : Nat) (k : PageKind) (bit : Nat) : Core :=
  let i := pageInst pg
  if k = .trp && bit < 12 then
    ({ c with prot := { c.prot with forced := c.prot.forced ||| (1#12 <<< bit) } }).tripEnter bit 0x3F
  else if k = .trp && 16 ≤ bit && bit < 24 then c.crowbar (bit - 16) 0x3F
  else
    let c :=
      if k = .p && bit = 7 then (List.range 8).foldl (fun (c : Core) j => c.raise (pgP (i / 8 * 8 + j)) 7) c
      else c.raise pg bit
    let c := match k, railEventOf bit with
      | .v, some code => c.railEvent i code
      | _, _ => c
    let c := c.forcedEffect k i bit
    match c.forcedSource k i bit with
    | some (src, index) => c.forceMsg src index
    | none => c

/-- A write to FRC (R28): ignored while FRCLK is 1. -/
def Core.force (c : Core) (pg : Nat) (w : Word) : Core :=
  match kindOf pg with
  | none => c
  | some k =>
    if bitOf (c.reg pg 0x18) 4 then c
    else (bitsOf (w &&& BitVec.ofNat 32 (condMask k))).foldl (fun (c : Core) b => c.forceBit pg k b) c

end Sys2Proof.Machine
end

