-- ==== Sys2Proof/Machine/RingFrames.lean ====
section
/-! DEFINITION. The D lane: the bytes of a frame, the selection between the primary and the chord copy, forwarding, removal
and credits, and what the device on the chord does for its absent predecessor (R191 to R194, R212 to R216, R302). -/
namespace Sys2Proof.Machine

/-! ## The bytes of a frame (R186, R192, R302) -/

/-- A pointer on the wire: its Gray code in two bytes (R302). -/
def ptrBytes (p : Nat) : List Byte := toLeBytes 2 (toGray p)

/-- The payload of a message of VC2 (R302). The manual gives no layout of the payloads of VC1 and VC3 (log 25). -/
def RingMsg.payload : RingMsg → Option (List Byte)
  | .crbReq rp fp nmax => some (1#8 :: ptrBytes rp ++ ptrBytes fp ++ [BitVec.ofNat 8 nmax])
  | .crbSync nmax => some [3#8, 0#8, 0#8, 0#8, 0#8, BitVec.ofNat 8 nmax]
  | .crbData wp fp words =>
    some (2#8 :: ptrBytes wp ++ ptrBytes fp ++ [BitVec.ofNat 8 words.length] ++ words.flatMap wordBytes)
  | .crbResync wp rp => some (4#8 :: ptrBytes wp ++ ptrBytes rp ++ [0#8])
  | .enum _ | .measure _ _ _ | .slotMap _ _ _ | .answer _ _ | .opened _ | .absent _ | .broken _
  | .bindCheck _ _ _ | .bindAnswer _ _ _ | .idRequest _ _ | .idResult _ _ _ | .faultRelay _ _ => none

/-- The codes of the control characters, as 8b/10b has them (R186; PRESUMED, log 25). -/
def k28_1 : Byte := 0x3C#8
def k28_3 : Byte := 0x7C#8
def k27_7 : Byte := 0xFB#8
def k29_7 : Byte := 0xFD#8

/-- The symbols of a frame of VC1 to VC3 between K27.7 and the CRC: DEST, SRC, HDR, FN, LEN and the payload (R192). -/
def msgBytes (clsB : Bool) (dest src fn vc : Nat) (payload : List Byte) : List Byte :=
  [BitVec.ofNat 8 dest, BitVec.ofNat 8 src, BitVec.ofNat 8 (64 * vc + 32 * b2n clsB), BitVec.ofNat 8 fn,
    BitVec.ofNat 8 payload.length] ++ payload

/-- The symbols that carry a token or a frame, control characters by their codes (R187, R192). -/
def Frame.symbols : Frame → Option (List Byte)
  | .token devid rail port => some [BitVec.ofNat 8 devid, BitVec.ofNat 8 (32 * rail + port)]
  | .vc0 dest ty port p =>
    some (k28_1 :: BitVec.ofNat 8 dest :: BitVec.ofNat 8 (32 * ty + port) :: toLeBytes 3 p)
  | .credit dest vc cls count => some [k28_3, BitVec.ofNat 8 dest, BitVec.ofNat 8 (64 * vc + 32 * cls + count)]
  | .msg clsB dest src fn m => m.payload.map (fun p =>
    let b := msgBytes clsB dest src fn m.vc p
    k27_7 :: b ++ [crc8 b, k29_7])

/-! ## What a message does -/

/-- The effect of a message of VC1 to VC3 on the device that takes it. The answers to a binding check reach the owner with
the slot map, as `bound` (log 32), and ENUM is taken on its own. -/
def Core.ringAct (c : Core) (src : Nat) (bound : List (Nat × Nat × Nat)) : RingMsg → Core
  | .enum _ | .bindAnswer _ _ _ => c
  | .measure id fwd chofs => c.collect id fwd chofs
  | .slotMap ndev map hops => c.slotMap ndev map hops bound
  | .answer id busy => c.cascAnswer id busy
  | .opened refused => c.opened refused
  | .bindCheck port rail confirm => c.bindCheck src port rail confirm
  | .idRequest port ask => c.takeIdRequest src port ask
  | .idResult port num den => c.takeIdResult src port num den
  | .faultRelay group tripped => c.faultRelay src group tripped
  | .absent id => c.absentNotice id
  | .broken _ => c.breakNotice
  | .crbReq rp fp nmax => c.takeReq src rp fp nmax
  | .crbSync _ => c.takeSync src
  | .crbData wp fp words => c.takeData src wp fp words
  | .crbResync wp rp => c.takeResync src wp rp

/-! ## Forwarding and removal (R193, R194) -/

/-- This device changes class A to class B: the master, or its deputy (R194, R215). -/
def Core.classChanger (c : Core) : Bool := (c.isMaster && c.ringId = 1) || c.stat pgLNK 4

/-- DEST names a device of the ring, or is a broadcast. Before the master knows NDEV nothing is found to be off the ring. -/
def Core.onRing (c : Core) (dest : Nat) : Bool :=
  c.rstate < 3 || dest = 0xFF || (1 ≤ dest && dest ≤ c.fld pgLNK LNK_ID_NDEV)

/-- A frame was removed and counts as lost (R192, R194, R219). -/
def Core.frameLost (c : Core) : Core := c.incSat pgLNK LNK_CNT2_FRMLOST 1

/-- A frame goes on round the ring, in class B from the master or deputy on; its credit returns when it has left (R194). -/
def Core.forward (c : Core) (vc : Nat) (clsB : Bool) (f : Frame) : Core :=
  c.queueFrame { vc := vc, clsB := clsB || c.classChanger, frame := f, free := c.creditFree vc, back := some (vc, clsB) }

/-- A frame of VC1 to VC3 with its class set as it is forwarded (R192, R194). -/
def Core.forwardMsg (c : Core) (h : FrameHead) (m : RingMsg) : Core :=
  c.forward m.vc h.clsB (.msg (h.clsB || c.classChanger) h.dest h.src h.fn m)

/-- A repeater forwards both lanes unchanged (R196). -/
def Core.repeats (c : Core) (vc : Nat) (f : Frame) : Core := c.queueFrame { vc := vc, frame := f, free := true }

/-- DEST of a frame of VC1 to VC3 names this device, or the predecessor that it stands in for: 0xFF is a broadcast, so a device
with ID 255 has none of its own (R192; DEDUCED, log 99). -/
def Core.isFor (c : Core) (dest : Nat) : Bool := dest ≠ 0xFF && dest = c.ringId
def Core.standsIn (c : Core) (dest : Nat) : Bool := dest ≠ 0xFF && c.lnk.absent = some dest

/-- What a device with an ID does with a sound frame of VC1 to VC3 that it takes from its input (R193, R194): its own broadcast
is removed, one for it or for all is acted on, and all but the one for it go on; a master or deputy removes what is not for
the ring and, with FRMLOST, what comes back in class B. -/
def Core.process (c : Core) (h : FrameHead) (m : RingMsg) (bound : List (Nat × Nat × Nat)) : Core :=
  let act (c : Core) : Core := c.ringAct h.src bound m
  if h.dest = 0xFF && h.src = c.ringId then (if c.isMaster then act c else c).giveCredit m.vc h.clsB
  else if c.isFor h.dest then (act c).giveCredit m.vc h.clsB
  else if c.standsIn h.dest then c.giveCredit m.vc h.clsB
  else if c.classChanger && h.clsB then c.frameLost.giveCredit m.vc h.clsB
  else if c.classChanger && !c.onRing h.dest then c.giveCredit m.vc h.clsB
  else if h.dest = 0xFF then (act c).forwardMsg h m
  else c.forwardMsg h m

/-- A sound ENUM is taken: a device takes the ID that it finds and sends ENUM on with the ID raised by 1, and the master takes
it off the ring (R195, R196). -/
def Core.passEnum (c : Core) (h : FrameHead) (id : Nat) (own : Bool) : Core :=
  if c.isMaster then c.takeEnum id own
  else (c.takeEnum id own).queueFrame { vc := 3, frame := .msg h.clsB h.dest h.src h.fn (.enum (id + 1)), free := true }

/-- A frame that the D input has received whole acts. In observe freeze VC1 to VC3 stop at frame boundaries: the input holds up
to 4 frames of each channel and class, and each acts on the release (R194, R439; log 101). -/
def Core.takeFrame (c : Core) (x : InFrame) : Core :=
  let same (y : InFrame) : Bool := y.msg.vc = x.msg.vc && y.head.clsB = x.head.clsB
  if c.rpr.depth ≠ 0 then
    if (c.lnk.inq.filter same).length < 4 then { c with lnk := { c.lnk with inq := c.lnk.inq ++ [x] } } else c.frameLost
  else
    match x.msg with
    | .enum id => c.passEnum x.head id x.own
    | m => c.process x.head m x.bound

/-- The frames that the D input has held act on the release, in the order in which they came (R439). -/
def Core.drainIn (c : Core) : Core :=
  c.lnk.inq.foldl (fun (c : Core) x => c.takeFrame x) { c with lnk := { c.lnk with inq := [] } }

/-! ## The two copies (R212, R214) -/

/-- SRC, VC and FN, by which a frame of VC1 to VC3 is known (R214). -/
def Frame.key : Frame → Option (Nat × Nat × Nat)
  | .msg _ _ src fn m => some (src, m.vc, fn)
  | .token _ _ _ | .vc0 _ _ _ _ | .credit _ _ _ _ => none

/-- The newest 64 of a list whose oldest come first. -/
def last64 {α : Type} (l : List α) : List α := l.drop (l.length - 64)

/-- A chord copy is kept among the last 64, with whether the primary has brought the frame already (R214). -/
def Core.keepChord (c : Core) (f : Frame) : Core :=
  match f.key with
  | none => c
  | some k => { c with lnk := { c.lnk with chordStore := last64 (c.lnk.chordStore ++ [(f, c.lnk.chordSeen.contains k)]) } }

/-- The primary brings a frame, which marks its chord copy, or the copy that is still to come (R214). -/
def Core.matchChord (c : Core) (f : Frame) : Core :=
  match f.key with
  | none => c
  | some k =>
    { c with lnk := { c.lnk with
        chordStore := c.lnk.chordStore.map (fun g => if g.1.key = some k then (g.1, true) else g)
        chordSeen := last64 (c.lnk.chordSeen ++ [k]) } }

/-- The inputs are decoded (R196). -/
def Core.inputsOn (c : Core) : Bool := c.ringOn && c.lnk.locked

/-- The copy of a frame that this device takes: the chord's while it receives on the chord, otherwise the primary's (R212,
R213). -/
def Core.selected (c : Core) (h : FrameHead) : Bool := h.chord = c.stat pgLNK 2

/-- A frame of VC1 to VC3 arrives on either input. A damaged one is discarded: a code error counts in CODEERR, and a CRC that
fails on the copy taken counts in FRMLOST (R186, R192). -/
def Core.rxMsg (c : Core) (h : FrameHead) (m : RingMsg) (bound : List (Nat × Nat × Nat)) : Core :=
  if !c.inputsOn then c
  else
    match h.err with
    | .code => if c.selected h then c.codeError.giveCredit m.vc h.clsB else c.codeError
    | .crc => if c.selected h then c.frameLost.giveCredit m.vc h.clsB else c
    | .none =>
      let f : Frame := .msg h.clsB h.dest h.src h.fn m
      if c.selected h then
        let c := if h.chord then c else c.matchChord f
        if c.ringId = 0 then c.repeats m.vc f else c.takeFrame ⟨h, m, bound, false⟩
      else if h.chord then c.keepChord f
      else c

/-- Measurement results: this device's own, or those of another device in a frame on its way to the master (R196 step 4,
R200). -/
def Core.measureDone (c : Core) (h : Option FrameHead) (id fwd : Nat) (chofs : Int) (rtt : Nat) : Core :=
  match h with
  | none => if c.rpr.depth = 0 then c.measured fwd chofs rtt else c
  | some h => c.rxMsg h (.measure id fwd chofs) []

/-- ENUM arrives, or comes back to the master that sent it (R195, R196). -/
def Core.rxEnum (c : Core) (h : FrameHead) (id : Nat) (own : Bool) : Core :=
  if !c.inputsOn then c
  else
    match h.err with
    | .code => c.codeError
    | .crc => if c.selected h then c.frameLost else c
    | .none =>
      if !c.selected h then c else c.takeFrame ⟨h, .enum id, [], own⟩

/-- A VC0 frame arrives: for this device it acts, and any other goes on (R192 to R194). -/
def Core.rxVC0 (c : Core) (h : FrameHead) (ty port payload : Nat) (act : Core → Core) : Core :=
  if !c.inputsOn then c
  else if h.err = .code then (if c.selected h then c.codeError.giveCredit 0 h.clsB else c.codeError)
  else if !c.selected h then c
  else
    let f : Frame := .vc0 h.dest ty port (payload % 2 ^ 24)
    if c.ringId = 0 then c.repeats 0 f
    else if h.dest = c.ringId then (act c).giveCredit 0 h.clsB
    else if c.lnk.absent = some h.dest then c.giveCredit 0 h.clsB
    else if c.classChanger && h.clsB then c.frameLost.giveCredit 0 h.clsB
    else if c.classChanger && !c.onRing h.dest then c.giveCredit 0 h.clsB
    else c.forward 0 h.clsB f

/-- A credit frame arrives: its DEST takes the credits, and any other device sends it on (R193, R194). -/
def Core.rxCredit (c : Core) (h : FrameHead) (vc cls count : Nat) : Core :=
  if !c.inputsOn then c
  else if h.err = .code then c.codeError
  else if !c.selected h then c
  else if c.ringId ≠ 0 && h.dest = c.ringId then c.takeCredit vc cls count
  else if c.lnk.absent = some h.dest || (c.classChanger && !c.onRing h.dest) then c
  else c.repeats 4 (.credit h.dest vc cls count)

/-! ## The chord (R213 to R216) -/

/-- The frames that the predecessor had received and not forwarded are taken from their chord copies, oldest first; those for
the predecessor are skipped, and those that it originated are lost (R214). -/
def Core.recover (c : Core) (p : Nat) (l : List (Frame × Bool)) : Core :=
  l.foldl (fun (c : Core) f =>
    match f.1 with
    | .msg clsB dest src fn m =>
      if f.2 || src = p || (dest = p && dest ≠ 0xFF) then c
      else c.takeFrame ⟨⟨dest, src, fn, clsB, .none, true⟩, m, [], false⟩
    | .token _ _ _ | .vc0 _ _ _ _ | .credit _ _ _ _ => c) c

/-- Four primary slots in a row are invalid and the chord is valid: the predecessor is absent (R213 to R215). -/
def Core.primaryLoss (c : Core) : Core :=
  if !c.ringUp || c.stat pgLNK 2 then c
  else
    let p := c.predecessor
    let kept := c.lnk.chordStore
    let c := { c with lnk := { c.lnk with absent := some p, chordStore := [], chordSeen := [] } }
    let c := (((c.setLevel pgLNK 2 true).setLive 0x38 (ringAddr p none) true).send 0x38 0 (ringAddr p none)).incSat pgLNK LNK_CNT0_CHORDSW 1
    let c := if p = 1 && c.ringId = 2 then c.setLevel pgLNK 4 true else c
    ((c.sendMsg 0xFF (.absent p)).dropWhere (fun d => d = p)).recover p kept

end Sys2Proof.Machine
end

