-- ==== Sys2Proof/Machine/Registers.lean ====
section
/-! DEFINITION. Register writes and reads: what each access code does (R7 to R10), the values a field accepts, the effects
of a write, the writes that are held until the end of BOOT or the release of a freeze (R376, R413, R439), and the side
effects of a complete read (R35). -/
namespace Sys2Proof.Machine

/-! ## What a field stores -/

/-- The value limited to a range. -/
def within (lo hi v : Nat) : Nat := max lo (min hi v)

/-- What a written value is stored as: fields that accept a range store a value outside it as the nearer end. The fields
TONMAX, LHAT, RHAT, XRATIO, AVGK, FK and the window fields of TLM_AVG but KV name their range only; they are taken the
same way (DEDUCED, log 33). -/
def storedAs (k : PageKind) (f : Field) (v : Nat) : Nat :=
  match k, f.off, f.lo with
  | .v, 0x2C, 0 => within 4 640 v
  | .v, 0x30, 0 => within 4 640 v
  | .v, 0x34, 0 => min 2000 v
  | .v, 0x3C, 0 => within 10 24 v
  | .v, 0x80, 0 => within 160 2000 v
  | .v, 0x80, 16 => max 45 v
  | .v, 0x80, 24 => max 18 v
  | .v, 0x84, 0 => max 18 v
  | .v, 0x94, 16 => min 14 v
  | .v, _, _ => if 0xA0 ≤ f.off && f.off < 0xB8 then v &&& 0x9F9F9F9F else v
  | .p, 0x24, 0 => within 1000 20000 v
  | .p, 0x2C, 0 => within 160 16000 v
  | .p, 0x30, 0 => within 50 4095 v
  | .hst, 0x34, 0 => v / 4 * 4
  | .hst, 0x60, 0 => max 16 v
  | .hst, 0x64, 0 => max 16 v
  | .hst, 0x60, 8 => max 80 v
  | .hst, 0x64, 8 => max 80 v
  | .cmd, 0x20, 0 => min 8 v
  | .lnk, _, 0 => if 0x60 ≤ f.off && f.off < 0x80 then within 20 400 v else v
  | .cmp, 0xDC, _ => max 16 v
  | .aux, 0xB0, 0 => within 80 3200 v
  | .aux, 0xB4, _ => min 256 v
  | .aux, _, _ =>
    if 0x20 ≤ f.off && f.off < 0xA0 then
      (if f.off % 32 = 4 then within 100 1600 v else if f.off % 32 = 0xC then within 8 240 v
       else if f.off % 32 = 0x10 && f.lo = 16 then within 16 4095 v else v)
    else v
  | .tlm, 0x20, _ => min 14 v
  | .tlm, 0x24, 0 => min 14 v
  | .thm, 0x20, 0 => min 32 v
  | .thm, 0x20, 8 => min 4 v
  | .thm, 0x24, 8 => within 100 165 v
  | .flt, 0x20, _ => min 4 v
  | .bkh, 0x20, 0 => min 4 v
  | .bkh, 0x2C, _ => if v = 3 then 0 else v
  | .sec, 0x20, 0 => within 8 20 v
  | _, _, _ => v

/-- A word written to the RW and unlocked RWL fields of a register (R7, R10, R29). -/
def Core.putFields (c : Core) (pg : Nat) (k : PageKind) (off : Nat) (w : Word) : Core :=
  (fieldsAt k off).foldl (fun (c : Core) f =>
    let v := storedAs k f (getBits w f.lo f.len)
    match f.acc with
    | .rw => c.setFld pg f v
    | .rwl g => if bitOf (c.reg pg 0x18) g then c else c.setFld pg f v
    | _ => c) c

/-- W1C bits outside the page heads and FLT_SSTK, of conditions that are live while `live` has them at 1: such a bit
stays (R8), and nothing is counted (R27). -/
def Core.clearHits (c : Core) (pg off : Nat) (w live : Word) : Core :=
  c.setReg pg off (c.reg pg off &&& ~~~(w &&& ~~~live))

/-! ## Writes by page -/

/-- Page DEV (R410, R416, R423). -/
def State.writeDev (s : State) (off : Nat) (w : Word) : State :=
  match off with
  | 0x04 =>
    let s := if bitOf w 1 then { s with pw := { s.pw with fastok := false } } else s
    if bitOf w 0 then s.softReset else s
  | 0x28 =>
    if s.core.locked pgDEV DEV_CFG_COLDALL then s
    else { s with pw := { s.pw with coldall := bitOf w 0, swren := bitOf w 1 } }
  | _ => s

/-- Pages FLT and FSV (R334, R340, R341). -/
def State.writeFlt (s : State) (off : Nat) (w : Word) : State :=
  match off with
  | 0x20 => (s.onCore (fun c => c.putFields pgFLT .flt off w)).syncFlt
  | 0x24 | 0x28 | 0x2C => (s.onCore (fun c => c.clearSstk ((off - 0x24) / 4) w 0)).syncFlt
  | 0x50 => s.writeRel w
  | _ => s

def State.writeFsv (s : State) (off : Nat) (w : Word) : State :=
  if 0x20 ≤ off && off < 0x50 then s.writeClasses ((off - 0x20) / 4) w
  else if 0x50 ≤ off && off < 0x5C then s.onCore (fun c => c.forceFaults ((off - 0x50) / 4) w)
  else s.onCore (fun c => c.putFields pgFSV .fsv off w)

/-- Page TLM (R286, R289, R308): a change of a window length drops the windows in progress. -/
def Core.writeTlm (c : Core) (off : Nat) (w : Word) : Core :=
  match off with
  | 0x04 =>
    let c := if bitOf w 0 then c.swapRequest else c
    if bitOf w 1 then c.peakClearAll else c
  | 0x20 =>
    let c' := c.putFields pgTLM .tlm off w
    c'.dropChanged c
  | 0x3C => if bitOf w 0 then c.peakClear else c
  | _ => c.putFields pgTLM .tlm off w

/-- Page CRB (R297, R298, R305, R310). -/
def Core.writeCrb (c : Core) (off : Nat) (w : Word) : Core :=
  match off with
  | 0x04 => if bitOf w 0 then c.crumbFlush else c
  | 0x28 => c.writeLvl (getBits w 16 11)
  | 0x38 => c.writeRsel (getBits w 0 8)
  | _ => c.putFields pgCRB .crb off w

/-- Page CMD (R169, R179). -/
def Core.writeCmd (c : Core) (off : Nat) (w : Word) : Core :=
  let c := c.putFields pgCMD .cmd off w
  match off with
  | 0x04 => if bitOf w 1 then c.flushAll else c
  | 0x28 => if bitOf w 8 then c.flushGo (getBits w 0 7) else c
  | _ => c

/-- Page SEC (R386, R399). -/
def State.writeSec (s : State) (off : Nat) (w : Word) : State :=
  let s := s.onCore (fun c => c.putFields pgSEC .sec off w)
  match off with
  | 0x38 =>
    let k := getBits w 0 2
    let s := if bitOf w 8 then s.keyGo k else s
    let s := if bitOf w 10 then s.imgAuthGo k else s
    if bitOf w 9 then s.closeGo else s
  | _ => s

/-- Page NVM (R377, R384, R397). -/
def State.writeNvm (s : State) (off : Nat) (w : Word) : State :=
  let s := s.onCore (fun c => c.putFields pgNVM .nvm off w)
  match off with
  | 0x20 => s.onCore (fun c => c.wantCtl (fun x => { x with pref := bitOf w 8 }))
  | 0x34 => if bitOf w 8 then s.nvmGo else s
  | _ => s

/-- Page BKH (R355, R357, R366, R370). -/
def State.writeBkh (s : State) (off : Nat) (w : Word) : State :=
  let s := s.onCore (fun c => c.putFields pgBKH .bkh off w)
  match off with
  | 0x04 =>
    let s := if bitOf w 0 then s.onCore Core.runSvc else s
    let s := if bitOf w 1 then s.onCore Core.parkRequest else s
    if bitOf w 2 then s.abortProg else s
  | 0x2C | 0x30 | 0x34 | 0x38 | 0x3C => s.onCore Core.syncWatch
  | 0x58 | 0x5C => s.onCore (fun c => { c with bkh := { c.bkh with nonceNew := true, reportDue := true } })
  | _ => s

/-- Page LNK (R196, R201, R202, R219). -/
def Core.writeLnk (c : Core) (off : Nat) (w : Word) : Core :=
  if 0x24 ≤ off && off < 0x34 then (c.putFields pgLNK .lnk off w).showLabels
  else if 0x60 ≤ off && off < 0x80 then
    let n := (off - 0x60) / 4
    (c.putFields pgLNK .lnk off w).showGsc n
  else if 0x80 ≤ off && off < 0xE0 then (c.putFields pgLNK .lnk off w).syncStages
  else match off with
  | 0x04 =>
    let c := c.ringEnable (bitOf w 0)
    if bitOf w 1 then c.ringOpen else c
  | 0x5C => c.writeOrdDat w
  | _ => c.putFields pgLNK .lnk off w

/-- Page AUX (R265, R266, R276, R280). -/
def Core.writeAux (c : Core) (off : Nat) (w : Word) : Core :=
  if 0x20 ≤ off && off < 0xA0 then
    let n := (off - 0x20) / 32
    if off % 32 = 8 then c.xWriteDuty n (getBits w 0 13)
    else if off % 32 = 0x18 then c.xWriteForce n w
    else c.putFields pgAUX .aux off w
  else if off = 0x04 then c.auxCtrl w
  else if off = 0xB4 then (c.putFields pgAUX .aux off w).fanWritten (c.fld pgAUX AUX_FANDUTY_DUTY)
  else if off = 0xBC then
    let c := c.putFields pgAUX .aux off w
    if c.fld pgAUX AUX_FANSTALL_STALLT = 0 then c.fanUnstall else c
  else c.putFields pgAUX .aux off w

/-- Page CMP (R222 to R224, R242, R256); a write of CMP_THR25 or CMP_HYS6 that is carried out reaches the copies of R407. -/
def State.writeCmp (s : State) (off : Nat) (w : Word) : State :=
  let c := s.core
  let lo := c.prot.lo
  let hi := c.prot.hi
  if 0x20 ≤ off && off < 0x90 then
    let t := s.onCore (fun c => c.writeThr ((off - 0x20) / 4) w)
    if off = 0x84 && c.thrTaken 25 w then { t with pw := { t.pw with thr25 := w } } else t
  else match off with
  | 0xCC => s.onCore (fun c => c.clearHits pgCMP off w (BitVec.ofNat 32 lo.toNat))
  | 0xD0 => s.onCore (fun c => c.clearHits pgCMP off w (BitVec.ofNat 32 (lo.toNat / 2 ^ 32)))
  | 0xD4 => s.onCore (fun c => c.clearHits pgCMP off w (BitVec.ofNat 32 hi.toNat))
  | 0xD8 => s.onCore (fun c => c.clearHits pgCMP off w (BitVec.ofNat 32 (hi.toNat / 2 ^ 32)))
  | 0xE0 => s.onCore (fun c => (c.putFields pgCMP .cmp off w).syncCmp)
  | 0xA8 =>
    let t := s.onCore (fun c => c.putFields pgCMP .cmp off w)
    if c.locked pgCMP (CMP_HYS_H 50) then t else { t with pw := { t.pw with hys50 := getBits w 8 4, hys51 := getBits w 12 4 } }
  | _ => s.onCore (fun c => c.putFields pgCMP .cmp off w)

/-- Page TRP (R229, R246, R248, R258). -/
def Core.writeTrp (c : Core) (off : Nat) (w : Word) : Core :=
  if 0x60 ≤ off && off < 0x90 then (c.putFields pgTRP .trp off w).syncTrips
  else if 0xA0 ≤ off && off < 0xC0 then
    let n := (off - 0xA0) / 4
    let was := c.ovArmed n
    (c.putFields pgTRP .trp off w).ovCheck n (!was)
  else if off = 0x98 then c.clearHits pgTRP off (w &&& 0xFFFF0000) 0
  else c.putFields pgTRP .trp off w

/-- Page RPR but for the freeze requests (R428, R445). -/
def Core.writeRpr (c : Core) (off : Nat) (w : Word) : Core :=
  let c := c.putFields pgRPR .rpr off w
  match off with
  | 0x04 => if bitOf w 0 then c.background else c
  | _ => c

/-- Page HST (R137, R140, R179): clearing EN takes a bus down; setting it lets the bus come up, which is an event of its own. -/
def Core.writeHst (c : Core) (off : Nat) (w : Word) : Core :=
  let was0 := c.flag pgHST (HST_I3CCFG_EN 0)
  let was1 := c.flag pgHST (HST_I3CCFG_EN 1)
  let c := c.putFields pgHST .hst off w
  match off with
  | 0x60 => if was0 && !bitOf w 16 then c.busDown 0 else c
  | 0x64 => if was1 && !bitOf w 16 then c.busDown 1 else c
  | 0x68 => if bitOf w 1 then c.busReset 0 else c
  | 0x6C => if bitOf w 1 then c.busReset 1 else c
  | _ => c

/-- The rail pages (R75, R89, R98, R110, R127, R133, R156). When AUTOSHED itself is written a lower target waits for the count
of SHDLY, as at a window's end (DESIGN CHOICE, log 87). -/
def Core.writeV (c : Core) (n off : Nat) (w : Word) : Core :=
  let pg := pgV n
  match off with
  | 0x04 =>
    let c := (c.setFld pg V_CTRL_AUTOSHED (getBits w 8 1)).setFld pg V_CTRL_KNEADEN (getBits w 9 1)
    (c.writeEn n (bitOf w 0) (bitOf w 1) true).retarget n false
  | 0x24 => (c.putFields pg .v off w).rearb n 0
  | 0x28 => (c.putFields pg .v off w).rearb n 0
  | 0x3C =>
    let c := c.putFields pg .v off w
    if bitOf w 16 then c.integReset n else c
  | 0x90 => (c.putFields pg .v off w).retarget n true
  | 0xB8 => if bitOf w 0 then c.commitOrder n else c
  | _ => c.putFields pg .v off w

/-- The port pages (R103, R107, R119, R134). -/
def Core.writeP (c : Core) (k off : Nat) (w : Word) : Core :=
  match off with
  | 0x04 =>
    let c := if bitOf w 0 then c.identStart k else c
    if bitOf w 1 then c.calStart k else c
  | 0x20 => c.assignPort k (getBits w 0 4) (getBits w 8 5)
  | _ => c.putFields (pgP k) .p off w

/-- What a write does beyond the page head. -/
def State.writePage (s : State) (pg off : Nat) (w : Word) : State :=
  let i := pageInst pg
  match kindOf pg with
  | none => s
  | some k =>
    match k with
    | .dev => s.writeDev off w
    | .flt => s.writeFlt off w
    | .fsv => s.writeFsv off w
    | .thm => s.onCore (fun c => (c.putFields pg k off w).rrkWritten c)
    | .tlm => s.onCore (fun c => c.writeTlm off w)
    | .crb => s.onCore (fun c => c.writeCrb off w)
    | .cmd => s.onCore (fun c => c.writeCmd off w)
    | .sec => s.writeSec off w
    | .nvm => s.writeNvm off w
    | .bkh => s.writeBkh off w
    | .lnk => s.onCore (fun c => c.writeLnk off w)
    | .aux => s.onCore (fun c => c.writeAux off w)
    | .cmp => s.writeCmp off w
    | .trp => s.onCore (fun c => c.writeTrp off w)
    | .rpr => s.onCore (fun c => c.writeRpr off w)
    | .hst => s.onCore (fun c => c.writeHst off w)
    | .v => s.onCore (fun c => c.writeV i off w)
    | .p => s.onCore (fun c => c.writeP i off w)
    | .e => if off = 0x04 && bitOf w 0 then s.onCore (fun c => c.engineSnap i) else s
    | .ctx | .tag => s
    | .orp => if off = 0x24 && bitOf w 0 then s.onCore Core.orpPop else s

/-! ## The page head (R25 to R29) -/

/-- The bits of STAT and STKY of a page that a chapter gives a condition. -/
def pageMask (pg : Nat) : Word := match kindOf pg with | some k => BitVec.ofNat 32 (condMask k) | none => 0

/-- Bits of STKY written with 1; `coinc` marks those whose condition is set at the same instant (R8, R26, R27, R231,
R250). -/
def Core.clearStky (c : Core) (pg : Nat) (w coinc : Word) : Core :=
  (bitsOf (w &&& pageMask pg)).foldl (fun (c : Core) b =>
    if pg = pgTRP && b < 12 then c.tripClear b (bitOf coinc b)
    else if pg = pgTRP && 16 ≤ b && b < 24 then c.crowClear (b - 16) (bitOf coinc b)
    else c.clearSticky pg b (bitOf coinc b)) c

/-- EVC.CLR, with `incs` increments at the same instant, which land after it (R27). -/
def Core.clearEvc (c : Core) (pg incs : Nat) : Core := (c.setFld pg H_EVC_COUNT 0).countEvc pg incs

/-- LCK: bits are only ever set (R29). -/
def Core.closeLocks (c : Core) (pg : Nat) (w : Word) : Core := c.setReg pg 0x18 (c.reg pg 0x18 ||| (w &&& 0x1F))

/-- IEN (R25). -/
def Core.writeIen (c : Core) (pg : Nat) (w : Word) : Core := c.setReg pg 0x10 (w &&& pageMask pg)

/-- A write to a register of an implemented page; RPR_FRZ's requests are in `writeNow`. -/
def State.writeReg (s : State) (pg off : Nat) (w : Word) : State :=
  match off with
  | 0x00 | 0x08 => s
  | 0x04 => if bitOf w 31 then s.pageReset pg else s.writePage pg off w
  | 0x0C => s.onCore (fun c => c.clearStky pg w 0)
  | 0x10 => s.onCore (fun c => c.writeIen pg w)
  | 0x14 => s.onCore (fun c => c.force pg w)
  | 0x18 => s.onCore (fun c => c.closeLocks pg w)
  | 0x1C => if bitOf w 31 then s.onCore (fun c => c.clearEvc pg 0) else s
  | _ => s.writePage pg off w

/-- The W1C bits of a register. -/
def w1cMask (k : PageKind) (off : Nat) : Word :=
  ((fieldsAt k off).filter (fun f => f.acc = .w1c)).foldl (fun (w : Word) f => w ||| fieldMask f.lo f.len) 0

/-- Bits of a W1C register written with 1; `coinc` marks those that are set at the same instant, which stay at 1 or go
to 1 (R8, R26, R27, R337). -/
def State.clearBits (s : State) (pg off : Nat) (w coinc : Word) : State :=
  if off = 0x0C then s.onCore (fun c => c.clearStky pg w coinc)
  else if pg = pgFLT && (off = 0x24 || off = 0x28 || off = 0x2C) then
    (s.onCore (fun c => c.clearSstk ((off - 0x24) / 4) w coinc)).syncFlt
  else
    let m : Word := match kindOf pg with | some k => w1cMask k off | none => 0
    (s.writeReg pg off (w &&& m)).onCore (fun c => if m = 0 then c else c.setReg pg off (c.reg pg off ||| (w &&& coinc &&& m)))

/-! ## Holding and freezing -/

/-- The word has a 1 in a W1S field of its register, LCK apart (R376). -/
def startsW1s (k : PageKind) (off : Nat) (w : Word) : Bool :=
  (off = 0x04 && bitOf w 31) || (off = 0x1C && bitOf w 31) ||
  (fieldsAt k off).any (fun f => f.acc = .w1s && getBits w f.lo f.len ≠ 0)

/-- A write that BOOT holds: Vn_CTRL, AUX_CTRL, LNK_CTRL, HST_I3CCFG0 and 1, FRC registers and W1S fields outside LCK
(R376, R413); BKH_CTRL as well (R355). -/
def bootHolds (pg off : Nat) (w : Word) : Bool :=
  match kindOf pg with
  | none => false
  | some k =>
    (off = 0x04 && (k = .v || k = .aux || k = .lnk || k = .bkh)) || (k = .hst && (off = 0x60 || off = 0x64)) ||
    off = 0x14 || (k = .fsv && 0x50 ≤ off && off < 0x5C) || startsW1s k off w

/-- A write that starts service work, which waits for the release of observe freeze (R439). A write of an I3C enable starts it
where EN rises. -/
def Core.freezeHolds (c : Core) (pg off : Nat) (w : Word) : Bool :=
  match kindOf pg with
  | some .crb => (off = 0x04 && bitOf w 0 && !bitOf w 31) || off = 0x38
  | some .tlm => (off = 0x04 && (bitOf w 0 || bitOf w 1) && !bitOf w 31) || (off = 0x3C && bitOf w 0)
  | some .cmd => (off = 0x04 && bitOf w 1 && !bitOf w 31) || (off = 0x28 && bitOf w 8)
  | some .nvm => off = 0x34 && bitOf w 8
  | some .sec => off = 0x38 && (bitOf w 8 || bitOf w 9 || bitOf w 10)
  | some .bkh => off = 0x04 && (bitOf w 0 || bitOf w 1 || bitOf w 2) && !bitOf w 31
  | some .hst =>
    if off = 0x60 || off = 0x64 then bitOf w 16 && !c.flag pgHST (HST_I3CCFG_EN ((off - 0x60) / 4))
    else (off = 0x68 || off = 0x6C) && startsW1s .hst off w
  | some .lnk => off = 0x04 && bitOf w 1 && !bitOf w 31
  | _ => false

/-- What follows every change: slices that may change, aux gates held by a trip, gates, the flash hold and the messages on
their way; units that have gone into service leave the background pass; and a burn or a host operation that waited begins. -/
def Core.done (c : Core) : Core := (c.pumpSlices.xTrips.finish.releaseTests.letBurn).letHost

/-- A write carried out now. Of RPR_FRZ, FULL starts full freeze and RECAP recaptures; OBS is a level that
`settleFreeze` follows (R438, R440, R442). -/
def State.writeNow (s : State) (pg off : Nat) (w : Word) : State :=
  let s := s.writeReg pg off w
  if pg = pgRPR && off = 0x48 then
    let s := if bitOf w 2 then s.recapture else s
    if bitOf w 1 then s.onCore (fun c => c.enterFull false) else s
  else s

/-- Held writes, in the order in which they arrived. -/
def State.applyHeld (s : State) : State :=
  let l := s.core.hst.held
  l.foldl (fun (s : State) h => s.writeNow h.page h.off h.val)
    (s.onCore (fun c => { c with hst := { c.hst with held := [] } }))

/-- A pass of the arbiter: every waiting request that may start does so (R437). -/
def Core.grantAll (c : Core) : Core :=
  (c.rpr.waiting.foldl (fun (c : Core) _ => c.releaseTests.freshCompares.grant) c).releaseTests.pumpIdents

/-- The black-box records ask the arbiter for BBWRITE while one waits to be written (R382, R435). -/
def State.askRecord (s : State) : State := if s.booted then s.onCore Core.askRecord else s

/-- Observe freeze ends (R439): each path resumes where it stopped. Items read whole are checked, the frames that the D input
holds act, held writes are carried out in the order in which they arrived, a revocation that waited begins, and waiting
activities may start. -/
def State.unfreeze (s : State) : State :=
  let s := s.onCore (fun c =>
    ({ c with rpr := { c.rpr with depth := 0 }, nvm := { c.nvm with eraseStop := false } }.setLevel pgRPR 8 false).syncPend)
  (s.checkHeld.onCore (fun c => c.busesOn.drainIn)).applyHeld.revokeNext.onCore Core.grantAll

/-- The freeze that the levels of the pin and of OBS ask for is entered or released (R438, R439). -/
def State.settleFreeze (s : State) : State :=
  if !s.booted || s.core.rpr.depth = 2 then s
  else
    let c := s.core
    let pin := c.rpr.pin && c.flag pgRPR RPR_FRZ_FRZEN
    match c.freezeWant with
    | 2 => s.onCore (fun c => c.enterFull true)
    | 1 => if c.rpr.depth = 0 then s.enterObserve pin else s
    | _ => if c.rpr.depth = 1 then s.unfreeze else s

/-- The machine comes to rest after a command: gates, messages, what the Bakehouse does of itself, freeze, and the requests
of the black box. -/
def State.rest (s : State) : State := (((s.onCore Core.done).pumpBake.settleFreeze).onCore Core.done).askRecord

/-- A write of an I3C enable that is carried out in a freeze supersedes the earlier writes of that register which the freeze
holds (R34, R439, R451). -/
def Core.dropHeld (c : Core) (pg off : Nat) : Core :=
  if c.rpr.depth = 1 && pg = pgHST && (off = 0x60 || off = 0x64) then
    { c with hst := { c.hst with held := c.hst.held.filter (fun h => !(h.page = pg && h.off = off)) } }
  else c

/-- A host's write of one word (R7, R33, R376, R413, R439): nothing on a page that is not implemented, and held where
BOOT or a freeze holds it. -/
def State.hostWrite (s : State) (p : HostPort) (pg off : Nat) (w : Word) : State :=
  if (kindOf pg).isNone then s
  else if (!s.booted && bootHolds pg off w) || (s.core.rpr.depth = 1 && s.core.freezeHolds pg off w) then
    s.onCore (fun c => { c with hst := { c.hst with held := c.hst.held ++ [⟨p, pg, off, w, false⟩] } })
  else ((s.onCore (fun c => c.dropHeld pg off)).writeNow pg off w).rest

/-! ## Reads -/

/-- A read of one word, with the side effect of a complete read (R35); reads over JTAG have none (R443). -/
def State.readReg (s : State) (p : HostPort) (pg off : Nat) : Word × State :=
  let w := s.peek pg off
  let on (f : Core → Core) : Word × State := (w, s.onCore f)
  if p = .jtag then (w, s)
  else
    let i := pageInst pg
    match kindOf pg, off with
    | some .crb, 0x24 => let r := s.core.crumbRead p; (r.1, { s with core := r.2.done })
    | some .crb, 0x3C => let r := s.core.rdataRead p; (r.1, { s with core := r.2 })
    | some .v, 0x54 => on (fun c => (c.setFld (pgV i) V_WINMON_MIN V_WINMON_MIN.rst).setFld (pgV i) V_WINMON_MAX V_WINMON_MAX.rst)
    | some .e, 0x24 => on (fun c => c.setFld (pgE i) E_LAT_MAX 0)
    | some .cmd, 0x2C => on (fun c => c.setFld pgCMD CMD_TAGS_MINFREE c.cmd.free.length)
    | some .flt, 0x88 => on (fun c => c.setFld pgFLT FLT_LATCH_MAXDEPTH c.flt.latch.length)
    | some .flt, 0x3C => let r := s.core.snapRead off; (r.1, { s with core := r.2 })
    | some .flt, 0x40 => let r := s.core.snapRead off; (r.1, { s with core := r.2 })
    | some .flt, 0x44 => let r := s.core.snapRead off; (r.1, { s with core := r.2 })
    | some .flt, 0x48 => let r := s.core.snapRead off; (r.1, { s with core := r.2 })
    | some .tlm, 0x34 => if s.core.rpr.depth = 0 then let r := s.core.pkrRead; (r.1, { s with core := r.2 }) else (w, s)
    | some .dev, 0x30 => on (fun c => c.setFld pgDEV DEV_TIMEH_TIME (c.time.toNat / 2 ^ 32))
    | some .rpr, 0x50 => on Core.rackRead
    | _, _ => (w, s)

end Sys2Proof.Machine
end

