-- ==== Sys2Proof/Machine/Host.lean ====
section
/-! DEFINITION. The host ports: native SPI frames (R36 to R45), the SMBus port (R46 to R51) and the register access that
JTAG shares with them (R34, R443). -/
namespace Sys2Proof.Machine

/-! ## Gates -/

/-- SPI and JTAG carry register access: from the end of phase A of BOOT until full freeze (R413, R439, R440). -/
def State.regOpen (s : State) : Bool := s.alive && (1 ≤ s.pw.phase || s.booted) && s.core.rpr.depth ≠ 2

/-- SMBus acknowledges its address: after BOOT, and not in a freeze (R413, R439). -/
def State.smbOpen (s : State) : Bool := s.serviceRuns

/-- A write over a port that is open for register access: SPI or JTAG. -/
def State.regWrite (s : State) (pg off : Nat) (w : Word) : State :=
  if s.regOpen then (s.hostWrite .spi pg off w).frameEnd else s

/-- The W1S fields among these read 0 (R7). -/
def clearW1s (l : List Field) (w : Word) : Word :=
  l.foldl (fun (w : Word) f => if f.acc = .w1s then setBits w f.lo f.len 0 else w) w

/-- The word of a register as a host reads it and writes it back to change one field of it: W1S fields and PRST of CTRL are 0
(R7, R25). -/
def Core.wordOf (c : Core) (pg off : Nat) : Word :=
  let w := match kindOf pg with
    | some k => clearW1s (fieldsAt k off) (c.reg pg off)
    | none => c.reg pg off
  if off = 0x04 then putBit w 31 false else w

/-- One field of a register written, the rest of its word as it stands. -/
def State.fieldWrite (s : State) (pg : Nat) (f : Field) (v : Nat) : State :=
  s.regWrite pg f.off (setBits (s.core.wordOf pg f.off) f.lo f.len v)

/-! ## SPI (R36 to R45) -/

/-- ALERT_N is asserted, or would be with ALMASK 0 (R40, R51, R414). -/
def State.alert (s : State) : Bool :=
  (s.booted || s.pw.halt) && s.core.anyIrq && !(s.core.hst.alertRel && s.core.flag pgHST HST_SMBCFG_ARAEN)

/-- The ALERT_N pin is driven low (R51). -/
def State.alertPin (s : State) : Bool := s.alert && !s.core.flag pgHST HST_SMBCFG_ALMASK

/-- The status byte of a frame (R40). -/
def State.spiStatus (s : State) (hcrc dcrc page frame : Bool) : Byte :=
  BitVec.ofNat 8 (64 * b2n hcrc + 32 * b2n dcrc + 16 * b2n page + 8 * b2n frame + 4 * b2n s.core.hst.prevAbort +
    2 * b2n s.alert + b2n s.faultLow)

/-- The fields of CMD (R37). -/
def cmdWr (cmd : Byte) : Bool := cmd.getLsbD 7
def cmdMode (cmd : Byte) : Nat := cmd.toNat / 32 % 4
def cmdCnt (cmd : Byte) : Nat := cmd.toNat % 32

/-- HCRC does not match (R37, R38). -/
def hcrcBad (cmd pg off hcrc : Byte) : Bool := crc8 [cmd, pg, off] ≠ hcrc

/-- A header refused for another cause than its CRC (R39). -/
def frameBad (cmd off : Byte) : Bool :=
  cmdMode cmd = 3 || (cmdMode cmd = 0 && cmdCnt cmd ≠ 0) || (cmdWr cmd && cmdMode cmd = 2) || off.toNat % 4 ≠ 0 ||
  (cmdMode cmd = 1 && 0xFC < off.toNat + 4 * cmdCnt cmd)

/-- The marks of a refused header: each cause sets its own (R39). -/
def State.refuseMarks (s : State) (hbad fbad : Bool) : State :=
  s.onCore (fun c =>
    let c := if hbad then (c.raise pgHST 0).incSat pgHST HST_SPICNT_HCRCCNT 1 else c
    if fbad then c.raise pgHST 2 else c)

/-- A frame ends: its bytes, and whether it was cut short (R40, R42). -/
def State.spiEnd (s : State) (bytes : List Byte) (aborted : Bool) : State :=
  s.onCore (fun c => { c with hst := { c.hst with miso := bytes, prevAbort := aborted, stream := none } })

/-- A refused header: the status byte, 0x00 in each of the `later` slots that the host clocks after it, and nothing read
or written (R39). The slots are those that a frame of the header's form has (DESIGN CHOICE, log 90). -/
def State.spiRefuse (s : State) (hbad fbad : Bool) (later : Nat) : State :=
  let s := s.refuseMarks hbad fbad
  s.spiEnd (s.spiStatus hbad false false fbad :: List.replicate later 0#8) false

/-- The mark of an access to a page that is not implemented (R33). -/
def State.pageMark (s : State) (pg : Nat) : State := if (kindOf pg).isNone then s.onCore (fun c => c.raise pgHST 3) else s

/-- The offsets that the words of a frame reach (R37). -/
def frameOffs (cmd off : Byte) : List Nat :=
  (List.range (cmdCnt cmd + 1)).map (fun i => if cmdMode cmd = 1 then off.toNat + 4 * i else off.toNat)

/-- Words read one after another, each with its side effects (R34, R35). -/
def State.readWords (s : State) (pg : Nat) (offs : List Nat) : List Byte × State :=
  offs.foldl (fun (a : List Byte × State) o =>
    let r := a.2.readReg .spi pg o
    (a.1 ++ wordBytes r.1, r.2)) ([], s)

/-- Wait bytes. -/
def waitBytes (n : Nat) : List Byte := List.replicate n 0xFF#8

/-- A read frame of single or burst mode (R43): at most four wait bytes, STATUS, the words and RCRC. -/
def State.spiRead (s : State) (mode : Nat) (cmd pg off hcrc : Byte) (waits : Nat) : State :=
  if !s.regOpen || s.core.hst.stream.isSome then s
  else if hcrcBad cmd pg off hcrc || frameBad cmd off then
    s.spiRefuse (hcrcBad cmd pg off hcrc) (frameBad cmd off) (4 * (cmdCnt cmd + 1) + 1)
  else if cmdWr cmd || cmdMode cmd ≠ mode then s
  else
    let s := s.pageMark pg.toNat
    let st := s.spiStatus false false (kindOf pg.toNat).isNone false
    let r := s.readWords pg.toNat (frameOffs cmd off)
    (r.2.spiEnd (waitBytes (min 4 waits) ++ [st] ++ r.1 ++ [crc8 (st :: r.1)]) false).frameEnd

/-- Whether a register is a stream port, and if so whether it has an item (R45, R296, R300, R301, R305). -/
def Core.streamPort (c : Core) (pg off : Nat) : Option Bool :=
  if pg = pgCRB && off = 0x24 then
    if c.flag pgCRB CRB_CFG_DEST && !c.isMaster then none else some (c.rpr.depth = 0 && c.crb.fifo ≠ [])
  else if pg = pgCRB && off = 0x3C then
    if c.drains then some (c.rpr.depth = 0 && c.crb.rbuf ≠ []) else none
  else none

/-- Slots of a stream frame filled while the port has items; the bytes sent and the slots left (R44, R45). -/
def State.fillSlots (s : State) (pg off : Nat) : Nat → List Byte → List Byte × Nat × State
  | 0, out => (out, 0, s)
  | k + 1, out =>
    if s.core.streamPort pg off = some false then (out, k + 1, s)
    else
      let r := s.readReg .spi pg off
      r.2.fillSlots pg off k (out ++ [0xA5#8] ++ wordBytes r.1)

/-- The bytes of a frame from STATUS on: those after its wait bytes, whose bit 7 is 1 (R40). -/
def fromStatus (l : List Byte) : List Byte := l.dropWhile (fun b => b.msb)

/-- A stream frame goes on: it ends with RCRC when every slot is filled, else it waits in a slot (R43 to R45). -/
def State.streamOn (s : State) (pg off left : Nat) (out : List Byte) : State :=
  let r := s.fillSlots pg off left out
  if r.2.1 = 0 then (r.2.2.spiEnd (r.1 ++ [crc8 (fromStatus r.1)]) false).frameEnd
  else r.2.2.onCore (fun c => { c with hst := { c.hst with miso := r.1, stream := some ⟨pg, off, r.2.1⟩ } })

/-- A read frame of stream mode begins (R44, R45). -/
def State.spiStream (s : State) (cmd pg off hcrc : Byte) (waits : Nat) : State :=
  if !s.regOpen || s.core.hst.stream.isSome then s
  else if hcrcBad cmd pg off hcrc || frameBad cmd off then
    s.spiRefuse (hcrcBad cmd pg off hcrc) (frameBad cmd off) (5 * (cmdCnt cmd + 1) + 1)
  else if cmdWr cmd || cmdMode cmd ≠ 2 then s
  else
    let s := s.pageMark pg.toNat
    let st := s.spiStatus false false (kindOf pg.toNat).isNone false
    s.streamOn pg.toNat off.toNat (cmdCnt cmd + 1) (waitBytes waits ++ [st])

/-- The number of wait bytes after which a slot is abandoned: 0 means 256 (R61). It is WAITMAX as it stands when the slot is
filled or abandoned, also where another port has written it during the frame (DESIGN CHOICE, log 111). -/
def Core.waitMax (c : Core) : Nat :=
  if c.fld pgHST HST_SPICFG_WAITMAX = 0 then 256 else c.fld pgHST HST_SPICFG_WAITMAX

/-- The port of a waiting slot has an item after `waits` wait bytes (R45). -/
def State.slotFill (s : State) (waits : Nat) : State :=
  match s.core.hst.stream with
  | none => s
  | some x =>
    if s.regOpen && 1 ≤ waits && waits < s.core.waitMax && s.core.streamPort x.page x.off = some true then
      s.streamOn x.page x.off x.left (s.core.hst.miso ++ waitBytes waits)
    else s

/-- WAITMAX wait bytes have gone by: this slot and every slot after it is abandoned (R45). -/
def State.slotAbandon (s : State) : State :=
  match s.core.hst.stream with
  | none => s
  | some x =>
    if !s.regOpen || s.core.streamPort x.page x.off = some true then s
    else
      let out := s.core.hst.miso ++ waitBytes s.core.waitMax ++
        (List.replicate x.left ([0x5A#8, 0#8, 0#8, 0#8, 0#8] : List Byte)).flatten
      ((s.onCore (fun c => c.raise pgHST 5)).spiEnd (out ++ [crc8 (fromStatus out)]) false).frameEnd

/-- The words of a write frame, applied one after another while the port stays open (R41). -/
def State.writeWords (s : State) (p : HostPort) (pg : Nat) : List Nat → List Byte → State
  | [], _ => s
  | o :: t, l =>
    (if s.regOpen then s.hostWrite p pg o (bytesWord (l.take 4)) else s).writeWords p pg t (l.drop 4)

/-- A write frame (R41): applied if DCRC matches, with 0xFF while the data and DCRC are sent, then STATUS and SCRC. That
the slot of DCRC carries 0xFF too is read from R41 (DEDUCED, log 90). -/
def State.spiWrite (s : State) (mode : Nat) (cmd pg off hcrc : Byte) (data : List Byte) (dcrc : Byte) : State :=
  if !s.regOpen || s.core.hst.stream.isSome then s
  else if hcrcBad cmd pg off hcrc || frameBad cmd off then
    s.spiRefuse (hcrcBad cmd pg off hcrc) (frameBad cmd off) (data.length + 2)
  else if !cmdWr cmd || cmdMode cmd ≠ mode || data.length ≠ 4 * (cmdCnt cmd + 1) then s
  else
    let s := s.pageMark pg.toNat
    let bad : Bool := crc8 data ≠ dcrc
    let s := if bad then s.onCore (fun c => (c.raise pgHST 1).incSat pgHST HST_SPICNT_DCRCCNT 1) else s
    let st := s.spiStatus false bad (kindOf pg.toNat).isNone false
    let s := s.spiEnd (waitBytes (data.length + 1) ++ [st, crc8 [st]]) false
    (if bad then s else s.writeWords .spi pg.toNat (frameOffs cmd off) data).frameEnd

/-- SPI_CS_N rises before the last byte (R35, R42): nothing is written; words that had been shifted out whole keep their
side effects; `dcrcBad` says that the DCRC of a write frame had been sent and did not match. -/
def State.spiAbort (s : State) (hdr : List Byte) (words : Nat) (dcrcBad : Bool) : State :=
  if !s.regOpen then s
  else
    let ended (s : State) : State := ((s.onCore (fun c => c.raise pgHST 4)).spiEnd [] true).frameEnd
    match s.core.hst.stream with
    | some x => ended (s.fillSlots x.page x.off (min words x.left) []).2.2
    | none => match hdr with
    | [cmd, pg, off, hcrc] =>
      let hbad := hcrcBad cmd pg off hcrc
      let fbad := frameBad cmd off
      if hbad || fbad then ended (s.refuseMarks hbad fbad)
      else
        let s := s.pageMark pg.toNat
        if cmdWr cmd then
          ended (if dcrcBad then s.onCore (fun c => (c.raise pgHST 1).incSat pgHST HST_SPICNT_DCRCCNT 1) else s)
        else if cmdMode cmd = 2 then ended (s.fillSlots pg.toNat off.toNat (min words (cmdCnt cmd + 1)) []).2.2
        else ended (s.readWords pg.toNat ((frameOffs cmd off).take words)).2
    | _ => ended s

/-! ## SMBus (R46 to R51, R57) -/

/-- A STATUS_CML bit is set (R57). -/
def Core.setCml (c : Core) (bit : Nat) : Core :=
  (c.setReg pgHST 0x3C (putBit (c.reg pgHST 0x3C) bit true)).raise pgHST 8

/-- One bit of the SMBus packet error code, whose polynomial is that of the SMBus specification, 0x07 (PRESUMED, log 91). -/
def pecBit (x : BitVec 8) : BitVec 8 := if x.msb then (x <<< 1) ^^^ 0x07#8 else x <<< 1

/-- The packet error code of the bytes of a transaction, preset 0 (PRESUMED, log 91). -/
def pecOf (l : List Byte) : Byte := l.foldl (fun r b => iter 8 pecBit (r ^^^ b)) 0#8

/-- The address byte of the device: its 7-bit address and the direction bit. -/
def Core.smbAddr (c : Core) (rd : Bool) : Byte := BitVec.ofNat 8 (2 * c.fld pgHST HST_STRAP_SMBADDR + b2n rd)

/-- The bytes of a read after a command code: the data, and the PEC where the host clocks a byte beyond them (R50). -/
def Core.smbBytes (c : Core) (code : Byte) (pec : Bool) (l : List Byte) : List Byte :=
  if pec then l ++ [pecOf ([c.smbAddr false, code, c.smbAddr true] ++ l)] else l

/-- Bytes of the device's answer, and whether it acknowledged. -/
def Core.smbAnswer (c : Core) (l : List Byte) (ack : Bool) : Core := { c with hst := { c.hst with smb := l, smbAck := ack } }

/-- Clock-low timeout (R49). -/
def Core.smbTimeout (c : Core) : Core :=
  if c.flag pgHST HST_SMBCFG_TOEN then (c.raise pgHST 7).incSat pgHST HST_SMBCNT_TOCNT 1 else c

/-- A read of the Alert Response Address (R51): the device answers while it drives ALERT_N, and releases it if it wins the
arbitration. -/
def State.alertResponse (s : State) (won pec : Bool) : State :=
  if s.smbOpen && s.core.flag pgHST HST_SMBCFG_ARAEN && s.alertPin && won then
    s.onCore (fun c => ({ c with hst := { c.hst with alertRel := true } }).smbAnswer
      (c.smbAddr false :: (if pec then [pecOf [0x19#8, c.smbAddr false]] else [])) true)
  else s

/-- The PEC of a write: none where it must be there, or a wrong one, discards the write (R50). -/
def Core.pecBad (c : Core) (pec : Pec) : Bool := pec = .bad || (pec = .absent && c.flag pgHST HST_SMBCFG_PECREQ)

/-- A write discarded for its PEC (R50). -/
def Core.pecFail (c : Core) : Core := ((c.setCml 5).raise pgHST 6).incSat pgHST HST_SMBCNT_PECCNT 1

/-- Invalid data: acknowledged, not applied (R57). -/
def Core.invalid (c : Core) : Core := (c.smbAnswer [] true).setCml 6

/-- Writes that WRITE_PROTECT lets through (R58). -/
inductive WpClass where
  | always | page | vout | other
  deriving DecidableEq, Repr

/-- WRITE_PROTECT refuses a write of this class (R58). -/
def Core.wpRefuses (c : Core) (k : WpClass) : Bool :=
  match c.fld pgHST HST_SMBCFG_WPROT, k with
  | _, .always => false
  | 3, _ => true
  | 2, .page => false
  | 2, _ => true
  | 1, .other => true
  | _, _ => false

/-- A PMBus write or send byte (R50, R57, R58): discarded for its PEC, refused as invalid data, or carried out. -/
def State.smbWrite (s : State) (k : WpClass) (pec : Pec) (f : State → State) : State :=
  if !s.smbOpen then s
  else if s.core.pecBad pec then s.onCore Core.pecFail
  else if s.core.wpRefuses k then s.onCore Core.invalid
  else ((f (s.onCore (fun c => c.smbAnswer [] true))).rest).frameEnd

/-- A PMBus read of a command code. -/
def State.smbRead (s : State) (code : Byte) (pec : Bool) (f : State → List Byte) : State :=
  if s.smbOpen then s.onCore (fun c => c.smbAnswer (c.smbBytes code pec (f s)) true) else s

end Sys2Proof.Machine
end

