-- ==== Sys2Proof/Machine/Pmbus.lean ====
section
/-! DEFINITION. The PMBus command subset on the SMBus port (R52 to R60, R63, R254, R319, R343, R366). -/
namespace Sys2Proof.Machine

/-! ## Number formats (R53, R54) -/

/-- `x` over 2 to the power `e`. -/
def scaled (x : Rat) (e : Int) : Rat := if e < 0 then x * (2 ^ e.natAbs : Nat) else x / (2 ^ e.natAbs : Nat)

/-- The LINEAR11 word of a value: the smallest exponent from `lo` on for which the rounded mantissa fits; beyond the last
exponent the mantissa is limited (R54). -/
def lin11 (x : Rat) (lo : Int) : Nat :=
  let es := (List.range 24).map (fun i => lo + i) |>.filter (fun e => e ≤ 15)
  let e := (es.find? (fun e => let y := roundRat (scaled x e); -1024 ≤ y && y ≤ 1023)).getD 15
  ofSigned 5 e * 2048 + ofSigned 11 (clampInt (-1024) 1023 (roundRat (scaled x e)))

/-- The value of a LINEAR11 word (R54). -/
def linVal (w : Nat) : Rat := scaled (toSigned 11 (w % 2048)) (-(toSigned 5 (w / 2048 % 32)))

/-- Two bytes, least significant first (R5). -/
def word2 (v : Nat) : List Byte := toLeBytes 2 v

/-! ## Shape of a command -/

/-- The PMBus page (R52). -/
def Core.pmPage (c : Core) : Nat := c.fld pgHST HST_PMBPAGE_PAGE

/-- A read of a rail command: with PAGE at 0xFF, 0xFF in every byte and STATUS_CML bit 6 (R56). -/
def State.railRead (s : State) (code : Byte) (pec : Bool) (width : Nat) (f : Nat → List Byte) : State :=
  if !s.smbOpen then s
  else if s.core.pmPage = 0xFF then
    s.onCore (fun c => (c.smbAnswer (c.smbBytes code pec (List.replicate width 0xFF#8)) true).setCml 6)
  else s.smbRead code pec (fun s => f s.core.pmPage)

/-- The rails a write reaches, in rising order (R56). -/
def Core.pmRails (c : Core) : List Nat := if c.pmPage = 0xFF then List.range 8 else [c.pmPage]

/-- A write applied to each rail in turn; any that is invalid data sets STATUS_CML bit 6 (R56, R57). With PAGE 0xFF a rail for which
the data are valid keeps its write, though another finds them invalid (DESIGN CHOICE, log 110). -/
def State.onRails (s : State) (f : Nat → State → Bool × State) : State :=
  let r := s.core.pmRails.foldl (fun (a : Bool × State) n =>
    let r := f n a.2
    (a.1 && r.1, r.2)) (true, s)
  if r.1 then r.2 else r.2.onCore Core.invalid

/-- A rail command with a data width: its read, and its write of a value, which answers whether the data are valid. A
write with another number of bytes is invalid data (DEDUCED, log 35). -/
def State.railCmd (s : State) (code : Byte) (op : PmOp) (k : WpClass) (width : Nat) (rd : Nat → List Byte)
    (wr : Nat → Nat → State → Bool × State) : State :=
  match op with
  | .read pec => s.railRead code pec width rd
  | .write data pec =>
    s.smbWrite k pec (fun s => if data.length ≠ width then s.onCore Core.invalid else s.onRails (wr (leBytes data)))

/-- A device command with a data width. -/
def State.devCmd (s : State) (code : Byte) (op : PmOp) (k : WpClass) (width : Nat) (rd : State → List Byte)
    (wr : Nat → State → Bool × State) : State :=
  match op with
  | .read pec => s.smbRead code pec rd
  | .write data pec =>
    s.smbWrite k pec (fun s =>
      if data.length ≠ width then s.onCore Core.invalid
      else
        let r := wr (leBytes data) s
        if r.1 then r.2 else r.2.onCore Core.invalid)

/-- A write to a read-only command is invalid data (R55). -/
def noWrite (_ : Nat) (s : State) : Bool × State := (false, s)

/-- A rail command that is read only. -/
def State.railRo (s : State) (code : Byte) (op : PmOp) (width : Nat) (rd : Nat → List Byte) : State :=
  s.railCmd code op .other width rd (fun _ => noWrite)

/-- A device command that is read only: of any number of bytes written, none is applied. -/
def State.devRo (s : State) (code : Byte) (op : PmOp) (rd : State → List Byte) : State :=
  match op with
  | .read pec => s.smbRead code pec rd
  | .write _ pec => s.smbWrite .other pec (fun s => s.onCore Core.invalid)

/-- A write with the effect of a host write of the field (R52). -/
def State.pmField (s : State) (pg : Nat) (f : Field) (v : Nat) : State :=
  s.hostWrite .smb pg f.off (setBits (s.core.reg pg f.off) f.lo f.len v)

/-! ## The commands -/

/-- PAGE (R52, R56). -/
def State.pmPageCmd (s : State) (op : PmOp) : State :=
  s.devCmd 0x00 op .page 1 (fun s => [BitVec.ofNat 8 s.core.pmPage]) (fun v s =>
    if v < 8 || v = 0xFF then (true, s.onCore (fun c => c.setFld pgHST HST_PMBPAGE_PAGE v)) else (false, s))

/-- OPERATION as it reads: on, soft off or immediate off, from EN and SOFTOFF (R52, R89; DEDUCED, log 35). -/
def Core.operation (c : Core) (n : Nat) : Byte :=
  if c.flag (pgV n) V_CTRL_EN then 0x80 else if c.flag (pgV n) V_CTRL_SOFTOFF then 0x40 else 0x00

/-- OPERATION writes EN and, for the off codes, SOFTOFF (R52, R89). -/
def operate (en : Bool) (soft : Option Bool) (n : Nat) (s : State) : Bool × State :=
  (true, s.onCore (fun c => c.writeEn n en (soft.getD (c.flag (pgV n) V_CTRL_SOFTOFF)) true))

/-- OPERATION 0x80, the read of OPERATION, and codes that are none of the three (R55). -/
def State.operationOn (s : State) (op : PmOp) : State :=
  match op with
  | .write [0x40] _ | .write [0x00] _ => s
  | _ => s.railCmd 0x01 op .page 1 (fun n => [s.core.operation n]) (fun v n s => if v = 0x80 then operate true none n s else (false, s))

/-- OPERATION 0x40 and 0x00. -/
def State.operationOff (s : State) (soft : Bool) (pec : Pec) : State :=
  s.railCmd 0x01 (.write [if soft then 0x40 else 0x00] pec) .page 1 (fun _ => []) (fun _ n s => operate false (some soft) n s)

/-- The sticky bits that the STATUS commands of rail `n` show: page and bit (R343). -/
def Core.statusBits (c : Core) (n : Nat) : List (Nat × Nat) :=
  let b := c.vinsel n
  [(pgCMP, n), (pgCMP, 8 + n), (pgCMP, 16 + n), (pgCMP, 24 + b), (pgCMP, 26 + b), (pgTHM, 16 + n), (pgTHM, 24 + n),
    (pgV n, 8), (pgV n, 9), (pgV n, 24), (pgTRP, n), (pgTRP, 24 + n), (pgAUX, 24)]

/-- CLEAR_FAULTS (R63, R343). -/
def Core.clearFaults (c : Core) (rails : List Nat) : Core :=
  let c := rails.foldl (fun (c : Core) n =>
    (c.statusBits n).foldl (fun (c : Core) p => c.clearStky p.1 (BitVec.ofNat 32 (2 ^ p.2)) 0) c) c
  c.setReg pgHST 0x3C 0

/-- WRITE_PROTECT (R58). -/
def wprotByte (k : Nat) : Byte := if k = 1 then 0x20 else if k = 2 then 0x40 else if k = 3 then 0x80 else 0x00
def State.writeProtect (s : State) (op : PmOp) : State :=
  s.devCmd 0x10 op .always 1 (fun s => [wprotByte (s.core.fld pgHST HST_SMBCFG_WPROT)]) (fun v s =>
    match [0, 1, 2, 3].find? (fun k => (wprotByte k).toNat = v) with
    | some k => (true, s.onCore (fun c => c.setFld pgHST HST_SMBCFG_WPROT k))
    | none => (false, s))

/-- A DIRECT voltage is valid from 0.200 V to 1.800 V (R53). -/
def directOk (y : Nat) : Bool := 400 ≤ y && y ≤ 3600

/-- VOUT_COMMAND and VOUT_MAX (R53). Data out of range are invalid data even where the field is locked: the manual does not
say which of R53 and R59 comes first (DESIGN CHOICE, log 83). -/
def State.voutCommand (s : State) (op : PmOp) : State :=
  s.railCmd 0x21 op .vout 2 (fun n => word2 (s.core.fld (pgV n) V_TARGET_CODE)) (fun y n s =>
    if directOk y then (true, s.pmField (pgV n) V_TARGET_CODE y) else (false, s))
def State.voutMax (s : State) (op : PmOp) : State :=
  s.railCmd 0x24 op .other 2 (fun n => word2 (s.core.fld (pgV n) V_VMAX_CODE)) (fun y n s =>
    if directOk y then (true, s.pmField (pgV n) V_VMAX_CODE y) else (false, s))

/-- VOUT_TRANSITION_RATE, 0.5 to 80 mV/µs in 0.125 mV/µs (R55). R54 names no exponent for a rate; the model reads it with
-8 or more (DESIGN CHOICE, log 82). -/
def State.voutRate (s : State) (op : PmOp) : State :=
  s.railCmd 0x27 op .other 2 (fun n => word2 (lin11 ((s.core.fld (pgV n) V_SLEW_RATE : Nat) / 8 : Rat) (-8))) (fun y n s =>
    let x := linVal y
    if 1 / 2 ≤ x && x ≤ 80 then (true, s.pmField (pgV n) V_SLEW_RATE (roundRat (8 * x)).toNat) else (false, s))

/-- The bytes of the COEFFICIENTS call up to the device's answer, and the answer with its PEC: the command, a count of 2,
the code asked for and whether it is read or written, then the repeated address (R50; PRESUMED, log 91). -/
def Core.coeffBytes (c : Core) (code rw : Byte) (pec : Bool) (l : List Byte) : List Byte :=
  if pec then l ++ [pecOf ([c.smbAddr false, 0x30, 2, code, rw, c.smbAddr true] ++ l)] else l

/-- COEFFICIENTS (R53): for a code that is not in DIRECT format, invalid data; the bytes returned are then open (log 6). -/
def State.coefficients (s : State) (code rw : Byte) (pec : Bool) : State :=
  if !s.smbOpen then s
  else if ([0x21#8, 0x24#8, 0x40#8, 0x44#8, 0x8B#8] : List Byte).contains code then
    s.onCore (fun c => c.smbAnswer (c.coeffBytes code rw pec [5, 0xD0, 0x07, 0x00, 0x00, 0x00]) true)
  else
    s.onCore (fun c => (({ c with free := c.free + 5 }).smbAnswer
      (c.coeffBytes code rw pec ((List.range 5).map (fun i => Config.freeByte (c.free + i)))) true).setCml 6)

/-- Lowest bit of a comparator's threshold (R224, R256). -/
def thrBit (i : Nat) (hi : Bool) : Nat := 16 * (i % 2) + 8 * b2n hi

/-- A threshold code through PMBus: ignored when locked, invalid when it leaves LO above HI (R59, R224, R254). -/
def State.pmThr (s : State) (i : Nat) (hi : Bool) (code : Nat) : Bool × State :=
  let j := i / 2
  if s.core.locked pgCMP (CMP_THR_LO0 j) then (true, s)
  else
    let off := 0x20 + 4 * j
    let w := setBits (s.core.reg pgCMP off) (thrBit i hi) 8 code
    let s' := s.hostWrite .smb pgCMP off w
    (s'.core.reg pgCMP off = w, s')

/-- The threshold code of comparator `i`. -/
def Core.thr (c : Core) (i : Nat) (hi : Bool) : Nat := if hi then c.thrHi i else c.thrLo i

/-- VOUT_OV_FAULT_LIMIT and VOUT_UV_FAULT_LIMIT (R254). -/
def State.voutLimit (s : State) (op : PmOp) (hi : Bool) : State :=
  s.railCmd (if hi then 0x40 else 0x44) op .other 2 (fun n => word2 (16 * s.core.thr n hi)) (fun y n s =>
    if directOk y then s.pmThr n hi (roundDiv y 16).toNat else (false, s))

/-- VIN_OV_FAULT_LIMIT and VIN_UV_FAULT_LIMIT (R254). -/
def State.vinLimit (s : State) (op : PmOp) (hi : Bool) : State :=
  let volts (c : Core) (n : Nat) : Rat := ((c.thr (32 + c.vinsel n) hi * c.vinDiv (c.vinsel n) * 5 : Nat) : Rat) / 16000
  s.railCmd (if hi then 0x55 else 0x59) op .other 2 (fun n => word2 (lin11 (volts s.core n) (-8))) (fun y n s =>
    let b := s.core.vinsel n
    let code := roundRat (linVal y * 16000 / ((s.core.vinDiv b * 5 : Nat) : Rat))
    if 0 ≤ code && code ≤ 255 then s.pmThr (32 + b) hi code.toNat else (false, s))

/-- IOUT_OC_FAULT_LIMIT (R254). -/
def State.ioutLimit (s : State) (op : PmOp) : State :=
  s.railCmd 0x46 op .other 2 (fun n => word2 (lin11 (s.core.fld pgTRP (TRP_ROC_ROCLIM n) : Nat) (-6))) (fun y n s =>
    let x := linVal y
    if 0 ≤ x && x ≤ 4095 then (true, s.pmField pgTRP (TRP_ROC_ROCLIM n) (roundRat x).toNat) else (false, s))

/-- OT_FAULT_LIMIT (R319). -/
def State.otLimit (s : State) (op : PmOp) : State :=
  s.railCmd 0x4F op .other 2 (fun n => word2 (lin11 (s.core.fld pgTHM (THM_OTL_OT n) : Nat) (-2))) (fun y n s =>
    let x := linVal y
    if 0 ≤ x && x ≤ 255 then (true, s.pmField pgTHM (THM_OTL_OT n) (roundRat x).toNat) else (false, s))

/-! ## Status (R343) -/

/-- Bits and their positions as a byte. -/
def bitsByte (l : List (Nat × Bool)) : Nat := l.foldl (fun a p => a + 2 ^ p.1 * b2n p.2) 0

def Core.statusVout (c : Core) (n : Nat) : Nat :=
  bitsByte [(7, c.stky pgCMP n), (4, c.stky pgCMP (8 + n)), (2, c.stky (pgV n) 8)]
def Core.statusIout (c : Core) (n : Nat) : Nat :=
  bitsByte [(7, c.stky pgCMP (16 + n)), (5, c.stky pgTRP (24 + n)), (3, c.stky (pgV n) 24)]
def Core.statusInput (c : Core) (n : Nat) : Nat :=
  bitsByte [(7, c.stky pgCMP (26 + c.vinsel n)), (4, c.stky pgCMP (24 + c.vinsel n))]
def Core.statusTemp (c : Core) (n : Nat) : Nat :=
  bitsByte [(7, c.stky pgTHM (24 + n)), (6, c.stky pgTHM (16 + n))]

/-- STATUS_BYTE. -/
def Core.statusByte (c : Core) (n : Nat) : Nat :=
  let st := (c.rail n).rstate
  let v := bitsByte [(6, st ≠ .hold && st ≠ .slew), (5, c.stky pgCMP n), (4, c.stky pgCMP (16 + n)),
    (3, c.stky pgCMP (24 + c.vinsel n)), (2, c.stky pgTHM (16 + n) || c.stky pgTHM (24 + n)), (1, c.fld pgHST HST_CML_CML ≠ 0)]
  v + b2n (v = 0 && (c.stky (pgV n) 9 || c.stky pgTRP n))

/-- STATUS_WORD. -/
def Core.statusWord (c : Core) (n : Nat) : Nat :=
  c.statusByte n + bitsByte [(15, c.statusVout n ≠ 0), (14, c.statusIout n ≠ 0), (13, c.statusInput n ≠ 0),
    (11, !c.stat (pgV n) 0), (10, c.stky pgAUX 24)]

/-! ## Readings (R287, R317) -/

/-- A channel of the host view in LINEAR11: its value in units of 1/`unit`. -/
def Core.readLin (c : Core) (ch unit : Nat) (lo : Int) : List Byte := word2 (lin11 ((c.hostView ch : Rat) / unit) lo)

/-- READ_VOUT: DIRECT, rounded to 0.5 mV. -/
def Core.readVout (c : Core) (n : Nat) : List Byte := word2 (roundDiv (c.hostView n) 4).toNat

/-! ## The register window (R58, R60) -/

/-- A window access is to a page that is not implemented (R33). -/
def Core.winBad (c : Core) : Bool := (kindOf (c.fld pgHST HST_WINADDR_PAGE)).isNone

/-- The offset advances by 4, from 0xFC to 0x00 (R60). -/
def Core.winNext (c : Core) : Core := c.setFld pgHST HST_WINADDR_OFFSET ((c.fld pgHST HST_WINADDR_OFFSET + 4) % 256)

/-- MFR_WINDOW_DATA, and MFR_WINDOW_DATA_INC with `inc`. -/
def State.window (s : State) (op : PmOp) (inc : Bool) : State :=
  let next (s : State) : State := if inc then s.onCore Core.winNext else s
  let mark (s : State) : State := if s.core.winBad then s.onCore (fun c => c.setCml 6) else s
  let pg := s.core.fld pgHST HST_WINADDR_PAGE
  let off := s.core.fld pgHST HST_WINADDR_OFFSET
  match op with
  | .read pec =>
    if !s.smbOpen then s
    else
      let r := (mark s).readReg .smb pg off
      (next r.2).onCore (fun c => c.smbAnswer (c.smbBytes (if inc then 0xD2 else 0xD1) pec (4#8 :: wordBytes r.1)) true)
  | .write data pec =>
    s.smbWrite .other pec (fun s =>
      if data.length ≠ 4 then s.onCore Core.invalid
      else next ((mark s).hostWrite .smb pg off (bytesWord data)))

/-- MFR_WINDOW_ADDR. -/
def State.windowAddr (s : State) (op : PmOp) : State :=
  s.devCmd 0xD0 op .always 2 (fun s => word2 (s.core.reg pgHST 0x34).toNat) (fun v s =>
    (true, s.onCore (fun c => c.putFields pgHST .hst 0x34 (BitVec.ofNat 32 v))))

/-- MFR_FLEET_REPORT: the formed report, and a new one is due (R366, R368). -/
def State.fleetReport (s : State) (op : PmOp) : State :=
  match op with
  | .read pec =>
    if !s.smbOpen then s
    else s.onCore (fun c =>
      (({ c with bkh := { c.bkh with reportDue := true } }).raise pgBKH 8).smbAnswer
        (c.smbBytes 0xD8 pec (96#8 :: c.bkh.report)) true)
  | .write _ _ => s.devRo 0xD8 op (fun _ => [])

/-! ## Unsupported codes (R57) -/

/-- The command codes of R52. -/
def pmCodes : List Nat :=
  [0x00, 0x01, 0x02, 0x03, 0x10, 0x19, 0x20, 0x21, 0x24, 0x27, 0x30, 0x40, 0x44, 0x46, 0x4F, 0x55, 0x59, 0x78, 0x79, 0x7A,
    0x7B, 0x7C, 0x7D, 0x7E, 0x88, 0x89, 0x8B, 0x8C, 0x8D, 0x8E, 0x96, 0x98, 0x99, 0x9A, 0x9B, 0xD0, 0xD1, 0xD2, 0xD8]

/-- An unsupported code: NACK on the first data byte of a write, 0xFF for each of the bytes that a read clocks, and STATUS_CML
bit 7 (R57). -/
def State.unsupported (s : State) (code : Byte) (rd : Option Nat) : State :=
  if !s.smbOpen || pmCodes.contains code.toNat then s
  else s.onCore (fun c => (c.smbAnswer (List.replicate (rd.getD 0) 0xFF) rd.isSome).setCml 7)

/-- The characters of a block read, with its byte count. -/
def asciiBlock (l : List Nat) : List Byte := BitVec.ofNat 8 l.length :: l.map (BitVec.ofNat 8)

end Sys2Proof.Machine
end

