-- ==== Sys2Proof/Machine/Boot.lean ====
section
/-! DEFINITION. BOOT: the end of each of its phases (R410 to R414), the repair map and the control record that it takes
(R384, R390, R426), self-test (R427), the configuration images (R374 to R376), the programs (R349) and what the end of BOOT
brings (R363, R366, R394, R404, R409, R419). -/
namespace Sys2Proof.Machine

/-- BOOT runs, `k` of its phases have ended, and it has not halted. -/
def State.inPhase (s : State) (k : Nat) : Bool :=
  s.pw.pstate = .boot && !s.pw.inReset && !s.pw.halt && s.pw.phase = k

/-- One more phase has ended. -/
def State.phaseEnds (s : State) : State := { s with pw := { s.pw with phase := s.pw.phase + 1 } }

/-! ## The start of BOOT (R47, R410, R412) -/

/-- Level of a strap from its voltage in 1/1,000 of VIO, and whether it lies between bands (R47). -/
def strapLevel (v : Nat) : Nat × Bool :=
  if v ≤ 150 then (0, false) else if v < 250 then (0, true) else if v ≤ 420 then (1, false)
  else if v < 580 then (1, true) else if v ≤ 750 then (2, false) else if v < 850 then (2, true) else (3, false)

/-- A strap from its eight samples: the lowest level found, ambiguous where a sample lies between bands or the samples do not
all fall in one band (R47, R468). -/
def strapRead (v : Vector Nat 8) : Nat × Bool :=
  let l := v.toList.map strapLevel
  let low := l.foldl (fun a p => min a p.1) 3
  (low, l.any (fun p => p.2 || p.1 ≠ low))

/-- BOOT may begin: the core in reset, RST_N high and every supply good (R404, R405). -/
def State.bootReady (s : State) : Bool :=
  s.pw.pstate = .boot && s.pw.inReset && s.pw.rstn && s.pw.coreGood && s.pw.isGood 4

/-- BOOT begins: device time is 0, the straps are read, the kind and the cause of BOOT are settled, and the GRAVE latch is
clear only with both copies lost; the levels that follow comparator sides show from now on, BKH_STAT.WAKE among them (R47,
R255, R333, R338, R360, R410, R412, R415). -/
def State.bootStart (s : State) (a0 a1 : Vector Nat 8) : State :=
  if !s.bootReady then s
  else
    let g := s.pw.grave
    let cold := !s.pw.fastok || s.pw.coldall || s.storedMap.isNone
    let p := { s.pw with inReset := false, phase := 0, halt := false, cold := cold,
                         cause := if s.pw.vkeepUp then 0 else s.pw.nextCause,
                         vkeepUp := false, vddcFell := false, vcc33Fell := false, graveD := g, graveV := g,
                         graveMsg := if g then s.pw.graveMsg else 0, graveTime := if g then s.pw.graveTime else 0 }
    let l0 := strapRead a0
    let l1 := strapRead a1
    let c := s.core
    let c := { c with time := 0, wraps := 0 }
    let c := c.setFld pgHST HST_STRAP_A0LVL l0.1
    let c := c.setFld pgHST HST_STRAP_A1LVL l1.1
    let c := c.setFld pgHST HST_STRAP_MSTR (b2n (l1.1 = 3))
    let c := c.setFld pgHST HST_STRAP_SMBADDR (0x40 + 4 * l1.1 + l0.1)
    let c := c.setLevel pgHST 9 (l0.2 || l1.2)
    let c := c.setStat pgBKH 7 p.hi51
    let c := c.setLevel pgLNK 1 (l1.1 = 3)
    let c := c.setStat pgDEV 1 cold
    { s with pw := p, core := c.sideLevels }

/-! ## Phase A (R228, R311, R412) -/

/-- The end of phase A: C52 to C55 are armed, the housekeeping round starts, and SPI and JTAG open. -/
def State.bootA (s : State) : State := s.phaseEnds.onCore (fun c => c.armRefs.thmStart)

/-! ## Phase B (R384, R414, R426) -/

/-- The OTP check fails: BOOT halts (R414). -/
def State.bootHalt (s : State) : State :=
  { s.onCore (fun c => c.setLevel pgDEV 2 true) with pw := { s.pw with halt := true } }

/-- The stored repair map is taken; without one the map is empty, and MAPERR is set (R426). -/
def State.takeMap (s : State) : State :=
  match s.storedMap with
  | some m => s.onCore (fun c =>
      let c := { c with rpr := { c.rpr with map := m } }
      ((c.setStat pgNVM 5 c.freeSpare.isNone).showMap).syncEngines)
  | none => s.onCore (fun c => (c.raise pgRPR 11).showMap.syncEngines)

/-- The first control slot in ring order from `i` that is free. -/
def State.freeCtlSlot (s : State) (i : Nat) : Option Nat :=
  ((List.range 64).map (fun j => (i + j) % 64)).find? (fun j => slotState (s.slot (ctlAddr j)) = .free)

/-- The newest control record is taken, with the slot that the next one goes to; without a free slot its sector is erased, under
a hold later; a control sector left behind whose erase had not ended is erased (R381, R384). -/
def State.takeCtl (s : State) : State :=
  let p := s.takenCtl.getD (63, {})
  let x := p.2
  let last := if s.takenCtl.isSome then p.1 else 0
  let slot := (s.freeCtlSlot (p.1 + 1)).getD ((32 * (last / 32) + 32) % 64)
  let full : Bool := s.freeCtlSlot (p.1 + 1) = none
  let s := if full && !s.core.held then s.flashErase (s.core.physSector (14 + slot / 32)) else s
  let other := 14 + (1 - last / 32)
  let stale : Bool := s.takenCtl.isSome && slot / 32 = last / 32 && !s.flashBlank (other * 2048) 2048
  s.onCore (fun c =>
    let c := { c with nvm := { c.nvm with ctl := x, next := x, ctlSlot := slot, ctlLast := last } }
    let c := if full && c.held then c.wantErase (14 + slot / 32) .ctl else c
    let c := if stale then c.wantErase other .ctl else c
    let c := (c.setFld pgNVM NVM_IMG_PREF (b2n x.pref)).setFld pgNVM NVM_MINVER_MINVER x.minver
    let c := (c.setFld pgNVM NVM_TORN_COUNT x.torn).setFld pgNVM NVM_WEAR_LOGERASE x.logerase
    (c.setFld pgSEC SEC_FAIL_LEVEL x.level).showCtl)

/-- The repair map and then the control record are read and taken (R371, R384, R426). -/
def State.takeStored (s : State) : State :=
  ((((s.reportBad (12 * 2048) 4096).takeMap).reportBad (14 * 2048) 4096).takeCtl)

/-- The end of phase B. -/
def State.bootB (s : State) : State :=
  if !s.otpOk then s.bootHalt else s.showKeys.takeStored.phaseEnds

/-! ## Images (R374 to R376) -/

/-- The logical byte address of image A or B, and of its program set (R372). -/
def imgBase (b : Bool) : Nat := if b then 6 * 2048 else 0
def setBase (b : Bool) : Nat := if b then 10 * 2048 else 4 * 2048

/-- MAGIC is "VYCF". -/
def State.imgMagic (s : State) (b : Bool) : Bool := s.flashRead (imgBase b) 4 = [0x56#8, 0x59#8, 0x43#8, 0x46#8]

/-- VERSION, NENT and SIGNED. -/
def State.imgVersion (s : State) (b : Bool) : Nat := (s.flashWord (imgBase b + 4)).toNat
def State.imgNent (s : State) (b : Bool) : Nat := leBytes (s.flashRead (imgBase b + 8) 2)
def State.imgSigned (s : State) (b : Bool) : Bool := (s.flashByte (imgBase b + 10)).getLsbD 0

/-- Bytes 0 to 11 followed by the entries. -/
def State.imgBody (s : State) (b : Bool) : List Byte :=
  s.flashRead (imgBase b) 12 ++ s.flashRead (imgBase b + 64) (8 * s.imgNent b)

/-- An image passes every check of R375 but that of its TAG. -/
def State.imgSound (s : State) (b : Bool) : Bool :=
  s.imgMagic b && s.imgNent b ≤ 1016 && s.flashWord (imgBase b + 12) = crc32 (s.imgBody b) &&
  s.badIn (imgBase b) 16 = [] && s.badIn (imgBase b + 64) (8 * s.imgNent b) = [] &&
  s.core.fld pgNVM NVM_MINVER_MINVER ≤ s.imgVersion b && (!s.imgAuth || (s.imgSigned b && s.keyUsable s.imgKey))

/-- An image is valid (R375). -/
def State.imgValid (s : State) (b : Bool) : Bool :=
  s.imgSound b && (!s.imgAuth || s.flashRead (imgBase b + 16) 8 = s.keyTag s.imgKey (s.imgBody b))

/-- The image that is loaded: the preferred one, else the other, else none (R375). -/
def State.imgPick (s : State) : Option Bool :=
  let p := s.core.flag pgNVM NVM_IMG_PREF
  if s.imgValid p then some p else if s.imgValid !p then some !p else none

/-- The write of an entry: held as an image's where BOOT holds such a write (R376). -/
def State.imageWrite (s : State) (pg off : Nat) (w : Word) : State :=
  if bootHolds pg off w then s.onCore (fun c => { c with hst := { c.hst with held := c.hst.held ++ [⟨.spi, pg, off, w, true⟩] } })
  else s.hostWrite .spi pg off w

/-- One entry: the effect of an SPI single write (R33, R39, R376). -/
def State.applyEntry (s : State) (a : Nat) : State :=
  let off := (s.flashByte a).toNat
  let pg := (s.flashByte (a + 1)).toNat
  if off % 4 ≠ 0 then s.onCore (fun c => c.raise pgHST 2)
  else (s.pageMark pg).imageWrite pg off (s.flashWord (a + 4))

/-- The entries of an image in order. -/
def State.applyImage (s : State) (b : Bool) : State :=
  (List.range (s.imgNent b)).foldl (fun (s : State) j => s.applyEntry (imgBase b + 64 + 8 * j)) s

/-! ## Phase C (R390, R393, R427) -/

/-- The self-test of this BOOT covers a unit: the full one what is not retired, the fast one what serves, and an engine
that awaits its retest (R427, R432). -/
def Core.bistCovers (c : Core) (full : Bool) (kind num : Nat) : Bool :=
  match kind with
  | 0 => num < 10 && c.engSt num ≠ 2 && (full || c.engRail num ≠ 15 || c.engSt num = 3)
  | 1 => num < 9 && !c.rpr.map.wret.getLsbD num && (full || c.windowServes num)
  | 2 => num < 26 && !c.rpr.map.pret.getLsbD num && (full || (c.phasePort num).isSome)
  | 3 => num < 64
  | 4 => num < 512
  | _ => false

/-- Self-test: each unit found failing is mapped out, and an engine whose retest was pending and that passed is in state 1;
a changed map is written (R426, R427, R432). -/
def Core.bootBist (c : Core) (full : Bool) (fails : List (Nat × Nat)) (us : Nat) : Core :=
  let m := c.rpr.map
  let c := (c.setFld pgRPR RPR_BIST_US (min us 65535)).setFld pgRPR RPR_BIST_FULLB (b2n full)
  let c := c.setFld pgRPR RPR_BIST_FAILS 0
  let c := fails.foldl (fun (c : Core) p => if c.bistCovers full p.1 p.2 then c.bistFail true p.1 p.2 else c) c
  let c := (c.modMap (fun m => { m with engSt := m.engSt.map (fun x => if x = 3 then 1 else x) })).syncEngines
  if c.rpr.map = m then c else c.queueMap

/-- The reservation step that BOOT raises the ceilings by: that of SEC_CFG once the image has been applied (log 51). -/
def State.bootStep (s : State) : Nat :=
  match s.imgPick with
  | some b => (s.applyImage b).core.resStep
  | none => s.core.resStep

/-- The control record with the raised ceilings is committed; under a hold, or while its sector waits to be erased, it stays
wanted (R381, R384, R390). -/
def State.bootCtl (s : State) : State :=
  let s := s.onCore (fun c => c.bootCounters s.bootStep)
  if s.core.held || s.core.ctlBusy then s
  else
    let x := { s.core.nvm.next with seq := (s.core.nvm.ctl.seq + 1) % 2 ^ 32 }
    (s.flashWrite (ctlAddr s.core.nvm.ctlSlot) (slotBytes (ctlBody x))).onCore (fun c =>
      { c with nvm := { c.nvm with ctlWant := false } }.commitCtl x)

/-- The end of phase C. -/
def State.bootC (s : State) (fails : List (Nat × Nat)) (us : Nat) : State :=
  ((s.onCore (fun c => c.bootBist s.pw.cold fails us)).bootCtl).phaseEnds

/-! ## Phase D (R103, R375) -/

/-- What NVM_IMG and NVM_VERA, NVM_VERB show of the images; with IMGAUTH each TAG that is checked counts in SEC_CNT.MACS
(R375, R399, log 105). -/
def State.showImages (s : State) : State :=
  let va := s.imgValid false
  let vb := s.imgValid true
  let ver (b : Bool) : Nat := if s.imgMagic b then s.imgVersion b else 0
  s.onCore (fun c =>
    let c := (c.setFld pgNVM NVM_IMG_VALIDA (b2n va)).setFld pgNVM NVM_IMG_VALIDB (b2n vb)
    let c := (c.setFld pgNVM (NVM_VER_VERSION 0) (ver false)).setFld pgNVM (NVM_VER_VERSION 1) (ver true)
    let c := c.setFld pgNVM NVM_IMG_ACTIVE (b2n (s.imgPick = some true))
    let c := [false, true].foldl (fun (c : Core) b => if s.imgAuth && s.imgSound b then c.countMac else c) c
    (c.setFld pgNVM NVM_IMG_NONE (b2n s.imgPick.isNone)).setStat pgNVM 7 s.imgPick.isNone)

/-- The words of an image are read (R371, R375). -/
def State.readImage (s : State) (b : Bool) : State :=
  if s.imgMagic b && s.imgNent b ≤ 1016 then
    (s.reportBad (imgBase b) 24).reportBad (imgBase b + 64) (8 * s.imgNent b)
  else s.reportBad (imgBase b) 24

/-- The images are validated and one is applied; IMGFALL when the preferred one is not valid (R375, R376). -/
def State.loadImage (s : State) : State :=
  let s := (s.readImage false).readImage true
  let p := s.core.flag pgNVM NVM_IMG_PREF
  let ok := s.imgValid p
  let pick := s.imgPick
  let s := s.showImages
  let s := if ok then s else s.onCore (fun c => (c.raise pgNVM 6).send 0x44 (b2n p) 0)
  match pick with
  | some b => s.applyImage b
  | none => s

/-- The slices of the assigned ports are calibrated (R103). -/
def Core.bootCal (c : Core) (means : Vector Int 24) (csref : Vector Bool 3) : Core :=
  (List.range 24).foldl (fun (c : Core) k =>
    if c.portRail k = 0xF then c else c.calResult k (vget means k 0) (vget csref (k / 8) false)) c

/-- The end of phase D. -/
def State.bootD (s : State) (means : Vector Int 24) (csref : Vector Bool 3) : State :=
  (s.loadImage.onCore (fun c => c.bootCal means csref)).phaseEnds

/-! ## Phase E and the end of BOOT -/

/-- Program `p` of the loaded image's set is copied and checked; one that fails sends BKHFAIL with cause 2 (R348, R349). -/
def State.loadProgram (s : State) (p : Nat) : State :=
  let a := setBase (s.core.flag pgNVM NVM_IMG_ACTIVE) + 1024 * p
  let got : Loaded := if s.core.flag pgNVM NVM_IMG_NONE then .absent else s.readProgram a
  let s := if s.core.flag pgNVM NVM_IMG_NONE then s else s.reportBad a (8 + 8 * min 64 (s.flashByte (a + 1)).toNat)
  match got with
  | .absent => if p = 0 then s.onCore (fun c => c.bakeFail 2 0xF 0) else s
  | .bad => s.onCore (fun c => c.bakeFail 2 0xF 0)
  | .steps l => s.onCore (fun c =>
      let c := { c with bkh := { c.bkh with progs := vmod c.bkh.progs p (fun _ => l) } }
      c.setFld pgBKH BKH_LOAD_VALID (c.fld pgBKH BKH_LOAD_VALID + 2 ^ p))

/-- The four programs. -/
def State.loadPrograms (s : State) : State := (List.range 4).foldl State.loadProgram s

/-- The writes of a host to BKH_CTRL that are held, which are applied after UP has started (R355); those of the image come
before it with every other held write (R376). -/
def isBakeWrite (h : HeldWrite) : Bool := h.page = pgBKH && h.off = 0x04 && !h.img

/-- Held writes of one kind carried out, the others kept. -/
def State.applyHeldIf (s : State) (p : HeldWrite → Bool) : State :=
  let l := s.core.hst.held
  (l.filter p).foldl (fun (s : State) h => s.writeNow h.page h.off h.val)
    (s.onCore (fun c => { c with hst := { c.hst with held := l.filter (fun h => !p h) } }))

/-- The condition bits of page DEV at the end of BOOT, and of NVM and BKH (R396, R409, R419, R422); FASTOK is set (R410). -/
def State.bootBits (s : State) : State :=
  let p := s.pw
  let s := s.onCore (fun c =>
    let c := c.raise pgDEV 0
    let c := if p.cold then c.raise pgDEV 1 else c
    let c := if p.wakeFails ≠ p.wakeFailsSeen then c.raise pgDEV 3 else c
    let c := c.setLevel pgDEV 4 p.lastGrave
    let c := if c.flag pgNVM NVM_IMG_NONE then c.raise pgNVM 7 else c
    let c := (c.setFld pgBKH BKH_SUMM_PART 1).setLevel pgBKH 9 true
    { c with rpr := { c.rpr with recalDue := p.cold }, bkh := { c.bkh with scanned := false } })
  { s with pw := { p with wakeFailsSeen := p.wakeFails, lastGrave := false, fastok := true } }

/-- A hold-off of the stored LEVEL begins; it names no item, so its INDEX is free (R394, log 6). -/
def Core.bootHoldoff (c : Core) : Core :=
  if c.fld pgSEC SEC_FAIL_LEVEL = 0 then c
  else
    let p := c.takeWord
    p.2.beginHoldoff (mkAddr 9 p.1.toNat)

/-- The state that R404 names is entered: with the GRAVE latch set GRAVE, its DEVICE action in force again and no program;
else SEQUENCING with UP, and with DEVSAFE risen in BOOT the fault handling then, as where DEVSAFE rises while UP runs (R338,
R348, R355, R356, R404, R417; log 73). -/
def State.enterFromBoot (s : State) : State :=
  let s := s.onCore (fun c => { c with bkh := { c.bkh with outEn := true } })
  if s.pw.grave then
    let src := msgSrc s.pw.graveMsg
    let s := (s.deviceAction src).onCore (fun c => c.setSticky src)
    { s with pw := s.pw.enterGrave }
  else
    let s := s.startUp
    if s.core.flt.dev.held then s.bakeFault else s

/-- The end of BOOT (R412). -/
def State.bootEnd (s : State) (us : Nat) : State :=
  let s := s.loadPrograms.findHead
  let s := s.applyHeldIf (fun h => !isBakeWrite h)
  let s := { s with pw := { s.pw with bootUs := min us 65535 } }
  let s := (s.queueRecord 2 s.pw.cause 0).bootBits.onCore Core.bootHoldoff
  let s := s.phaseEnds.enterFromBoot.applyHeldIf isBakeWrite
  (s.formReport.syncFlt.rest).frameEnd

end Sys2Proof.Machine
end

