-- ==== Sys2Proof/WellFormed.lean ====
section
/-! DEFINITION. The well-formed commands: a register command names a page and an offset that a register address has (R6).
Every other operand is bounded by its type, or has a meaning for every value. -/
namespace Sys2Proof

/-- A page of 8 bits and an offset of 8 bits that is a multiple of 4 (R6). -/
def addrOk (pg off : Nat) : Bool := pg < 256 && off < 256 && off % 4 = 0

/-- A command is well formed. -/
def Instr.wellFormed : Instr → Bool
  | .regWrite _ pg off _ => addrOk pg off
  | .stkyClear pg off _ _ => addrOk pg off
  | .evcClear pg _ => addrOk pg 0
  | .frcForce pg _ => addrOk pg 0
  | .lockWrite pg _ => addrOk pg 0
  | .pageReset pg => addrOk pg 0
  | .regacc _ pg off _ => addrOk pg off
  | _ => true

end Sys2Proof
end

