-- ==== Sys2Proof/Machine/Gates.lean ====
section
/-! DEFINITION. The shapes that the meanings of the commands share: when a command's path runs (R18, R19, R413, R439,
R440), register accesses through a port, and the machine at rest after the change. -/
namespace Sys2Proof.Machine

/-- The result of a command. -/
abbrev Result := Host.Outcome State Fault Refusal

/-- A change of the core over a control path: it acts until every PWM output is in mid in full freeze (R18). -/
def State.control (s : State) (f : Core → Core) : State := if s.controlRuns then (s.onCore f).rest else s

/-- A change of the core over a protection path, or by what no freeze stops: it acts while the core is out of reset (R18). -/
def State.protect (s : State) (f : Core → Core) : State := if s.alive then (s.onCore f).rest else s

/-- A change of the core over a service path: it acts after BOOT and outside a freeze (R18, R439). -/
def State.service (s : State) (f : Core → Core) : State := if s.serviceRuns then (s.onCore f).rest else s

/-- A frame of VC1 to VC3 comes in: after BOOT, and until full freeze stops every service path for good (R18, R19, R440). -/
def State.ringIn (s : State) (f : Core → Core) : State := if s.booted && s.core.rpr.depth ≠ 2 then (s.onCore f).rest else s

/-- The port carries register accesses: SMBus after BOOT and outside a freeze, SPI and JTAG from the end of phase A until
full freeze (R413, R439). -/
def State.portOpen (s : State) (p : HostPort) : Bool := if p = .smb then s.smbOpen else s.regOpen

/-- What a port reports of an access to a page that is not implemented (R33). -/
def State.portMark (s : State) (p : HostPort) (pg : Nat) : State :=
  match p with
  | .spi => s.pageMark pg
  | .smb => if (kindOf pg).isNone then s.onCore (fun c => c.setCml 6) else s
  | .jtag => s

/-- A register write through a port. -/
def State.portWrite (s : State) (p : HostPort) (pg off : Nat) (w : Word) : State :=
  if s.portOpen p then ((s.portMark p pg).hostWrite p pg off w).frameEnd else s

/-- A word that a port returned. -/
def Core.answer (c : Core) (p : HostPort) (w : Word) : Core :=
  match p with
  | .spi => { c with hst := { c.hst with miso := wordBytes w } }
  | .smb => c.smbAnswer (4#8 :: wordBytes w) true
  | .jtag => { c with hst := { c.hst with jtag := wordBytes w ++ [1] } }

/-- A complete register read through a port, with its side effect (R35). -/
def State.portRead (s : State) (p : HostPort) (pg off : Nat) : State :=
  if s.portOpen p then
    let r := (s.portMark p pg).readReg p pg off
    r.2.onCore (fun c => c.answer p r.1)
  else s

/-- PRST written to the CTRL register of a page (R25). -/
def State.prst (s : State) (pg : Nat) : State := s.regWrite pg 0x04 0x80000000

end Sys2Proof.Machine
end

