-- ==== Sys2Proof/Machine/Clock.lean ====
section
/-! DEFINITION. What passes with time when no command waits: one period of 2.5 ns of device time (R14), with the blankings
that are counted in periods (R233, R271). Every other time-driven event is a command of its own (log 2). -/
namespace Sys2Proof.Machine

/-- A period of the blanking of a channel's current limit; the limit acts once it has ended (R271). -/
def Core.xTick (c : Core) (n : Nat) : Core := (c.modXch n (fun x => { x with blank := x.blank - 1 })).xCut n

/-- One period of device time. -/
def Core.tick (c : Core) : Core :=
  let c := { c with wraps := if c.time + 1 = 0 then c.wraps + 1 else c.wraps }
  let c := { c with time := c.time + 1, guards := c.guards.map (fun g => { g with blankLeft := g.blankLeft - 1 }) }
  (List.range 4).foldl Core.xTick c

/-- The block with no command waiting: device time runs while the core does. -/
def State.idle (s : State) : State := if s.alive then (s.onCore Core.tick).rest else s

end Sys2Proof.Machine
end

