-- ==== Sys2Proof/Machine/BusCommands.lean ====
section
/-! DEFINITION. The meanings of the voltage commands' events on the I3C buses, of the items' opcodes and of Lenulink
(R135 to R219). -/
namespace Sys2Proof.Machine

/-! ## The I3C buses (R136 to R145, R451) -/

/-- I3C_BUS_UP: EN is 1, and the bus comes up with the targets that answer (R137). -/
def execI3cBusUp (b : Fin 2) (targets : List Target) (s : State) : Result :=
  .next (s.service (fun c => if c.flag pgHST (HST_I3CCFG_EN b) then c.busUp b targets else c))

/-- I3C_BUS_DISABLE (R451). -/
def execI3cBusDisable (b : Fin 2) (s : State) : Result := .next (s.fieldWrite pgHST (HST_I3CCFG_EN b) 0)

/-- I3C_BUS_RESET, up to the new bring-up (R140). -/
def execI3cBusReset (b : Fin 2) (s : State) : Result := .next (s.fieldWrite pgHST (HST_I3CCTL_BUSRST b) 1)

/-- I3C_DAA on a bus that is up; in BOOT and in a freeze the write is held (R140, R376, R439). -/
def execI3cDaa (b : Fin 2) (targets : List Target) (s : State) : Result :=
  .next (
    if s.serviceRuns then (s.onCore (fun c => c.runDaa b targets)).rest
    else s.fieldWrite pgHST (HST_I3CCTL_DAA b) 1)

/-- I3C_HOT_JOIN (R141). -/
def execI3cHotJoin (b : Fin 2) (targets : List Target) (s : State) : Result := .next (s.service (fun c => c.hotJoin b targets))

/-- I3C_IBI (R142). -/
def execI3cIbi (b : Fin 2) (da : Nat) (mdb : Byte) (s : State) : Result := .next (s.service (fun c => c.inBand b da mdb))

/-- ITEM_READ (R143). -/
def execItemRead (b : Fin 2) (s : State) : Result := .next (s.service (fun c => c.itemRead b))

/-- ITEM_RECEIVED: the bytes returned, or none for a NACK. A read in progress ends in observe freeze as well (R19, R144). -/
def execItemReceived (b : Fin 2) (reply : Option (List Byte)) (s : State) : Result :=
  .next (if s.booted && !s.core.rpr.halted then (s.itemReceived b reply).rest else s)

/-- ITEM_READ_RETRY (R144). -/
def execItemReadRetry (b : Fin 2) (s : State) : Result := .next (s.service (fun c => c.itemReadRetry b))

/-! ## Items (R148, R152 to R159, R132) -/

/-- NOP. -/
def execNop (t : Fin 128) (s : State) : Result := .next (s.service (fun c => c.applyNow t 0x00))

/-- VSET. -/
def execVset (t : Fin 128) (s : State) : Result := .next (s.service (fun c => c.applyVolt t 0x01))

/-- VREL. -/
def execVrel (t : Fin 128) (s : State) : Result := .next (s.service (fun c => c.applyVolt t 0x02))

/-- PHREQ. -/
def execPhreq (t : Fin 128) (s : State) : Result := .next (s.service (fun c => c.applyPhreq t))

/-- VQUERY. -/
def execVquery (t : Fin 128) (s : State) : Result := .next (s.service (fun c => c.applyNow t 0x04))

/-- TLMRD. -/
def execTlmrd (t : Fin 128) (s : State) : Result := .next (s.service (fun c => c.applyNow t 0x05))

/-- VSETA. -/
def execVseta (t : Fin 128) (s : State) : Result := .next (s.service (fun c => c.applyVolt t 0x11))

/-- AUWR. -/
def execAuwr (t : Fin 128) (s : State) : Result := .next (if s.serviceRuns then (s.applyAuwr t).rest else s)

/-! ## Records, polls and flushes (R162 to R170) -/

/-- RECORD_WRITE: the first attempt (R162). -/
def execRecordWrite (b : Fin 2) (ack : Bool) (s : State) : Result :=
  .next (if s.serviceRuns then (s.recordWrite b true ack).rest else s)

/-- RECORD_RETRY (R164). -/
def execRecordRetry (b : Fin 2) (ack : Bool) (s : State) : Result :=
  .next (if s.serviceRuns then (s.recordWrite b false ack).rest else s)

/-- GETSTATUS_POLL: the status that answered, or none for a NACK (R165). -/
def execGetstatusPoll (b : Fin 2) (da : Nat) (reply : Option Word) (s : State) : Result :=
  .next (s.service (fun c => c.poll b da reply false))

/-- GETSTATUS_RETRY (R165). -/
def execGetstatusRetry (b : Fin 2) (da : Nat) (reply : Option Word) (s : State) : Result :=
  .next (s.service (fun c => c.poll b da reply true))

/-- OVF_VOTE_EXPIRE (R154). -/
def execOvfVoteExpire (n : Fin 8) (s : State) : Result := .next (s.service (fun c => c.ovfExpire n))

/-- CMD_FLUSH (R169). -/
def execCmdFlush (ctx : Nat) (s : State) : Result := .next (s.regWrite pgCMD 0x28 (BitVec.ofNat 32 (ctx % 128 + 256)))

/-- FLUSHALL (R169). -/
def execFlushall (s : State) : Result := .next (s.fieldWrite pgCMD CMD_CTRL_FLUSHALL 1)

/-- ORP_POP (R167). -/
def execOrpPop (s : State) : Result := .next (s.fieldWrite pgORP ORP_POP_POP 1)

/-! ## Lenulink (R183 to R219) -/

/-- LNK_ENABLE (R196). -/
def execLnkEnable (en : Bool) (s : State) : Result := .next (s.fieldWrite pgLNK LNK_CTRL_EN (b2n en))

/-- LNK_INPUT_LOCK (R196). -/
def execLnkInputLock (s : State) : Result := .next (s.control Core.inputLock)

/-- RING_OPEN (R196). -/
def execRingOpen (s : State) : Result := .next (s.fieldWrite pgLNK LNK_CTRL_OPEN 1)

/-- ENUM_FRAME: `own` marks a frame that this device sent (R196). -/
def execEnumFrame (h : FrameHead) (id : Nat) (own : Bool) (s : State) : Result := .next (s.ringIn (fun c => c.rxEnum h id own))

/-- RING_MEASURE_DONE: this device's own measurement, or the results of another on their way to the master (R196, R200). -/
def execRingMeasureDone (h : Option FrameHead) (id fwd : Nat) (chofs : Int) (rtt : Nat) (s : State) : Result :=
  .next (s.ringIn (fun c => c.measureDone h id fwd chofs rtt))

/-- SLOTMAP_FRAME: `bound` names the ports whose lenders then answer rightly, by rail, device and port (R201). -/
def execSlotmapFrame (h : FrameHead) (ndev : Nat) (map : List Nat) (hops : List (Nat × Nat)) (bound : List (Nat × Nat × Nat))
    (s : State) : Result :=
  .next (s.ringIn (fun c => c.rxMsg h (.slotMap ndev map hops) bound))

/-- BIND_CHECK_FRAME (R201). -/
def execBindCheckFrame (h : FrameHead) (port orail : Nat) (confirm : Bool) (s : State) : Result :=
  .next (s.ringIn (fun c => c.rxMsg h (.bindCheck port orail confirm) []))

/-- CASCADE_CHECK_ANSWER (R196). -/
def execCascadeCheckAnswer (h : FrameHead) (id : Nat) (busy : Bool) (s : State) : Result :=
  .next (s.ringIn (fun c => c.rxMsg h (.answer id busy) []))

/-- OPEN_FRAME (R196, R198). -/
def execOpenFrame (h : FrameHead) (refused : Bool) (s : State) : Result :=
  .next (s.ringIn (fun c => c.rxMsg h (.opened refused) []))

/-- CREDIT_FRAME (R194). -/
def execCreditFrame (h : FrameHead) (vc cls count : Nat) (s : State) : Result :=
  .next (s.control (fun c => c.rxCredit h vc cls count))

/-- F_LANE_SLOT (R187). -/
def execFLaneSlot (prim chord : Option Nat) (s : State) : Result := .next (s.control (fun c => c.idleSlot prim chord))

/-- TOKEN_DISPATCH (R203). -/
def execTokenDispatch (n : Fin 8) (s : State) : Result := .next (s.control (fun c => c.dispatch n))

/-- TOKEN (R190). -/
def execToken (devid rail port : Nat) (primBad chordBad : Bool) (age : Option Nat) (s : State) : Result :=
  .next (s.control (fun c => c.token devid rail port primBad chordBad age (c.stat pgFLT 3 || s.pw.grave)))

/-- PRELOAD (R204). -/
def execPreload (h : FrameHead) (port ton : Nat) (s : State) : Result :=
  .next (s.control (fun c => c.rxVC0 h 1 port (ton % 2 ^ 18) (fun c => c.takePreload port ton)))

/-- P0 to P2 of a summary (R192). -/
def summaryWord (src : Nat) (isamp : Int) (age : Nat) : Nat := src + 2 ^ 8 * (ofSigned 12 isamp + 2 ^ 12 * age)

/-- FIRED (R205). -/
def execFired (h : FrameHead) (src port : Nat) (isamp : Int) (age late : Nat) (s : State) : Result :=
  .next (s.control (fun c => c.rxVC0 h 2 port (summaryWord src isamp age) (fun c => c.summary true src port isamp age late)))

/-- MISSED (R205). -/
def execMissed (h : FrameHead) (src port : Nat) (isamp : Int) (age late : Nat) (s : State) : Result :=
  .next (s.control (fun c => c.rxVC0 h 3 port (summaryWord src isamp age) (fun c => c.summary false src port isamp age late)))

/-- HELD (R205). -/
def execHeld (h : FrameHead) (src port : Nat) (isamp : Int) (age late : Nat) (s : State) : Result :=
  .next (s.control (fun c => c.rxVC0 h 4 port (summaryWord src isamp age) (fun c => c.summary false src port isamp age late)))

/-- MID (R192). -/
def execMid (h : FrameHead) (port : Nat) (s : State) : Result :=
  .next (s.control (fun c => c.rxVC0 h 5 port 0 (fun c => c.takeMid port)))

/-- ID_REQUEST_FRAME (R206). -/
def execIdRequestFrame (h : FrameHead) (port : Nat) (ask : Option (Nat × Nat × Nat)) (s : State) : Result :=
  .next (s.ringIn (fun c => c.rxMsg h (.idRequest port ask) []))

/-- ID_RESULT_FRAME: the slope in A/µs as a quotient (R206). -/
def execIdResultFrame (h : FrameHead) (port : Nat) (num : Int) (den : Nat) (s : State) : Result :=
  .next (s.ringIn (fun c => c.rxMsg h (.idResult port num den) []))

/-- FAULT_RELAY_FRAME (R207). -/
def execFaultRelayFrame (h : FrameHead) (group : Nat) (tripped : Bool) (s : State) : Result :=
  .next (s.ringIn (fun c => c.rxMsg h (.faultRelay group tripped) []))

/-- LENDTMO (R207). -/
def execLendtmo (k : Fin 24) (us : Nat) (s : State) : Result := .next (s.control (fun c => c.lendTimeout k us))

/-- PRIMARY_LOSS (R213). -/
def execPrimaryLoss (s : State) : Result := .next (s.control Core.primaryLoss)

/-- ABSENT_NOTICE (R213). -/
def execAbsentNotice (h : FrameHead) (id : Nat) (s : State) : Result :=
  .next (s.ringIn (fun c => c.rxMsg h (.absent id) []))

/-- PRIMARY_RETURN (R216). -/
def execPrimaryReturn (s : State) : Result := .next (s.control Core.primaryReturn)

/-- RING_BREAK (R217). -/
def execRingBreak (s : State) : Result := .next (s.control Core.ringBreak)

/-- BREAK_NOTICE (R217). -/
def execBreakNotice (h : FrameHead) (id : Nat) (s : State) : Result :=
  .next (s.ringIn (fun c => c.rxMsg h (.broken id) []))

end Sys2Proof.Machine
end

