-- ==== Sys2Proof/Machine/HostCommands.lean ====
section
/-! DEFINITION. The meanings of the host commands: register writes, page heads and page resets, SPI frames, SMBus and the
PMBus subset, and the reads with a side effect. -/
namespace Sys2Proof.Machine

/-! ## Register writes and page heads (R7 to R10, R25 to R29) -/

/-- REG_WRITE. -/
def execRegWrite (p : HostPort) (pg off : Nat) (v : Word) (s : State) : Result :=
  if addrOk pg off then .next (s.portWrite p pg off v) else .fault .illFormed

/-- STKY_CLEAR: bits of a W1C register written with 1, the STKY register of a page head, a sticky word of page FLT or
another; `coinc` marks the bits whose condition is set at the same instant (R8, R26, R27, R337). -/
def execStkyClear (pg off : Nat) (mask coinc : Word) (s : State) : Result :=
  if !addrOk pg off then .fault .illFormed
  else .next (if s.regOpen && (kindOf pg).isSome then (s.clearBits pg off mask coinc).rest else s)

/-- EVC_CLEAR: `incs` increments fall at the same instant (R27). BOOT holds the write (R376). -/
def execEvcClear (pg incs : Nat) (s : State) : Result :=
  if !addrOk pg 0 then .fault .illFormed
  else .next (
    if s.regOpen && (kindOf pg).isSome && s.booted then (s.onCore (fun c => c.clearEvc pg incs)).rest
    else s.regWrite pg 0x1C 0x80000000)

/-- FRC_FORCE (R28). -/
def execFrcForce (pg : Nat) (mask : Word) (s : State) : Result :=
  if addrOk pg 0 then .next (s.regWrite pg 0x14 mask) else .fault .illFormed

/-- LOCK_WRITE (R29). -/
def execLockWrite (pg : Nat) (v : Word) (s : State) : Result :=
  if addrOk pg 0 then .next (s.regWrite pg 0x18 v) else .fault .illFormed

/-- PAGE_RESET (R25). -/
def execPageReset (pg : Nat) (s : State) : Result :=
  if addrOk pg 0 then .next (s.prst pg) else .fault .illFormed

/-- RAIL_PAGE_RESET (R92). -/
def execRailPageReset (n : Fin 8) (s : State) : Result := .next (s.prst (pgV n))

/-- HST_PAGE_RESET (R62). -/
def execHstPageReset (s : State) : Result := .next (s.prst pgHST)

/-- CMD_ENGINE_RESET (R170). -/
def execCmdEngineReset (s : State) : Result := .next (s.prst pgCMD)

/-- CMP_PAGE_RESET (R256). -/
def execCmpPageReset (s : State) : Result := .next (s.prst pgCMP)

/-- TRP_PAGE_RESET (R258). -/
def execTrpPageReset (s : State) : Result := .next (s.prst pgTRP)

/-- TLM_PAGE_RESET (R308). -/
def execTlmPageReset (s : State) : Result := .next (s.prst pgTLM)

/-- CRB_PAGE_RESET (R300). -/
def execCrbPageReset (s : State) : Result := .next (s.prst pgCRB)

/-- THM_PAGE_RESET (R314). -/
def execThmPageReset (s : State) : Result := .next (s.prst pgTHM)

/-- FLT_PAGE_RESET (R342). -/
def execFltPageReset (s : State) : Result := .next (s.prst pgFLT)

/-! ## SPI (R36 to R45) -/

/-- SPI_READ_SINGLE (R43). -/
def execSpiReadSingle (cmd pg off hcrc : Byte) (waits : Nat) (s : State) : Result := .next (s.spiRead 0 cmd pg off hcrc waits)

/-- SPI_READ_BURST (R43). -/
def execSpiReadBurst (cmd pg off hcrc : Byte) (waits : Nat) (s : State) : Result := .next (s.spiRead 1 cmd pg off hcrc waits)

/-- SPI_READ_STREAM (R44). -/
def execSpiReadStream (cmd pg off hcrc : Byte) (waits : Nat) (s : State) : Result := .next (s.spiStream cmd pg off hcrc waits)

/-- SPI_WRITE_SINGLE (R41). -/
def execSpiWriteSingle (cmd pg off hcrc : Byte) (data : List Byte) (dcrc : Byte) (s : State) : Result :=
  .next (s.spiWrite 0 cmd pg off hcrc data dcrc)

/-- SPI_WRITE_BURST (R41). -/
def execSpiWriteBurst (cmd pg off hcrc : Byte) (data : List Byte) (dcrc : Byte) (s : State) : Result :=
  .next (s.spiWrite 1 cmd pg off hcrc data dcrc)

/-- SPI_FRAME_ABORT (R42). -/
def execSpiFrameAbort (hdr : List Byte) (words : Nat) (dcrcBad : Bool) (s : State) : Result := .next (s.spiAbort hdr words dcrcBad)

/-- SPI_STREAM_SLOT_FILL (R45). -/
def execSpiStreamSlotFill (waits : Nat) (s : State) : Result := .next (s.slotFill waits)

/-- SPI_STRABN (R45). -/
def execSpiStrabn (s : State) : Result := .next s.slotAbandon

/-! ## SMBus (R49, R51) -/

/-- SMB_TIMEOUT (R49). -/
def execSmbTimeout (s : State) : Result := .next (if s.smbOpen then (s.onCore Core.smbTimeout).rest else s)

/-- SMB_ALERT_RESPONSE (R51). -/
def execSmbAlertResponse (won pec : Bool) (s : State) : Result := .next (s.alertResponse won pec)

/-- PMBUS_UNSUPPORTED (R57). -/
def execPmbusUnsupported (code : Byte) (rd : Option Nat) (s : State) : Result := .next (s.unsupported code rd)

/-! ## PMBus commands (R52 to R60, R63, R343, R366) -/

/-- PAGE. -/
def execPage (op : PmOp) (s : State) : Result := .next (s.pmPageCmd op)

/-- OPERATION 0x80, its read, and a code that OPERATION does not accept. -/
def execOperationOn (op : PmOp) (s : State) : Result := .next (s.operationOn op)

/-- OPERATION 0x40. -/
def execOperationSoftOff (pec : Pec) (s : State) : Result := .next (s.operationOff true pec)

/-- OPERATION 0x00. -/
def execOperationImmediateOff (pec : Pec) (s : State) : Result := .next (s.operationOff false pec)

/-- ON_OFF_CONFIG: fixed 0x18. -/
def execOnOffConfig (op : PmOp) (s : State) : Result := .next (s.railRo 0x02 op 1 (fun _ => [0x18#8]))

/-- CLEAR_FAULTS. -/
def execClearFaults (pec : Pec) (s : State) : Result :=
  .next (s.smbWrite .other pec (fun s => s.onCore (fun c => c.clearFaults c.pmRails)))

/-- WRITE_PROTECT. -/
def execWriteProtect (op : PmOp) (s : State) : Result := .next (s.writeProtect op)

/-- CAPABILITY: fixed 0xD0. -/
def execCapability (op : PmOp) (s : State) : Result := .next (s.devRo 0x19 op (fun _ => [0xD0#8]))

/-- VOUT_MODE: fixed 0x40. -/
def execVoutMode (op : PmOp) (s : State) : Result := .next (s.railRo 0x20 op 1 (fun _ => [0x40#8]))

/-- VOUT_COMMAND. -/
def execVoutCommand (op : PmOp) (s : State) : Result := .next (s.voutCommand op)

/-- VOUT_MAX. -/
def execVoutMax (op : PmOp) (s : State) : Result := .next (s.voutMax op)

/-- VOUT_TRANSITION_RATE. -/
def execVoutTransitionRate (op : PmOp) (s : State) : Result := .next (s.voutRate op)

/-- COEFFICIENTS. -/
def execCoefficients (code rw : Byte) (pec : Bool) (s : State) : Result := .next (s.coefficients code rw pec)

/-- VOUT_OV_FAULT_LIMIT. -/
def execVoutOvFaultLimit (op : PmOp) (s : State) : Result := .next (s.voutLimit op true)

/-- VOUT_UV_FAULT_LIMIT. -/
def execVoutUvFaultLimit (op : PmOp) (s : State) : Result := .next (s.voutLimit op false)

/-- IOUT_OC_FAULT_LIMIT. -/
def execIoutOcFaultLimit (op : PmOp) (s : State) : Result := .next (s.ioutLimit op)

/-- OT_FAULT_LIMIT. -/
def execOtFaultLimit (op : PmOp) (s : State) : Result := .next (s.otLimit op)

/-- VIN_OV_FAULT_LIMIT. -/
def execVinOvFaultLimit (op : PmOp) (s : State) : Result := .next (s.vinLimit op true)

/-- VIN_UV_FAULT_LIMIT. -/
def execVinUvFaultLimit (op : PmOp) (s : State) : Result := .next (s.vinLimit op false)

/-- STATUS_BYTE. -/
def execStatusByte (op : PmOp) (s : State) : Result := .next (s.railRo 0x78 op 1 (fun n => [BitVec.ofNat 8 (s.core.statusByte n)]))

/-- STATUS_WORD. -/
def execStatusWord (op : PmOp) (s : State) : Result := .next (s.railRo 0x79 op 2 (fun n => word2 (s.core.statusWord n)))

/-- STATUS_VOUT. -/
def execStatusVout (op : PmOp) (s : State) : Result := .next (s.railRo 0x7A op 1 (fun n => [BitVec.ofNat 8 (s.core.statusVout n)]))

/-- STATUS_IOUT. -/
def execStatusIout (op : PmOp) (s : State) : Result := .next (s.railRo 0x7B op 1 (fun n => [BitVec.ofNat 8 (s.core.statusIout n)]))

/-- STATUS_INPUT. -/
def execStatusInput (op : PmOp) (s : State) : Result := .next (s.railRo 0x7C op 1 (fun n => [BitVec.ofNat 8 (s.core.statusInput n)]))

/-- STATUS_TEMPERATURE. -/
def execStatusTemperature (op : PmOp) (s : State) : Result := .next (s.railRo 0x7D op 1 (fun n => [BitVec.ofNat 8 (s.core.statusTemp n)]))

/-- STATUS_CML. -/
def execStatusCml (op : PmOp) (s : State) : Result :=
  .next (s.devRo 0x7E op (fun s => [BitVec.ofNat 8 (s.core.fld pgHST HST_CML_CML)]))

/-- READ_VIN. -/
def execReadVin (op : PmOp) (s : State) : Result :=
  .next (s.railRo 0x88 op 2 (fun n => s.core.readLin (0x50 + s.core.vinsel n) 2000 (-8)))

/-- READ_IIN. -/
def execReadIin (op : PmOp) (s : State) : Result :=
  .next (s.railRo 0x89 op 2 (fun n => s.core.readLin (0x52 + s.core.vinsel n) 64 (-6)))

/-- READ_VOUT. -/
def execReadVout (op : PmOp) (s : State) : Result := .next (s.railRo 0x8B op 2 (fun n => s.core.readVout n))

/-- READ_IOUT. -/
def execReadIout (op : PmOp) (s : State) : Result := .next (s.railRo 0x8C op 2 (fun n => s.core.readLin (8 + n) 64 (-6)))

/-- READ_TEMPERATURE_1. -/
def execReadTemperature1 (op : PmOp) (s : State) : Result := .next (s.railRo 0x8D op 2 (fun n => s.core.readLin (0x18 + n) 16 (-2)))

/-- READ_TEMPERATURE_2. -/
def execReadTemperature2 (op : PmOp) (s : State) : Result :=
  .next (s.devRo 0x8E op (fun s => word2 (lin11 ((s.core.sfld pgTHM THM_TJ_TJ : Rat) / 16) (-2))))

/-- READ_POUT. -/
def execReadPout (op : PmOp) (s : State) : Result := .next (s.railRo 0x96 op 2 (fun n => s.core.readLin (0x10 + n) 64 (-3)))

/-- PMBUS_REVISION: fixed 0x44. -/
def execPmbusRevision (op : PmOp) (s : State) : Result := .next (s.devRo 0x98 op (fun _ => [0x44#8]))

/-- MFR_ID: "OLMW". -/
def execMfrId (op : PmOp) (s : State) : Result := .next (s.devRo 0x99 op (fun _ => asciiBlock [0x4F, 0x4C, 0x4D, 0x57]))

/-- MFR_MODEL: "VYH2408". -/
def execMfrModel (op : PmOp) (s : State) : Result :=
  .next (s.devRo 0x9A op (fun _ => asciiBlock [0x56, 0x59, 0x48, 0x32, 0x34, 0x30, 0x38]))

/-- MFR_REVISION: "B1". -/
def execMfrRevision (op : PmOp) (s : State) : Result := .next (s.devRo 0x9B op (fun _ => asciiBlock [0x42, 0x31]))

/-- MFR_WINDOW_ADDR. -/
def execMfrWindowAddr (op : PmOp) (s : State) : Result := .next (s.windowAddr op)

/-- MFR_WINDOW_DATA. -/
def execMfrWindowData (op : PmOp) (s : State) : Result := .next (s.window op false)

/-- MFR_WINDOW_DATA_INC. -/
def execMfrWindowDataInc (op : PmOp) (s : State) : Result := .next (s.window op true)

/-- MFR_FLEET_REPORT. -/
def execMfrFleetReport (op : PmOp) (s : State) : Result := .next (s.fleetReport op)

/-! ## Reads with a side effect (R35) -/

/-- WINMON_READ (R98). -/
def execWinmonRead (n : Fin 8) (s : State) : Result := .next (s.portRead .spi (pgV n) 0x54)

/-- EN_LAT_READ (R81). -/
def execEnLatRead (j : Fin 10) (s : State) : Result := .next (s.portRead .spi (pgE j) 0x24)

/-- CMD_TAGS_READ (R179). -/
def execCmdTagsRead (s : State) : Result := .next (s.portRead .spi pgCMD 0x2C)

/-- FLT_LATCH_READ (R345). -/
def execFltLatchRead (s : State) : Result := .next (s.portRead .spi pgFLT 0x88)

/-- DEV_TIMEL_READ (R423). -/
def execDevTimelRead (s : State) : Result := .next (s.portRead .spi pgDEV 0x30)

/-- TLM_PKR_READ (R289). -/
def execTlmPkrRead (s : State) : Result := .next (s.portRead .spi pgTLM 0x34)

/-- CRB_DATA_READ (R296). -/
def execCrbDataRead (p : HostPort) (s : State) : Result := .next (s.portRead p pgCRB 0x24)

/-- CRB_RDATA_READ (R305). -/
def execCrbRdataRead (p : HostPort) (s : State) : Result := .next (s.portRead p pgCRB 0x3C)

/-- RACKDATA_READ (R445). -/
def execRackdataRead (s : State) : Result := .next (s.portRead .spi pgRPR 0x50)

end Sys2Proof.Machine
end

