-- ==== Sys2Proof/Machine/MonitorCommands.lean ====
section
/-! DEFINITION. The meanings of telemetry's, the crumb stream's, the housekeeping round's and the fault collector's
commands (R281 to R347). -/
namespace Sys2Proof.Machine

/-! ## Telemetry (R281 to R289) -/

/-- TLM_BASE_SAMPLE: the sums of the four conversions on each bus, none for an interval without them; the input-sense converters
start at the end of phase A (R281, R282). -/
def execTlmBaseSample (vin : Option (Vector Nat 2)) (s : State) : Result :=
  .next (s.control (fun c => c.baseSample (if s.thmRuns then vin else none) s.booted))

/-- TLM_SWAP (R286). -/
def execTlmSwap (s : State) : Result := .next (s.fieldWrite pgTLM TLM_CTRL_SWAP 1)

/-- PKCALL (R289). -/
def execPkcall (s : State) : Result := .next (s.fieldWrite pgTLM TLM_CTRL_PKCALL 1)

/-- TLM_PEAK_CLEAR (R289). -/
def execTlmPeakClear (s : State) : Result := .next (s.fieldWrite pgTLM TLM_PKCTL_CLR 1)

/-! ## The crumb stream (R290 to R310) -/

/-- CRUMB_MERGE (R290). -/
def execCrumbMerge (s : State) : Result := .next (s.service Core.mergeNext)

/-- PACK_TIMEOUT (R294). -/
def execPackTimeout (us : Nat) (s : State) : Result := .next (s.service (fun c => c.packTimeout us))

/-- The word of a stream slot of CRB_DATA that has sent 0xA5 and not its fourth byte as a flush comes: the slot delivers it
whole and pops nothing (R299). -/
def State.flushSlot (s : State) : State :=
  match s.core.hst.stream with
  | none => s
  | some x =>
    if x.page = pgCRB && x.off = 0x24 && s.core.streamPort x.page x.off = some true then
      let out := s.core.hst.miso ++ [0xA5#8] ++ wordBytes s.core.crumbHead
      if x.left ≤ 1 then (s.spiEnd (out ++ [crc8 (fromStatus out)]) false).frameEnd
      else s.onCore (fun c => { c with hst := { c.hst with miso := out, stream := some ⟨x.page, x.off, x.left - 1⟩ } })
    else s

/-- The word that is pushed at the instant of a flush: the open word, when the packer closes it then and it carries no byte of
the crumb that the flush cuts (R299). -/
def Core.pushedAtFlush (c : Core) : Option Word :=
  if c.crb.openw = [] || c.crb.closing || c.flushCuts then none else some (packWord c.crb.openw)

/-- CRB_FLUSH (R298), at the instant of a push, of a stream slot under way, or of neither (R299). In BOOT and in a freeze the
write is held, and the packer and the slots stand still (R300, R439). -/
def execCrbFlush (push slot : Bool) (s : State) : Result :=
  .next (
    let w := if push && s.serviceRuns then s.core.pushedAtFlush else none
    let s := if slot && s.serviceRuns then s.flushSlot else s
    let s := s.fieldWrite pgCRB CRB_CTRL_FLUSH 1
    match w with
    | some v => (s.onCore (fun c => (c.pushWord v).judgeLevel 0)).rest
    | none => s)

/-- CRB_RSEL_WRITE (R305). -/
def execCrbRselWrite (v : Word) (s : State) : Result := .next (s.regWrite pgCRB 0x38 v)

/-- REQ, with RP and FP as they stand on the wire (R302, R303). -/
def execReq (h : FrameHead) (rp fp nmax : Nat) (s : State) : Result :=
  .next (s.ringIn (fun c => c.rxMsg h (.crbReq (ofGray rp) (ofGray fp) nmax) []))

/-- SYNC (R303). -/
def execSync (h : FrameHead) (nmax : Nat) (s : State) : Result :=
  .next (s.ringIn (fun c => c.rxMsg h (.crbSync nmax) []))

/-- DATA, with WP and FP as they stand on the wire (R302, R305). -/
def execData (h : FrameHead) (wp fp : Nat) (words : List Word) (s : State) : Result :=
  .next (s.ringIn (fun c => c.rxMsg h (.crbData (ofGray wp) (ofGray fp) words) []))

/-- RESYNC, with WP and RP as they stand on the wire (R302, R305). -/
def execResync (h : FrameHead) (wp rp : Nat) (s : State) : Result :=
  .next (s.ringIn (fun c => c.rxMsg h (.crbResync (ofGray wp) (ofGray rp)) []))

/-- CRB_REQUEST (R305). -/
def execCrbRequest (us : Nat) (s : State) : Result := .next (s.service (fun c => c.drainRequest us))

/-- CRB_REQ_TIMEOUT (R306). -/
def execCrbReqTimeout (us : Nat) (s : State) : Result := .next (s.service (fun c => c.drainTimeout us))

/-! ## The housekeeping round (R311 to R325) -/

/-- HK_ROUND_START (R311). -/
def execHkRoundStart (s : State) : Result :=
  .next (if s.thmRuns && !s.core.thm.active then (s.onCore Core.thmStart).rest else s)

/-- HK_ROUND_END: temperatures in 1/16 °C, TMON in mV, supplies and references as converted; no compensation word
is issued in full freeze (R312, R314). -/
def execHkRoundEnd (temps : Vector Int 6) (tmon : Vector Nat 3) (sup : Vector Nat 5) (refs : Vector Int 4) (s : State) : Result :=
  .next (
    if s.thmRuns && s.core.thm.active then
      (s.onCore (fun c => (c.thmEvaluate (fun i => vget temps i 0) (fun i => vget tmon i 0) (fun i => vget sup i 0)
        (fun i => vget refs i 0) (c.rpr.depth ≠ 2)).tempChannels s.booted)).rest
    else s)

/-- HK_ROUND_ABANDON (R313). -/
def execHkRoundAbandon (s : State) : Result :=
  .next (if s.thmRuns && s.core.thm.active then (s.onCore Core.thmAbandon).rest else s)

/-! ## The fault collector (R328 to R347) -/

/-- FAULT_MESSAGE (R332). -/
def execFaultMessage (s : State) : Result := .next (if s.alive then s.takeMessage.rest else s)

/-- FAULT_RELEASE (R340). -/
def execFaultRelease (v : Word) (s : State) : Result := .next (s.regWrite pgFLT 0x50 v)

/-- CLASS_WRITE (R334). -/
def execClassWrite (i : Fin 12) (v : Word) (s : State) : Result := .next (s.regWrite pgFSV (0x20 + 4 * i) v)

/-- FAULT_FORCE (R341). -/
def execFaultForce (i : Fin 3) (v : Word) (s : State) : Result := .next (s.regWrite pgFSV (0x50 + 4 * i) v)

/-- FLTREG (R339). -/
def execFltreg (s : State) : Result := .next (if s.alive then s.fltReg.rest else s)

end Sys2Proof.Machine
end

