-- ==== Sys2Proof/Machine/PowerCommands.lean ====
section
/-! DEFINITION. The meanings of the supplies', the resets', BOOT's, self-repair's, the freeze's and the test access port's
commands (R400 to R445). -/
namespace Sys2Proof.Machine

/-! ## Supplies and resets (R400 to R418) -/

/-- VKEEP_POWER_ON (R401, R407, R415). -/
def execVkeepPowerOn (s : State) : Result := .next (if s.pw.isGood 4 then s else s.vkeepOn)

/-- VKEEP_LOSS (R401). -/
def execVkeepLoss (s : State) : Result := .next (if s.pw.isGood 4 then s.vkeepLoss else s)

/-- SUPPLY_RISE: 0 VCC33, 1 VDD18, 2 VDDC, 3 VIO (R404). -/
def execSupplyRise (i : Fin 4) (s : State) : Result :=
  .next (if s.pw.isGood i then s else State.suppliesUp { s with pw := s.pw.setGood i true })

/-- SUPPLY_FALL (R402). -/
def execSupplyFall (i : Fin 4) (s : State) : Result := .next (if s.pw.isGood i then s.supplyFall i else s)

/-- WAKING_SUPPLY_GOOD (R404). -/
def execWakingSupplyGood (s : State) : Result := .next s.supplyGood

/-- WAKING_TIMEOUT (R404). -/
def execWakingTimeout (s : State) : Result := .next s.wakeTimeout

/-- RST_N_ASSERT (R416). -/
def execRstNAssert (ns : Nat) (s : State) : Result := .next (s.rstLow ns)

/-- RST_N_RELEASE (R416). -/
def execRstNRelease (s : State) : Result := .next s.rstHigh

/-- SWRST (R416). -/
def execSwrst (s : State) : Result := .next (s.fieldWrite pgDEV DEV_CTRL_SWRST 1)

/-- COLDNEXT (R410). -/
def execColdnext (s : State) : Result := .next (s.fieldWrite pgDEV DEV_CTRL_COLDNEXT 1)

/-! ## BOOT (R412) -/

/-- BOOT_START, with the eight samples of each strap in 1/1,000 of VIO. -/
def execBootStart (a0 a1 : Vector Nat 8) (s : State) : Result := .next (if s.bootReady then (s.bootStart a0 a1).syncFlt else s)

/-- BOOT_PHASE_A_END. -/
def execBootPhaseAEnd (s : State) : Result := .next (if s.inPhase 0 then s.bootA.rest else s)

/-- BOOT_PHASE_B_END. -/
def execBootPhaseBEnd (s : State) : Result := .next (if s.inPhase 1 then s.bootB.rest else s)

/-- BOOT_PHASE_C_END: the units found failing, as kind and number, and the length of the test. -/
def execBootPhaseCEnd (fails : List (Nat × Nat)) (us : Nat) (s : State) : Result :=
  .next (if s.inPhase 2 then (s.bootC fails us).rest else s)

/-- BOOT_PHASE_D_END: the mean of each port's calibration in 1/16 of a code, and whether each CSREFg lies in its range. -/
def execBootPhaseDEnd (means : Vector Int 24) (csref : Vector Bool 3) (s : State) : Result :=
  .next (if s.inPhase 3 then (s.bootD means csref).rest else s)

/-- BOOT_END, with the length of BOOT. -/
def execBootEnd (us : Nat) (s : State) : Result := .next (if s.inPhase 4 then s.bootEnd us else s)

/-! ## Self-repair and maintenance (R424 to R437) -/

/-- The repair block runs: after BOOT and until full freeze. -/
def State.repair (s : State) (f : Core → Core) : State := if s.booted && s.core.rpr.depth ≠ 2 then (s.onCore f).rest else s

/-- SHADOW_REQUEST (R429). -/
def execShadowRequest (n : Fin 8) (ms : Nat) (s : State) : Result := .next (s.repair (fun c => c.shadowRequest n ms))

/-- MAINT_GRANT: a pass of the arbiter over the waiting requests (R437). -/
def execMaintGrant (s : State) : Result := .next (s.service Core.grantAll)

/-- SHADOW_START (R430). -/
def execShadowStart (s : State) : Result := .next (s.repair Core.shadowStart)

/-- SHADOW_PASS (R430). -/
def execShadowPass (s : State) : Result := .next (s.repair Core.shadowPass)

/-- RETEST_DONE (R431, R433). -/
def execRetestDone (unit : Nat) (ok : Bool) (s : State) : Result := .next (s.repair (fun c => c.retestDone unit ok))

/-- BISTBG_RUN (R428). -/
def execBistbgRun (min : Nat) (s : State) : Result := .next (s.repair (fun c => c.backgroundRun min))

/-- BGNOW (R445). -/
def execBgnow (s : State) : Result := .next (s.fieldWrite pgRPR RPR_CTRL_BGNOW 1)

/-- BISTBG_DONE (R428). -/
def execBistbgDone (unit : Nat) (ok : Bool) (s : State) : Result := .next (s.repair (fun c => c.backgroundDone unit ok))

/-- RECAL_REQUEST (R434). -/
def execRecalRequest (secs : Nat) (s : State) : Result := .next (s.repair (fun c => c.recalRequest secs))

/-- RECAL_DONE (R434). -/
def execRecalDone (region : Nat) (fails : List Nat) (s : State) : Result := .next (s.repair (fun c => c.recalDone region fails))

/-- SLCMP_REQUEST (R433). -/
def execSlcmpRequest (s : State) : Result := .next (s.repair Core.compareRequest)

/-- SLCMP_DONE (R433). -/
def execSlcmpDone (inst : Nat) (mism : Bool) (s : State) : Result := .next (s.repair (fun c => c.compareDone inst mism))

/-! ## Freeze (R438 to R442) -/

/-- FRZ_PIN_CHANGE (R438). -/
def execFrzPinChange (level : Bool) (s : State) : Result :=
  let t := s.onCore (fun c => { c with rpr := { c.rpr with pin := level } })
  .next (if s.alive then t.rest else t)

/-- OBS (R438). -/
def execObs (b : Bool) (s : State) : Result := .next (s.fieldWrite pgRPR RPR_FRZ_OBS (b2n b))

/-- FULL (R440). -/
def execFull (s : State) : Result := .next (s.fieldWrite pgRPR RPR_FRZ_FULL 1)

/-- RECAP (R442). -/
def execRecap (s : State) : Result := .next (s.fieldWrite pgRPR RPR_FRZ_RECAP 1)

/-- FREEZE_ALL_MID (R440). -/
def execFreezeAllMid (s : State) : Result := .next (s.protect Core.freezeAllMid)

/-- FREEZE_HALT (R440). -/
def execFreezeHalt (s : State) : Result := .next (if s.alive then s.freezeHalt.rest else s)

/-! ## The test access port (R443) -/

/-- The TAP is usable: from the end of phase A on (R413, R443). -/
def State.tapOpen (s : State) : Bool := s.alive && (1 ≤ s.pw.phase || s.booted)

/-- An instruction is in force, with the data it returns; only EXTEST drives pins. -/
def State.tapLoad (s : State) (code : Nat) (out : List Byte) (f : Rpr → Rpr) : State :=
  if s.tapOpen then
    s.onCore (fun c => { (c.tapIs code) with
      rpr := f { (c.tapIs code).rpr with extest := false }
      hst := { c.hst with jtag := out } })
  else s

/-- An instruction is scanned in, while the register returns its capture value 0b000001. -/
def State.tap (s : State) (code : Nat) (out : List Byte) (f : Rpr → Rpr) : State :=
  let t := s.tapLoad code out f
  if s.tapOpen then t.onCore (fun c => { c with hst := { c.hst with jtagIr := 1 } }) else t

/-- TAP_RESET: IDCODE is selected. -/
def execTapReset (s : State) : Result := .next (s.tapLoad 0x02 [] id)

/-- Boundary-scan cells captured with a scan of `n` bits; the manual gives no order of the cells, so they are free
(log 6). -/
def Core.scanned (c : Core) (n : Nat) : List Bool := (List.range n).map (fun i => Config.freeBool (c.free + i))

/-- Bits as bytes, the first bit lowest. -/
def bitBytes (l : List Bool) : List Byte :=
  (List.range ((l.length + 7) / 8)).map (fun i =>
    BitVec.ofNat 8 ((List.range 8).foldl (fun a j => a + b2n ((l[8 * i + j]?).getD false) * 2 ^ j) 0))

/-- SAMPLE/PRELOAD and EXTEST: the cells are captured, and the bits shifted in are loaded. -/
def State.boundary (s : State) (code : Nat) (bits : List Bool) (drives : Bool) : State :=
  let cells := s.core.scanned bits.length
  let t := s.tap code (bitBytes cells) (fun r => { r with bscan := cells, preload := bits, extest := drives })
  if s.tapOpen then t.onCore (fun c => { c with free := c.free + bits.length }) else t

/-- EXTEST: while it is in force the cells drive the pins in full freeze and in a halted BOOT, as `State.scanDrives` says. -/
def execExtest (bits : List Bool) (s : State) : Result := .next (s.boundary 0x00 bits true)

/-- SAMPLE_PRELOAD. -/
def execSamplePreload (bits : List Bool) (s : State) : Result := .next (s.boundary 0x01 bits false)

/-- IDCODE. -/
def execIdcode (s : State) : Result := .next (s.tap 0x02 (wordBytes 0x124089EF) id)

/-- REGACC: a register access without read side effects; DONE is 0 in full freeze. DATA returned where the manual gives none,
after a write and with DONE 0, is free (log 6). -/
def execRegacc (wr : Bool) (pg off : Nat) (data : Word) (s : State) : Result :=
  if !addrOk pg off then .fault .illFormed
  else
    .next (
      if !s.tapOpen then s
      else if !s.regOpen then
        let p := s.core.takeWord
        { s with core := p.2 }.tap 0x10 (wordBytes p.1 ++ [0]) id
      else if wr then
        let t := s.portWrite .jtag pg off data
        let p := t.core.takeWord
        { t with core := p.2 }.tap 0x10 (wordBytes p.1 ++ [1]) id
      else s.tap 0x10 (wordBytes (s.peek pg off) ++ [1]) id)

/-- FRZ_SCAN: the whole rack, byte 0 first; a rack that holds no capture reads 0 (R442). -/
def execFrzScan (s : State) : Result :=
  .next (s.tap 0x11 ((List.range 1024).flatMap (fun i => wordBytes ((s.core.rpr.rack[i]?).getD 0))) id)

/-- FRZ_READ: the word at the address last updated, then the new address. -/
def execFrzRead (addr : Nat) (s : State) : Result :=
  let a := s.core.rpr.tapAddr
  .next (s.tap 0x12 (wordBytes ((s.core.rpr.rack[a / 4]?).getD 0) ++ toLeBytes 2 a)
    (fun r => { r with tapAddr := addr % 4096 / 4 * 4 }))

/-- The codes that R443 lists for instructions other than BYPASS. -/
def tapListed (code : Nat) : Bool := [0x00, 0x01, 0x02, 0x10, 0x11, 0x12].contains code

/-- BYPASS, by its own code or by any that is not listed: the 1-bit register captures 0. A listed code is another instruction,
whose scan is a command of its own. -/
def execBypass (s : State) (code : Fin 64 := 0x3F) : Result := .next (if tapListed code then s else s.tap code [0#8] id)

end Sys2Proof.Machine
end

