-- ==== Sys2Proof/Machine/ProtectCommands.lean ====
section
/-! DEFINITION. The meanings of the comparators', the trips', the auxiliary channels' and the fan's commands (R220 to
R280). -/
namespace Sys2Proof.Machine

/-! ## Comparators (R220 to R228, R360, R404) -/

/-- The always-on copy of an output of C50 or C51 (R226). -/
def Power.setPico (p : Power) (i : Nat) (hi b : Bool) : Power :=
  if i = 50 then (if hi then { p with hi50 := b } else { p with lo50 := b })
  else (if hi then { p with hi51 := b } else { p with lo51 := b })

/-- A side of C50 or C51 as the always-on domain holds it. -/
def Power.pico (p : Power) (i : Nat) (hi : Bool) : Bool :=
  if i = 50 then (if hi then p.hi50 else p.lo50) else (if hi then p.hi51 else p.lo51)

/-- A side of C50 or C51 becomes `b`, in the always-on domain and in a running core (R226). -/
def State.picoSet (s : State) (i : Nat) (hi b : Bool) : State :=
  let t := { s with pw := s.pw.setPico i hi b }
  if t.alive then t.onCore (fun c => c.cmpChange i hi b) else t.onCore (fun c => c.setOut i hi b)

/-- A side of C50 or C51 changes while VKEEP is good: in a running core it acts as the other comparators do; WAKE rising
is a wake edge, and finds its LO side deasserted; VCC33 rising in PARKED starts the check of the supplies (R226, R360,
R404). -/
def State.picoChange (s : State) (i : Nat) (hi b : Bool) : State :=
  if !s.pw.isGood 4 || s.pw.pico i hi = b then s
  else
    let s := if i = 51 && hi && b && s.pw.lo51 then s.picoSet 51 false false else s
    let s := s.picoSet i hi b
    let s := if i = 51 && hi then
        (if b then s.wakeEdge else s.onCore (fun c => c.setStat pgBKH 7 false))
      else if i = 50 && !hi && !b then s.suppliesUp else s
    if s.alive then s.rest else s

/-- A side of a comparator changes (R220). -/
def State.compare (s : State) (i : Nat) (hi b : Bool) : State :=
  if i = 50 || i = 51 then s.picoChange i hi b
  else s.protect (fun c => if c.cmpMoves i hi b then (c.cmpChange i hi b).xSide i hi b else c)

/-- COMPARATOR_ASSERT (R220). -/
def execComparatorAssert (c : Fin 56) (hi : Bool) (s : State) : Result := .next (s.compare c hi true)

/-- COMPARATOR_DEASSERT (R220). -/
def execComparatorDeassert (c : Fin 56) (hi : Bool) (s : State) : Result := .next (s.compare c hi false)

/-- WAKE_EDGE: the HI side of C51 asserts (R360). -/
def execWakeEdge (s : State) : Result := .next (s.picoChange 51 true true)

/-- CMP_THRESHOLD_WRITE (R224). -/
def execCmpThresholdWrite (i : Fin 28) (v : Word) (s : State) : Result := .next (s.regWrite pgCMP (0x20 + 4 * i) v)

/-- CMP_MODE_WRITE (R223). -/
def execCmpModeWrite (i : Fin 4) (v : Word) (s : State) : Result := .next (s.regWrite pgCMP (0xAC + 4 * i) v)

/-! ## Rail protection and trips (R229 to R250) -/

/-- CROW_CLEAR (R231). -/
def execCrowClear (n : Fin 8) (s : State) : Result := .next (s.regWrite pgTRP 0x0C (BitVec.ofNat 32 (2 ^ (16 + n.val))))

/-- PCLACT_EXPIRE (R233). -/
def execPclactExpire (n : Fin 8) (s : State) : Result := .next (s.protect (fun c => c.pclExpire n))

/-- HICCUP_TRIGGER: limited windows in a row, or the time above ROCLIM (R236). -/
def execHiccupTrigger (n : Fin 8) (byRoc : Bool) (count : Nat) (s : State) : Result :=
  .next (s.protect (fun c => c.hiccup n byRoc count))

/-- HICCUP_RESTART (R237). -/
def execHiccupRestart (n : Fin 8) (s : State) : Result := .next (s.control (fun c => c.hiccupRestart n))

/-- HICCUP_COUNT_CLEAR (R237). -/
def execHiccupCountClear (n : Fin 8) (s : State) : Result := .next (s.control (fun c => c.hiccupClear n))

/-- UV_ARM (R239). -/
def execUvArm (n : Fin 8) (s : State) : Result := .next (s.protect (fun c => c.uvArm n))

/-- UV_FAULT (R239). -/
def execUvFault (n : Fin 8) (s : State) : Result := .next (s.protect (fun c => c.uvFault n))

/-- TRIP_LINE_ACTIVE (R246). -/
def execTripLineActive (l : Nat) (s : State) : Result := .next (s.protect (fun c => c.setLine l true))

/-- TRIP_LINE_INACTIVE (R246). -/
def execTripLineInactive (l : Nat) (s : State) : Result := .next (s.protect (fun c => c.setLine l false))

/-- TRIP_CLEAR (R250). -/
def execTripClear (g : Fin 12) (s : State) : Result := .next (s.regWrite pgTRP 0x0C (BitVec.ofNat 32 (2 ^ g.val)))

/-! ## Auxiliary channels and fan (R259 to R280) -/

/-- AUX_ENABLE (R266). -/
def execAuxEnable (n : Fin 4) (s : State) : Result := .next (s.fieldWrite pgAUX (AUX_CTRL_EN n) 1)

/-- AUX_DISABLE (R266). -/
def execAuxDisable (n : Fin 4) (s : State) : Result := .next (s.fieldWrite pgAUX (AUX_CTRL_EN n) 0)

/-- AUX_CAPTURE: the feedback code, and the time since the soft start began (R263, R264, R266). -/
def execAuxCapture (n : Fin 4) (vfb ns : Nat) (s : State) : Result := .next (s.protect (fun c => c.xCapture n vfb ns))

/-- AUX_PERIOD_BOUNDARY (R261). -/
def execAuxPeriodBoundary (n : Fin 4) (s : State) : Result := .next (s.protect (fun c => c.xBoundary n))

/-- AUX_DUTY_INSTANT (R261). -/
def execAuxDutyInstant (n : Fin 4) (s : State) : Result := .next (s.protect (fun c => c.xDutyInstant n))

/-- AUX_DEADTIME_END (R261). -/
def execAuxDeadtimeEnd (n : Fin 4) (s : State) : Result := .next (s.protect (fun c => c.xDeadEnd n))

/-- AUX_RELOAD (R264). -/
def execAuxReload (n : Fin 4) (s : State) : Result := .next (s.fieldWrite pgAUX (AUX_CTRL_RLD n) 1)

/-- AUX_FORCE (R276). -/
def execAuxForce (n : Fin 4) (v : Word) (s : State) : Result := .next (s.regWrite pgAUX (0x38 + 32 * n) v)

/-- AUX_GOOD_RISE (R267). -/
def execAuxGoodRise (n : Fin 4) (us : Nat) (s : State) : Result := .next (s.protect (fun c => c.xGood n us))

/-- XUV (R270). -/
def execXuv (n : Fin 4) (us : Nat) (s : State) : Result := .next (s.protect (fun c => c.xUnder n us))

/-- XOC (R271). -/
def execXoc (n : Fin 4) (s : State) : Result := .next (s.protect (fun c => c.xOver n))

/-- FAN_PERIOD (R277). -/
def execFanPeriod (s : State) : Result := .next (if s.alive then s.fanPeriod.rest else s)

/-- FAN_TACH_EDGE (R278). -/
def execFanTachEdge (s : State) : Result := .next (s.protect Core.fanTach)

/-- FANSTALL (R278). -/
def execFanstall (ms : Nat) (s : State) : Result := .next (s.protect (fun c => c.fanStall ms))

end Sys2Proof.Machine
end

