-- ==== Sys2Proof/Machine/RailCommands.lean ====
section
/-! DEFINITION. The meanings of the rail loop's and the phases' commands (R64 to R134). -/
namespace Sys2Proof.Machine

/-- WINDOW_SAMPLE: the code, whether the centre lagged by two samples, and whether a shadowing engine disagrees (R65). -/
def execWindowSample (n : Fin 8) (d : Int) (lag2 : Bool) (mism : Bool) (s : State) : Result :=
  .next (s.control (fun c => c.windowSample n d lag2 mism))

/-- PACEMISS (R15). -/
def execPacemiss (slice : Fin 9) (s : State) : Result := .next (s.protect (fun c => c.send 0x2E 0 (mkAddr 0xC slice)))

/-- RAIL_FIRE (R76). -/
def execRailFire (n : Fin 8) (sinceFire offFor lat : Nat) (s : State) : Result :=
  .next (s.control (fun c => c.railFire n sinceFire offFor lat))

/-- ON_TIME_END of a port (R77). On-times end in full freeze as well (R440). -/
def execOnTimeEnd (k : Fin 24) (s : State) : Result := .next (s.control (fun c => c.onTimeEnd k))

/-- INTEGRATOR_RESET (R75). -/
def execIntegratorReset (n : Fin 8) (s : State) : Result := .next (s.fieldWrite (pgV n) V_INTG_IRST 1)

/-- RAIL_ENABLE (R89). -/
def execRailEnable (n : Fin 8) (s : State) : Result := .next (s.fieldWrite (pgV n) V_CTRL_EN 1)

/-- RAIL_DISABLE, with the SOFTOFF written (R91). -/
def execRailDisable (n : Fin 8) (soft : Bool) (s : State) : Result :=
  let w := s.core.wordOf (pgV n) 0x04
  .next (s.regWrite (pgV n) 0x04 (putBit (putBit w 0 false) 1 soft))

/-- PRECHECK_DONE (R90). -/
def execPrecheckDone (n : Fin 8) (s : State) : Result := .next (s.control (fun c => c.precheckDone n))

/-- PREBIAS_DONE (R90). -/
def execPrebiasDone (n : Fin 8) (s : State) : Result := .next (s.control (fun c => c.prebiasDone n))

/-- PGOOD_RISE (R94). -/
def execPgoodRise (n : Fin 8) (heldUs : Nat) (s : State) : Result := .next (s.control (fun c => c.pgRise n heldUs))

/-- PGOOD_FALL (R94). -/
def execPgoodFall (n : Fin 8) (heldNs : Nat) (s : State) : Result := .next (s.control (fun c => c.pgLost n heldNs))

/-- RAMPFAIL_PGTMO (R90). -/
def execRampfailPgtmo (n : Fin 8) (us : Nat) (s : State) : Result := .next (s.control (fun c => c.pgTimeout n us))

/-- SNSOPEN (R67). -/
def execSnsopen (n : Fin 8) (s : State) : Result := .next (s.protect (fun c => c.senseOpen n))

/-- SNSOPEN_RELEASE (R67). -/
def execSnsopenRelease (n : Fin 8) (s : State) : Result := .next (s.protect (fun c => c.senseClosed n))

/-- ENGINE_SNAPSHOT (R99). -/
def execEngineSnapshot (j : Fin 10) (s : State) : Result := .next (s.fieldWrite (pgE j) E_CTRL_SNAP 1)

/-- COMP_WORD_APPLY (R82). -/
def execCompWordApply (j : Fin 10) (s : State) : Result := .next (s.control (fun c => c.applyComp j))

/-- ENGINE_TAKEOVER (R96). -/
def execEngineTakeover (n : Fin 8) (s : State) : Result := .next (s.control (fun c => c.doTakeover n))

/-- CAL_START (R103). -/
def execCalStart (k : Fin 24) (s : State) : Result := .next (s.fieldWrite (pgP k) P_CTRL_CALSTART 1)

/-- CAL_DONE (R103). -/
def execCalDone (k : Fin 24) (mean : Int) (csrefOk : Bool) (s : State) : Result :=
  .next (s.control (fun c => c.calDone k mean csrefOk))

/-- PHASE_ADC_SAMPLE (R102). -/
def execPhaseAdcSample (k : Fin 24) (code : Int) (s : State) : Result := .next (s.control (fun c => c.phaseSample k code))

/-- STGFLT_TRIP: TMONg has been low for `ns` (R105). -/
def execStgfltTrip (g : Fin 3) (ns : Nat) (s : State) : Result :=
  .next (s.protect (fun c => if 200 ≤ ns then c.stageFault g true else c))

/-- STGFLT_RELEASE: TMONg has been above 0.35 V for `ns` (R105). -/
def execStgfltRelease (g : Fin 3) (ns : Nat) (s : State) : Result :=
  .next (s.protect (fun c => if 1000 ≤ ns then c.stageFault g false else c))

/-- PORT_ASSIGN (R107). -/
def execPortAssign (k : Fin 24) (rail shpri : Nat) (s : State) : Result :=
  .next (s.regWrite (pgP k) 0x20 (BitVec.ofNat 32 (rail % 16 + 256 * (shpri % 32))))

/-- ORDER_COMMIT (R110). -/
def execOrderCommit (n : Fin 8) (s : State) : Result := .next (s.fieldWrite (pgV n) V_ORDCTL_COMMIT 1)

/-- ID_START (R119). -/
def execIdStart (k : Fin 24) (s : State) : Result := .next (s.fieldWrite (pgP k) P_CTRL_IDSTART 1)

/-- ID_END: of a local port, or of a remote phase of this owner (R120, R122, R206). -/
def execIdEnd (dev : Nat) (k : Fin 24) (s : State) : Result := .next (s.control (fun c => c.idEnd dev k))

/-- SHARE_RISE (R116). -/
def execShareRise (k : Fin 24) (periods : Nat) (s : State) : Result := .next (s.control (fun c => c.shareRise k periods))

/-- SHARE_FALL (R116). -/
def execShareFall (k : Fin 24) (periods : Nat) (s : State) : Result := .next (s.control (fun c => c.shareFall k periods))

/-- AUTOSHED_WINDOW_END (R127). -/
def execAutoshedWindowEnd (n : Fin 8) (s : State) : Result := .next (s.control (fun c => c.autoWindow n))

end Sys2Proof.Machine
end

