-- ==== Sys2Proof/Machine/ServiceCommands.lean ====
section
/-! DEFINITION. The meanings of the Bakehouse's, the nonvolatile store's and the security block's commands (R348 to
R399). -/
namespace Sys2Proof.Machine

/-! ## Programs (R350 to R356) -/

/-- RUNSVC (R355). -/
def execRunsvc (s : State) : Result := .next (s.fieldWrite pgBKH BKH_CTRL_RUNSVC 1)

/-- PARK (R361). -/
def execPark (s : State) : Result := .next (s.fieldWrite pgBKH BKH_CTRL_PARK 1)

/-- ABORT (R355). -/
def execAbort (s : State) : Result := .next (s.fieldWrite pgBKH BKH_CTRL_ABORT 1)

/-- The END step. -/
def execEndStep (s : State) : Result := .next s.stepEnd.rest

/-- The ENABLE step. -/
def execEnable (s : State) : Result := .next s.stepEnable.rest

/-- The WAITGOOD step. -/
def execWaitgood (s : State) : Result := .next s.stepWait.rest

/-- WAITGOOD_SATISFIED. -/
def execWaitgoodSatisfied (s : State) : Result := .next s.waitSatisfied.rest

/-- BKHTMO. -/
def execBkhtmo (s : State) : Result := .next s.waitTimeout.rest

/-- The DELAY step. -/
def execDelay (s : State) : Result := .next s.stepDelay.rest

/-- DELAY_END. -/
def execDelayEnd (s : State) : Result := .next s.delayEnd.rest

/-- The CHECK step. -/
def execCheck (s : State) : Result := .next s.stepCheck.rest

/-- The BRFAULT step. -/
def execBrfault (s : State) : Result := .next s.stepBranch.rest

/-- The REPORT step. -/
def execReport (s : State) : Result := .next s.stepReport.rest

/-- DEFAULT_DOWN_WAIT_END (R356). -/
def execDefaultDownWaitEnd (s : State) : Result := .next s.defaultWaitEnd.rest

/-! ## Pins, parking and the fleet report (R357 to R368) -/

/-- SEQ_INPUT_CHANGE (R357). -/
def execSeqInputChange (i : Fin 16) (level : Bool) (s : State) : Result :=
  .next (if s.alive then (s.onCore (fun c => c.seqInput i level)).rest else s.onCore (fun c => c.seqBall i level))

/-- SLEEP_TIMEOUT (R361). -/
def execSleepTimeout (s : State) : Result := .next s.sleepTimeout.rest

/-- MAINEN_RELEASE (R361). -/
def execMainenRelease (late : Bool) (s : State) : Result := .next (if s.serviceRuns then s.mainenRelease late else s)

/-- FLEET_REPORT_FORM (R368). -/
def execFleetReportForm (s : State) : Result :=
  .next (if s.serviceRuns && s.core.bkh.reportDue then s.formReport.rest else s)

/-! ## Records and the flash (R371 to R384, R426) -/

/-- BB_RECORD_WRITE: the arbiter has granted the record's BBWRITE, the flash is free and no control record waits (R378,
R382). -/
def execBbRecordWrite (s : State) : Result :=
  let c := s.core
  .next (
    if s.serviceRuns && c.flashFree && !c.held && !c.ctlWaits && !c.headBusy && c.actRuns actBBWRITE 0 then
      (s.onCore Core.beginLog).rest
    else s)

/-- CTL_RECORD_WRITE (R384). -/
def execCtlRecordWrite (s : State) : Result :=
  let c := s.core
  .next (if s.serviceRuns && c.nvm.ctlWant && c.flashFree && !c.held && !c.ctlBusy then s.beginCtl.rest else s)

/-- REPAIR_MAP_WRITE: the first copy of the map, or the second one where it has waited (R426). -/
def execRepairMapWrite (s : State) : Result :=
  let c := s.core
  .next (
    match c.rpr.mapQ with
    | m :: _ =>
      if s.serviceRuns && c.flashFree && !c.held then (s.beginMap (if c.rpr.mapHalf then .map2 else .map1) m).rest else s
    | [] => s)

/-- FLASH_PROGRAM_DONE (R378). -/
def execFlashProgramDone (s : State) : Result := .next (if s.alive then s.recordStep.rest else s)

/-- The sectors of a log erase wait for the control record that keeps RECBASE (R395). -/
def Core.eraseWaits (c : Core) : Bool :=
  match c.nvm.erases with
  | (_, .bb) :: _ => c.nvm.ctlWant
  | _ => false

/-- FLASH_ERASE_DONE: no program and no hold suspends the erase (R371, R379, R381); in a freeze the erase under way ends
and no other begins (R19, R439). -/
def execFlashEraseDone (ok : Bool) (s : State) : Result :=
  let c := s.core
  .next (
    if s.booted && c.flashFree && !c.held && c.nvm.erases ≠ [] && !c.nvm.eraseStop && !c.eraseWaits then
      ((s.eraseDone ok).onCore (fun c => { c with nvm := { c.nvm with eraseStop := c.rpr.depth ≠ 0 } })).rest
    else s)

/-- LOG_SCAN_DONE (R367, R380). -/
def execLogScanDone (s : State) : Result :=
  .next (if s.serviceRuns && !s.core.bkh.scanned && !s.core.held then s.scanLog.rest else s)

/-- NVM_PROGRAM (R377). -/
def execNvmProgram (p : HostPort) (s : State) : Result := .next (s.portWrite p pgNVM 0x34 0x101)

/-- NVM_ERASE (R377). -/
def execNvmErase (p : HostPort) (s : State) : Result := .next (s.portWrite p pgNVM 0x34 0x102)

/-- NVM_READ (R377). -/
def execNvmRead (p : HostPort) (s : State) : Result := .next (s.portWrite p pgNVM 0x34 0x103)

/-- NVM_OP_DONE: a program or a read that has begun, or an erase whose last sector is done; a program under way ends through
a hold (R377, R381, R382). -/
def execNvmOpDone (s : State) : Result :=
  let c := s.core
  .next (
    match c.nvm.host with
    | some h =>
      if s.booted && h.begun && !(h.op = 2 && c.nvm.erases.any (fun e => e.2 = .host)) then
        s.nvmDone.rest
      else s
    | none => s)

/-- SCRUB of a physical sector: the request for the run, which the arbiter grants or lets wait, and, while that run stands
granted, its end with what it has found: the count of corrected words, and the words with two bit errors that were not known
(R382, R435, R437; log 59). -/
def execScrub (sector : Fin 64) (corr : Nat) (words : List Nat) (s : State) : Result :=
  let c := s.core
  .next (
    if !s.booted || c.rpr.depth = 2 then s
    else if c.actRuns actSCRUB sector then (if c.flashFree && !c.ctlWaits then (s.scrubDone sector corr words).rest else s)
    else if c.fld pgNVM NVM_CFG_SCRUBP = 0 then s
    else (s.onCore (fun c => c.requestAct ⟨actSCRUB, sector, 0⟩)).rest)

/-- NVM_HOLD_END (R381). -/
def execNvmHoldEnd (s : State) : Result :=
  .next (if s.alive && s.core.stat pgNVM 8 && !s.core.holdCause then s.endHold.revokeNext.rest else s)

/-! ## Security (R385 to R394) -/

/-- KEY_PROVISION (R386). -/
def execKeyProvision (slot : Fin 4) (s : State) : Result := .next (s.regWrite pgSEC 0x38 (BitVec.ofNat 32 (slot.val + 0x100)))

/-- KEY_IMGAUTH (R386). -/
def execKeyImgauth (slot : Fin 4) (s : State) : Result := .next (s.regWrite pgSEC 0x38 (BitVec.ofNat 32 (slot.val + 0x400)))

/-- PROV_CLOSE (R386). -/
def execProvClose (s : State) : Result := .next (s.fieldWrite pgSEC SEC_KPROG_CLOSE 1)

/-- OTP_BURN_DONE of a burn that has begun (R381, R386). -/
def execOtpBurnDone (s : State) : Result := .next (if s.booted && s.core.sec.burnOn then s.burnDone.rest else s)

/-- SEC_FAIL_DECAY (R394). -/
def execSecFailDecay (s : State) : Result := .next (if s.booted then s.onCore Core.failDecay else s)

/-- SEC_HOLDOFF_END (R394). -/
def execSecHoldoffEnd (s : State) : Result :=
  .next (if s.booted && s.core.stat pgSEC 0 then (s.onCore Core.endHoldoff).rest else s)

end Sys2Proof.Machine
end

