-- ==== Sys2Proof/Machine/Dispatch.lean ====
section
/-! DEFINITION. The dispatch: one arm per command, each a direct call of its meaning. -/
namespace Sys2Proof.Machine

/-- The effect of a command on everything but the queue. -/
def exec (i : Instr) (s : State) : Host.Outcome State Fault Refusal :=
  match i with
  | .regWrite p pg off v => Sys2Proof.Machine.execRegWrite p pg off v s
  | .stkyClear pg off mask coinc => Sys2Proof.Machine.execStkyClear pg off mask coinc s
  | .evcClear pg incs => Sys2Proof.Machine.execEvcClear pg incs s
  | .frcForce pg mask => Sys2Proof.Machine.execFrcForce pg mask s
  | .lockWrite pg v => Sys2Proof.Machine.execLockWrite pg v s
  | .pageReset pg => Sys2Proof.Machine.execPageReset pg s
  | .railPageReset n => Sys2Proof.Machine.execRailPageReset n s
  | .hstPageReset => Sys2Proof.Machine.execHstPageReset s
  | .cmdEngineReset => Sys2Proof.Machine.execCmdEngineReset s
  | .cmpPageReset => Sys2Proof.Machine.execCmpPageReset s
  | .trpPageReset => Sys2Proof.Machine.execTrpPageReset s
  | .tlmPageReset => Sys2Proof.Machine.execTlmPageReset s
  | .crbPageReset => Sys2Proof.Machine.execCrbPageReset s
  | .thmPageReset => Sys2Proof.Machine.execThmPageReset s
  | .fltPageReset => Sys2Proof.Machine.execFltPageReset s
  | .spiReadSingle cmd pg off hcrc waits => Sys2Proof.Machine.execSpiReadSingle cmd pg off hcrc waits s
  | .spiReadBurst cmd pg off hcrc waits => Sys2Proof.Machine.execSpiReadBurst cmd pg off hcrc waits s
  | .spiReadStream cmd pg off hcrc waits => Sys2Proof.Machine.execSpiReadStream cmd pg off hcrc waits s
  | .spiWriteSingle cmd pg off hcrc data dcrc => Sys2Proof.Machine.execSpiWriteSingle cmd pg off hcrc data dcrc s
  | .spiWriteBurst cmd pg off hcrc data dcrc => Sys2Proof.Machine.execSpiWriteBurst cmd pg off hcrc data dcrc s
  | .spiFrameAbort hdr words dcrcBad => Sys2Proof.Machine.execSpiFrameAbort hdr words dcrcBad s
  | .spiStreamSlotFill waits => Sys2Proof.Machine.execSpiStreamSlotFill waits s
  | .spiStrabn => Sys2Proof.Machine.execSpiStrabn s
  | .smbTimeout => Sys2Proof.Machine.execSmbTimeout s
  | .smbAlertResponse won pec => Sys2Proof.Machine.execSmbAlertResponse won pec s
  | .pmbusUnsupported code rd => Sys2Proof.Machine.execPmbusUnsupported code rd s
  | .page op => Sys2Proof.Machine.execPage op s
  | .operationOn op => Sys2Proof.Machine.execOperationOn op s
  | .operationSoftOff pec => Sys2Proof.Machine.execOperationSoftOff pec s
  | .operationImmediateOff pec => Sys2Proof.Machine.execOperationImmediateOff pec s
  | .onOffConfig op => Sys2Proof.Machine.execOnOffConfig op s
  | .clearFaults pec => Sys2Proof.Machine.execClearFaults pec s
  | .writeProtect op => Sys2Proof.Machine.execWriteProtect op s
  | .capability op => Sys2Proof.Machine.execCapability op s
  | .voutMode op => Sys2Proof.Machine.execVoutMode op s
  | .voutCommand op => Sys2Proof.Machine.execVoutCommand op s
  | .voutMax op => Sys2Proof.Machine.execVoutMax op s
  | .voutTransitionRate op => Sys2Proof.Machine.execVoutTransitionRate op s
  | .coefficients code rw pec => Sys2Proof.Machine.execCoefficients code rw pec s
  | .voutOvFaultLimit op => Sys2Proof.Machine.execVoutOvFaultLimit op s
  | .voutUvFaultLimit op => Sys2Proof.Machine.execVoutUvFaultLimit op s
  | .ioutOcFaultLimit op => Sys2Proof.Machine.execIoutOcFaultLimit op s
  | .otFaultLimit op => Sys2Proof.Machine.execOtFaultLimit op s
  | .vinOvFaultLimit op => Sys2Proof.Machine.execVinOvFaultLimit op s
  | .vinUvFaultLimit op => Sys2Proof.Machine.execVinUvFaultLimit op s
  | .statusByte op => Sys2Proof.Machine.execStatusByte op s
  | .statusWord op => Sys2Proof.Machine.execStatusWord op s
  | .statusVout op => Sys2Proof.Machine.execStatusVout op s
  | .statusIout op => Sys2Proof.Machine.execStatusIout op s
  | .statusInput op => Sys2Proof.Machine.execStatusInput op s
  | .statusTemperature op => Sys2Proof.Machine.execStatusTemperature op s
  | .statusCml op => Sys2Proof.Machine.execStatusCml op s
  | .readVin op => Sys2Proof.Machine.execReadVin op s
  | .readIin op => Sys2Proof.Machine.execReadIin op s
  | .readVout op => Sys2Proof.Machine.execReadVout op s
  | .readIout op => Sys2Proof.Machine.execReadIout op s
  | .readTemperature1 op => Sys2Proof.Machine.execReadTemperature1 op s
  | .readTemperature2 op => Sys2Proof.Machine.execReadTemperature2 op s
  | .readPout op => Sys2Proof.Machine.execReadPout op s
  | .pmbusRevision op => Sys2Proof.Machine.execPmbusRevision op s
  | .mfrId op => Sys2Proof.Machine.execMfrId op s
  | .mfrModel op => Sys2Proof.Machine.execMfrModel op s
  | .mfrRevision op => Sys2Proof.Machine.execMfrRevision op s
  | .mfrWindowAddr op => Sys2Proof.Machine.execMfrWindowAddr op s
  | .mfrWindowData op => Sys2Proof.Machine.execMfrWindowData op s
  | .mfrWindowDataInc op => Sys2Proof.Machine.execMfrWindowDataInc op s
  | .mfrFleetReport op => Sys2Proof.Machine.execMfrFleetReport op s
  | .windowSample n d lag2 mism => Sys2Proof.Machine.execWindowSample n d lag2 mism s
  | .pacemiss slice => Sys2Proof.Machine.execPacemiss slice s
  | .railFire n sinceFire offFor lat => Sys2Proof.Machine.execRailFire n sinceFire offFor lat s
  | .onTimeEnd k => Sys2Proof.Machine.execOnTimeEnd k s
  | .integratorReset n => Sys2Proof.Machine.execIntegratorReset n s
  | .railEnable n => Sys2Proof.Machine.execRailEnable n s
  | .railDisable n soft => Sys2Proof.Machine.execRailDisable n soft s
  | .precheckDone n => Sys2Proof.Machine.execPrecheckDone n s
  | .prebiasDone n => Sys2Proof.Machine.execPrebiasDone n s
  | .pgoodRise n heldUs => Sys2Proof.Machine.execPgoodRise n heldUs s
  | .pgoodFall n heldNs => Sys2Proof.Machine.execPgoodFall n heldNs s
  | .rampfailPgtmo n us => Sys2Proof.Machine.execRampfailPgtmo n us s
  | .snsopen n => Sys2Proof.Machine.execSnsopen n s
  | .engineSnapshot j => Sys2Proof.Machine.execEngineSnapshot j s
  | .compWordApply j => Sys2Proof.Machine.execCompWordApply j s
  | .engineTakeover n => Sys2Proof.Machine.execEngineTakeover n s
  | .calStart k => Sys2Proof.Machine.execCalStart k s
  | .calDone k mean csrefOk => Sys2Proof.Machine.execCalDone k mean csrefOk s
  | .stgfltTrip g ns => Sys2Proof.Machine.execStgfltTrip g ns s
  | .stgfltRelease g ns => Sys2Proof.Machine.execStgfltRelease g ns s
  | .portAssign k rail shpri => Sys2Proof.Machine.execPortAssign k rail shpri s
  | .orderCommit n => Sys2Proof.Machine.execOrderCommit n s
  | .idStart k => Sys2Proof.Machine.execIdStart k s
  | .idEnd dev k => Sys2Proof.Machine.execIdEnd dev k s
  | .shareRise k periods => Sys2Proof.Machine.execShareRise k periods s
  | .shareFall k periods => Sys2Proof.Machine.execShareFall k periods s
  | .autoshedWindowEnd n => Sys2Proof.Machine.execAutoshedWindowEnd n s
  | .i3cBusUp b targets => Sys2Proof.Machine.execI3cBusUp b targets s
  | .i3cBusDisable b => Sys2Proof.Machine.execI3cBusDisable b s
  | .i3cBusReset b => Sys2Proof.Machine.execI3cBusReset b s
  | .i3cDaa b targets => Sys2Proof.Machine.execI3cDaa b targets s
  | .i3cHotJoin b targets => Sys2Proof.Machine.execI3cHotJoin b targets s
  | .i3cIbi b da mdb => Sys2Proof.Machine.execI3cIbi b da mdb s
  | .itemRead b => Sys2Proof.Machine.execItemRead b s
  | .itemReceived b reply => Sys2Proof.Machine.execItemReceived b reply s
  | .itemReadRetry b => Sys2Proof.Machine.execItemReadRetry b s
  | .nop t => Sys2Proof.Machine.execNop t s
  | .vset t => Sys2Proof.Machine.execVset t s
  | .vrel t => Sys2Proof.Machine.execVrel t s
  | .phreq t => Sys2Proof.Machine.execPhreq t s
  | .vquery t => Sys2Proof.Machine.execVquery t s
  | .tlmrd t => Sys2Proof.Machine.execTlmrd t s
  | .vseta t => Sys2Proof.Machine.execVseta t s
  | .auwr t => Sys2Proof.Machine.execAuwr t s
  | .recordWrite b ack => Sys2Proof.Machine.execRecordWrite b ack s
  | .recordRetry b ack => Sys2Proof.Machine.execRecordRetry b ack s
  | .getstatusPoll b da reply => Sys2Proof.Machine.execGetstatusPoll b da reply s
  | .ovfVoteExpire n => Sys2Proof.Machine.execOvfVoteExpire n s
  | .cmdFlush ctx => Sys2Proof.Machine.execCmdFlush ctx s
  | .flushall => Sys2Proof.Machine.execFlushall s
  | .orpPop => Sys2Proof.Machine.execOrpPop s
  | .lnkEnable en => Sys2Proof.Machine.execLnkEnable en s
  | .lnkInputLock => Sys2Proof.Machine.execLnkInputLock s
  | .ringOpen => Sys2Proof.Machine.execRingOpen s
  | .enumFrame h id own => Sys2Proof.Machine.execEnumFrame h id own s
  | .ringMeasureDone h id fwd chofs rtt => Sys2Proof.Machine.execRingMeasureDone h id fwd chofs rtt s
  | .slotmapFrame h ndev map hops bound => Sys2Proof.Machine.execSlotmapFrame h ndev map hops bound s
  | .bindCheckFrame h port orail confirm => Sys2Proof.Machine.execBindCheckFrame h port orail confirm s
  | .openFrame h refused => Sys2Proof.Machine.execOpenFrame h refused s
  | .creditFrame h vc cls count => Sys2Proof.Machine.execCreditFrame h vc cls count s
  | .tokenDispatch n => Sys2Proof.Machine.execTokenDispatch n s
  | .token devid rail port primBad chordBad age => Sys2Proof.Machine.execToken devid rail port primBad chordBad age s
  | .preload h port ton => Sys2Proof.Machine.execPreload h port ton s
  | .fired h src port isamp age late => Sys2Proof.Machine.execFired h src port isamp age late s
  | .missed h src port isamp age late => Sys2Proof.Machine.execMissed h src port isamp age late s
  | .held h src port isamp age late => Sys2Proof.Machine.execHeld h src port isamp age late s
  | .mid h port => Sys2Proof.Machine.execMid h port s
  | .idResultFrame h port num den => Sys2Proof.Machine.execIdResultFrame h port num den s
  | .faultRelayFrame h group tripped => Sys2Proof.Machine.execFaultRelayFrame h group tripped s
  | .lendtmo k us => Sys2Proof.Machine.execLendtmo k us s
  | .primaryLoss => Sys2Proof.Machine.execPrimaryLoss s
  | .absentNotice h id => Sys2Proof.Machine.execAbsentNotice h id s
  | .primaryReturn => Sys2Proof.Machine.execPrimaryReturn s
  | .ringBreak => Sys2Proof.Machine.execRingBreak s
  | .breakNotice h id => Sys2Proof.Machine.execBreakNotice h id s
  | .comparatorAssert c hi => Sys2Proof.Machine.execComparatorAssert c hi s
  | .comparatorDeassert c hi => Sys2Proof.Machine.execComparatorDeassert c hi s
  | .cmpThresholdWrite j v => Sys2Proof.Machine.execCmpThresholdWrite j v s
  | .cmpModeWrite j v => Sys2Proof.Machine.execCmpModeWrite j v s
  | .crowClear n => Sys2Proof.Machine.execCrowClear n s
  | .pclactExpire n => Sys2Proof.Machine.execPclactExpire n s
  | .hiccupTrigger n byRoc count => Sys2Proof.Machine.execHiccupTrigger n byRoc count s
  | .hiccupRestart n => Sys2Proof.Machine.execHiccupRestart n s
  | .hiccupCountClear n => Sys2Proof.Machine.execHiccupCountClear n s
  | .uvArm n => Sys2Proof.Machine.execUvArm n s
  | .uvFault n => Sys2Proof.Machine.execUvFault n s
  | .tripLineActive l => Sys2Proof.Machine.execTripLineActive l s
  | .tripLineInactive l => Sys2Proof.Machine.execTripLineInactive l s
  | .tripClear g => Sys2Proof.Machine.execTripClear g s
  | .auxEnable n => Sys2Proof.Machine.execAuxEnable n s
  | .auxDisable n => Sys2Proof.Machine.execAuxDisable n s
  | .auxCapture n vfb ns => Sys2Proof.Machine.execAuxCapture n vfb ns s
  | .auxPeriodBoundary n => Sys2Proof.Machine.execAuxPeriodBoundary n s
  | .auxDutyInstant n => Sys2Proof.Machine.execAuxDutyInstant n s
  | .auxDeadtimeEnd n => Sys2Proof.Machine.execAuxDeadtimeEnd n s
  | .auxReload n => Sys2Proof.Machine.execAuxReload n s
  | .auxForce n v => Sys2Proof.Machine.execAuxForce n v s
  | .auxGoodRise n us => Sys2Proof.Machine.execAuxGoodRise n us s
  | .xuv n us => Sys2Proof.Machine.execXuv n us s
  | .xoc n => Sys2Proof.Machine.execXoc n s
  | .fanPeriod => Sys2Proof.Machine.execFanPeriod s
  | .fanTachEdge => Sys2Proof.Machine.execFanTachEdge s
  | .fanstall ms => Sys2Proof.Machine.execFanstall ms s
  | .tlmBaseSample vin => Sys2Proof.Machine.execTlmBaseSample vin s
  | .tlmSwap => Sys2Proof.Machine.execTlmSwap s
  | .pkcall => Sys2Proof.Machine.execPkcall s
  | .tlmPeakClear => Sys2Proof.Machine.execTlmPeakClear s
  | .tlmPkrRead => Sys2Proof.Machine.execTlmPkrRead s
  | .winmonRead n => Sys2Proof.Machine.execWinmonRead n s
  | .enLatRead j => Sys2Proof.Machine.execEnLatRead j s
  | .cmdTagsRead => Sys2Proof.Machine.execCmdTagsRead s
  | .fltLatchRead => Sys2Proof.Machine.execFltLatchRead s
  | .devTimelRead => Sys2Proof.Machine.execDevTimelRead s
  | .crumbMerge => Sys2Proof.Machine.execCrumbMerge s
  | .packTimeout us => Sys2Proof.Machine.execPackTimeout us s
  | .crbDataRead p => Sys2Proof.Machine.execCrbDataRead p s
  | .crbFlush push slot => Sys2Proof.Machine.execCrbFlush push slot s
  | .crbRselWrite v => Sys2Proof.Machine.execCrbRselWrite v s
  | .crbRdataRead p => Sys2Proof.Machine.execCrbRdataRead p s
  | .req h rp fp nmax => Sys2Proof.Machine.execReq h rp fp nmax s
  | .sync h nmax => Sys2Proof.Machine.execSync h nmax s
  | .data h wp fp words => Sys2Proof.Machine.execData h wp fp words s
  | .resync h wp rp => Sys2Proof.Machine.execResync h wp rp s
  | .crbRequest us => Sys2Proof.Machine.execCrbRequest us s
  | .crbReqTimeout us => Sys2Proof.Machine.execCrbReqTimeout us s
  | .hkRoundStart => Sys2Proof.Machine.execHkRoundStart s
  | .hkRoundEnd temps tmon sup refs => Sys2Proof.Machine.execHkRoundEnd temps tmon sup refs s
  | .hkRoundAbandon => Sys2Proof.Machine.execHkRoundAbandon s
  | .faultMessage => Sys2Proof.Machine.execFaultMessage s
  | .faultRelease v => Sys2Proof.Machine.execFaultRelease v s
  | .classWrite j v => Sys2Proof.Machine.execClassWrite j v s
  | .faultForce j v => Sys2Proof.Machine.execFaultForce j v s
  | .fltreg => Sys2Proof.Machine.execFltreg s
  | .runsvc => Sys2Proof.Machine.execRunsvc s
  | .park => Sys2Proof.Machine.execPark s
  | .abort => Sys2Proof.Machine.execAbort s
  | .endStep => Sys2Proof.Machine.execEndStep s
  | .enable => Sys2Proof.Machine.execEnable s
  | .waitgood => Sys2Proof.Machine.execWaitgood s
  | .waitgoodSatisfied => Sys2Proof.Machine.execWaitgoodSatisfied s
  | .bkhtmo => Sys2Proof.Machine.execBkhtmo s
  | .delay => Sys2Proof.Machine.execDelay s
  | .delayEnd => Sys2Proof.Machine.execDelayEnd s
  | .check => Sys2Proof.Machine.execCheck s
  | .brfault => Sys2Proof.Machine.execBrfault s
  | .report => Sys2Proof.Machine.execReport s
  | .seqInputChange j level => Sys2Proof.Machine.execSeqInputChange j level s
  | .wakeEdge => Sys2Proof.Machine.execWakeEdge s
  | .sleepTimeout => Sys2Proof.Machine.execSleepTimeout s
  | .mainenRelease late => Sys2Proof.Machine.execMainenRelease late s
  | .bbRecordWrite => Sys2Proof.Machine.execBbRecordWrite s
  | .flashProgramDone => Sys2Proof.Machine.execFlashProgramDone s
  | .flashEraseDone ok => Sys2Proof.Machine.execFlashEraseDone ok s
  | .fleetReportForm => Sys2Proof.Machine.execFleetReportForm s
  | .logScanDone => Sys2Proof.Machine.execLogScanDone s
  | .nvmProgram p => Sys2Proof.Machine.execNvmProgram p s
  | .nvmErase p => Sys2Proof.Machine.execNvmErase p s
  | .nvmRead p => Sys2Proof.Machine.execNvmRead p s
  | .nvmOpDone => Sys2Proof.Machine.execNvmOpDone s
  | .scrub sector corr words => Sys2Proof.Machine.execScrub sector corr words s
  | .ctlRecordWrite => Sys2Proof.Machine.execCtlRecordWrite s
  | .nvmHoldEnd => Sys2Proof.Machine.execNvmHoldEnd s
  | .keyProvision slot => Sys2Proof.Machine.execKeyProvision slot s
  | .keyImgauth slot => Sys2Proof.Machine.execKeyImgauth slot s
  | .provClose => Sys2Proof.Machine.execProvClose s
  | .otpBurnDone => Sys2Proof.Machine.execOtpBurnDone s
  | .secFailDecay => Sys2Proof.Machine.execSecFailDecay s
  | .secHoldoffEnd => Sys2Proof.Machine.execSecHoldoffEnd s
  | .vkeepPowerOn => Sys2Proof.Machine.execVkeepPowerOn s
  | .supplyRise j => Sys2Proof.Machine.execSupplyRise j s
  | .supplyFall j => Sys2Proof.Machine.execSupplyFall j s
  | .wakingSupplyGood => Sys2Proof.Machine.execWakingSupplyGood s
  | .wakingTimeout => Sys2Proof.Machine.execWakingTimeout s
  | .rstNAssert ns => Sys2Proof.Machine.execRstNAssert ns s
  | .rstNRelease => Sys2Proof.Machine.execRstNRelease s
  | .swrst => Sys2Proof.Machine.execSwrst s
  | .coldnext => Sys2Proof.Machine.execColdnext s
  | .bootStart a0 a1 => Sys2Proof.Machine.execBootStart a0 a1 s
  | .bootPhaseAEnd => Sys2Proof.Machine.execBootPhaseAEnd s
  | .bootPhaseBEnd => Sys2Proof.Machine.execBootPhaseBEnd s
  | .bootPhaseCEnd fails us => Sys2Proof.Machine.execBootPhaseCEnd fails us s
  | .bootPhaseDEnd means csref => Sys2Proof.Machine.execBootPhaseDEnd means csref s
  | .bootEnd us => Sys2Proof.Machine.execBootEnd us s
  | .shadowRequest n ms => Sys2Proof.Machine.execShadowRequest n ms s
  | .maintGrant => Sys2Proof.Machine.execMaintGrant s
  | .shadowStart => Sys2Proof.Machine.execShadowStart s
  | .shadowPass => Sys2Proof.Machine.execShadowPass s
  | .retestDone unit ok => Sys2Proof.Machine.execRetestDone unit ok s
  | .bistbgRun min => Sys2Proof.Machine.execBistbgRun min s
  | .bgnow => Sys2Proof.Machine.execBgnow s
  | .bistbgDone unit ok => Sys2Proof.Machine.execBistbgDone unit ok s
  | .recalRequest secs => Sys2Proof.Machine.execRecalRequest secs s
  | .recalDone region fails => Sys2Proof.Machine.execRecalDone region fails s
  | .slcmpRequest => Sys2Proof.Machine.execSlcmpRequest s
  | .slcmpDone inst mism => Sys2Proof.Machine.execSlcmpDone inst mism s
  | .repairMapWrite => Sys2Proof.Machine.execRepairMapWrite s
  | .frzPinChange level => Sys2Proof.Machine.execFrzPinChange level s
  | .obs b => Sys2Proof.Machine.execObs b s
  | .full => Sys2Proof.Machine.execFull s
  | .recap => Sys2Proof.Machine.execRecap s
  | .freezeAllMid => Sys2Proof.Machine.execFreezeAllMid s
  | .freezeHalt => Sys2Proof.Machine.execFreezeHalt s
  | .rackdataRead => Sys2Proof.Machine.execRackdataRead s
  | .tapReset => Sys2Proof.Machine.execTapReset s
  | .extest bits => Sys2Proof.Machine.execExtest bits s
  | .samplePreload bits => Sys2Proof.Machine.execSamplePreload bits s
  | .idcode => Sys2Proof.Machine.execIdcode s
  | .regacc wr pg off data => Sys2Proof.Machine.execRegacc wr pg off data s
  | .frzScan => Sys2Proof.Machine.execFrzScan s
  | .frzRead addr => Sys2Proof.Machine.execFrzRead addr s
  | .bypass code => Sys2Proof.Machine.execBypass s code
  | .vkeepLoss => Sys2Proof.Machine.execVkeepLoss s
  | .snsopenRelease n => Sys2Proof.Machine.execSnsopenRelease n s
  | .phaseAdcSample k code => Sys2Proof.Machine.execPhaseAdcSample k code s
  | .getstatusRetry b da reply => Sys2Proof.Machine.execGetstatusRetry b da reply s
  | .idRequestFrame h port ask => Sys2Proof.Machine.execIdRequestFrame h port ask s
  | .cascadeCheckAnswer h id busy => Sys2Proof.Machine.execCascadeCheckAnswer h id busy s
  | .fLaneSlot prim chord => Sys2Proof.Machine.execFLaneSlot prim chord s
  | .defaultDownWaitEnd => Sys2Proof.Machine.execDefaultDownWaitEnd s

end Sys2Proof.Machine
end

