-- ==== Sys2Proof/Machine/Pins.lean ====
section
/-! DEFINITION. The states of the pins in every condition of the device (R420, R421), over the pins' own rules in
SEQUENCING to GRAVE. -/
namespace Sys2Proof.Machine

/-- The pins of R420, in its rows; the analog row is in two, by the domains of R475. -/
inductive Pin where
  | pwm (k : Fin 24)
  | xhg (n : Fin 4)
  | xlg (n : Fin 4)
  /-- CSk, CSREFg, TMONg, XCSPn and XCSNn. -/
  | current
  /-- VSNSPn, VSNSNn, VINSNSb, CMPINi and XFBn. -/
  | voltage
  | mainen
  | wake
  | seq (i : Fin 16)
  | faultN
  | alertN
  | fanpwm
  | smbus
  | bus (b : Fin 2)
  | spiMiso
  | tdo
  | linkOut
  | linkIn
  | rstN
  | digitalIn
  deriving DecidableEq, Repr

/-- What a pin does: it is driven, held at mid, released or high-impedance; it is an input, ignored or watched by C51; or it
carries what its port or link gives it. -/
inductive PinState where
  | highZ | low | high | mid | released | off | input | ignored | watched | carries
  deriving DecidableEq, Repr

/-- The columns of R420. -/
inductive PinCond where
  | unpowered | parked | waking | reset | runs
  deriving DecidableEq, Repr

/-- The supply of a pin (R400, R475): 0 VCC33, 1 VDD18, 3 VIO, 4 VKEEP. -/
def Pin.supply : Pin → Nat
  | .pwm _ | .xhg _ | .xlg _ | .current => 0
  | .voltage | .linkOut | .linkIn => 1
  | .mainen | .wake => 4
  | _ => 3

/-- The column that applies to a pin: unpowered without VKEEP or without its own supply. In WAKING after a fall of a core supply
a pin follows the reset column for as long as its own supply has held since (R402, R420). -/
def State.pinCond (s : State) (p : Pin) : PinCond :=
  if !s.pw.isGood 4 || !s.pw.isGood p.supply then .unpowered
  else match s.pw.pstate with
    | .parked => .parked
    | .waking => if s.pw.heldSince.contains p.supply then .reset else .waking
    | _ => if s.booted then .runs else .reset

/-- A PWM output: mid is driven, or high-impedance with MIDHZ (R100, R252). -/
def Core.pwmPin (c : Core) (k : Fin 24) : PinState :=
  match (vget c.ports k {}).pwm with
  | .high => .high
  | .low => .low
  | .mid => if c.flag (pgP k) P_CSCFG_MIDHZ then .highZ else .mid

/-- An open-drain output. -/
def openDrain (low : Bool) : PinState := if low then .low else .released

/-- The pin in SEQUENCING to GRAVE, by the rule of its block. -/
def State.pinRuns (s : State) : Pin → PinState
  | .pwm k => s.core.pwmPin k
  | .xhg n => if (vget s.core.aux.ch n {}).xh then .high else .low
  | .xlg n => if (vget s.core.aux.ch n {}).xl then .high else .low
  | .current | .voltage | .rstN | .digitalIn => .input
  | .mainen => .high
  | .wake => .watched
  | .seq i => openDrain (s.core.seqDriven i)
  | .faultN => openDrain s.faultLow
  | .alertN => openDrain s.alertPin
  | .fanpwm => match s.fanPin with
    | some b => openDrain !b
    | none => .released
  | .smbus | .spiMiso | .tdo => .carries
  | .bus b => if s.core.flag pgHST (HST_I3CCFG_EN b) then .carries else .released
  | .linkOut => if s.core.flag pgLNK LNK_CTRL_EN then .carries else .off
  | .linkIn => if s.core.flag pgLNK LNK_CTRL_EN then .carries else .highZ

/-- The pin in reset and in BOOT; SPI_MISO and TDO carry from the end of phase A, and ALERT_N follows a halted BOOT (R413,
R414, R420). -/
def State.pinReset (s : State) : Pin → PinState
  | .pwm _ => .mid
  | .xhg _ | .xlg _ => .low
  | .current | .voltage | .rstN | .digitalIn => .input
  | .mainen => .high
  | .wake => .watched
  | .alertN => openDrain s.alertPin
  | .spiMiso | .tdo => if s.alive && 1 ≤ s.pw.phase then .carries else .highZ
  | .linkOut => .off
  | .linkIn => .highZ
  | _ => .released

/-- The pin in WAKING: PWM at mid and gates low, as VCC33 is good, and MAINEN high. -/
def pinWaking : Pin → PinState
  | .pwm _ => .mid
  | .xhg _ | .xlg _ => .low
  | .mainen => .high
  | .wake => .watched
  | .rstN => .input
  | .current | .voltage | .spiMiso | .tdo | .linkIn => .highZ
  | .linkOut => .off
  | .digitalIn => .ignored
  | _ => .released

/-- The pin without power, and in PARKED but for MAINEN and WAKE. -/
def pinUnpowered : Pin → PinState
  | .linkOut => .off
  | .rstN | .digitalIn => .ignored
  | .seq _ | .faultN | .alertN | .fanpwm | .smbus | .bus _ => .released
  | _ => .highZ

/-- The pin in PARKED. -/
def pinParked : Pin → PinState
  | .mainen => .low
  | .wake => .watched
  | p => pinUnpowered p

/-- The boundary-scan cells drive the pins: EXTEST is in force, in full freeze or in a halted BOOT (R443). -/
def State.scanDrives (s : State) : Bool := s.core.rpr.extest && (s.core.rpr.depth = 2 || s.pw.halt)

/-- The state of a pin, where boundary scan does not drive it (R420, R443). -/
def State.pin (s : State) (p : Pin) : PinState :=
  match s.pinCond p with
  | .unpowered => pinUnpowered p
  | .parked => pinParked p
  | .waking => pinWaking p
  | .reset => s.pinReset p
  | .runs => s.pinRuns p

/-- The sense-open sources are on: from the start of phase A, in every state but PARKED and WAKING (R67, R420). -/
def State.senseSources (s : State) : Bool := s.alive

end Sys2Proof.Machine
end

