-- ==== Sys2Proof/Safety.lean ====
section
/-! DEFINITION. What counts as a safe state, the invariants that every command keeps, and the terms of the statements. -/
namespace Sys2Proof.Machine

/-- The register file holds no entry equal to its reset value and no address twice. -/
def Core.regsWf (c : Core) : Bool := Sparse.wf resetWord c.regs

/-- The flash lists no erased byte and no address twice. -/
def Store.flashWf (t : Store) : Bool := Sparse.wf erasedByte t.flash

/-- The memories of the block are in their canonical form. -/
def State.memWf (s : State) : Bool := s.core.regsWf && s.st.flashWf

/-- Every command that waits is well formed. -/
def State.queueWf (s : State) : Bool := s.pending.all Instr.wellFormed

/-- The commands that bring a supply up or take it down (R400): they alone change which supplies are good. -/
def ofSupply : Instr → Bool
  | .supplyRise _ | .supplyFall _ | .vkeepPowerOn | .vkeepLoss => true
  | _ => false

/-- The state with another core, once the machine has come to rest on it: the form of what a command leaves. -/
def State.after (s : State) (c : Core) : State := ({ s with core := c }).rest

/-- The same at the end of the frame or transaction that carried the change (R62, R416). -/
def State.wrote (s : State) (c : Core) : State := (s.after c).frameEnd

/-- The state with the bytes that an SMBus transaction answered. -/
def State.answered (s : State) (l : List Byte) : State :=
  { s with core := { s.core with hst := { s.core.hst with smb := l, smbAck := true } } }

/-! ## Frames that a ring device acts on (R192 to R194, R212) -/

/-- A sound frame on an enumerated device, on the input whose copies it takes. -/
def Core.listens (c : Core) (h : FrameHead) : Bool :=
  c.inputsOn && c.ringId ≠ 0 && h.err = .none && h.chord = c.stat pgLNK 2

/-- The frame is for this device, is the master's own broadcast come back, or is another device's broadcast, which a device
that changes classes acts on in class A alone. -/
def Core.heeds (c : Core) (h : FrameHead) : Bool :=
  c.isFor h.dest || (h.dest = 0xFF && h.src = c.ringId && c.isMaster) ||
    (h.dest = 0xFF && h.src ≠ c.ringId && !(c.classChanger && h.clsB))

/-- This device with a frame of VC1 to VC3 matched with its chord copy, when the primary brings it (R214). -/
def Core.taken (c : Core) (h : FrameHead) (m : RingMsg) : Core :=
  if h.chord then c else c.matchChord (.msg h.clsB h.dest h.src h.fn m)

/-- After the frame's effect: another device's broadcast goes on round the ring, and any other frame is removed and its credit
returned. -/
def Core.passes (c : Core) (h : FrameHead) (m : RingMsg) (e : Core) : Core :=
  if h.dest = 0xFF && h.src ≠ c.ringId then e.forwardMsg h m else e.giveCredit m.vc h.clsB

/-- The frame of VC1 to VC3 that a command brings, and what it does to a device that acts on it. -/
def ringMessage : Instr → Option (FrameHead × RingMsg × (Core → Core))
  | .ringMeasureDone (some h) id fwd chofs _ => some (h, .measure id fwd chofs, fun c => c.collect id fwd chofs)
  | .slotmapFrame h ndev map hops bound => some (h, .slotMap ndev map hops, fun c => c.slotMap ndev map hops bound)
  | .bindCheckFrame h port rail confirm => some (h, .bindCheck port rail confirm, fun c => c.bindCheck h.src port rail confirm)
  | .cascadeCheckAnswer h id busy => some (h, .answer id busy, fun c => c.cascAnswer id busy)
  | .openFrame h refused => some (h, .opened refused, fun c => c.opened refused)
  | .idRequestFrame h port ask => some (h, .idRequest port ask, fun c => c.takeIdRequest h.src port ask)
  | .idResultFrame h port num den => some (h, .idResult port num den, fun c => c.takeIdResult h.src port num den)
  | .faultRelayFrame h group tripped => some (h, .faultRelay group tripped, fun c => c.faultRelay h.src group tripped)
  | .absentNotice h id => some (h, .absent id, fun c => c.absentNotice id)
  | .breakNotice h id => some (h, .broken id, Core.breakNotice)
  | .req h rp fp nmax => some (h, .crbReq (ofGray rp) (ofGray fp) nmax, fun c => c.takeReq h.src (ofGray rp) (ofGray fp) nmax)
  | .sync h nmax => some (h, .crbSync nmax, fun c => c.takeSync h.src)
  | .data h wp fp words => some (h, .crbData (ofGray wp) (ofGray fp) words, fun c => c.takeData h.src (ofGray wp) (ofGray fp) words)
  | .resync h wp rp => some (h, .crbResync (ofGray wp) (ofGray rp), fun c => c.takeResync h.src (ofGray wp) (ofGray rp))
  | _ => none

/-- The VC0 frame that a command brings: head, type, port, payload, and what it does to the device that it names. -/
def orderFrame : Instr → Option (FrameHead × Nat × Nat × Nat × (Core → Core))
  | .preload h port ton => some (h, 1, port, ton % 2 ^ 18, fun c => c.takePreload port ton)
  | .fired h src port isamp age late =>
    some (h, 2, port, src + 2 ^ 8 * (ofSigned 12 isamp + 2 ^ 12 * age), fun c => c.summary true src port isamp age late)
  | .missed h src port isamp age late =>
    some (h, 3, port, src + 2 ^ 8 * (ofSigned 12 isamp + 2 ^ 12 * age), fun c => c.summary false src port isamp age late)
  | .held h src port isamp age late =>
    some (h, 4, port, src + 2 ^ 8 * (ofSigned 12 isamp + 2 ^ 12 * age), fun c => c.summary false src port isamp age late)
  | .mid h port => some (h, 5, port, 0, fun c => c.takeMid port)
  | _ => none

end Sys2Proof.Machine
end

