-- ==== Sys2Proof/Certificates/Slice0/Obligations.lean ====
section
/-! DEFINITION. The statements about the model, each a proposition; the provers prove them. A command's completion is
stated as an equation: the next state is `s.after c`, the machine at rest on the core `c` that the rules give, or
`s.wrote c` for a write that comes through a port. -/
open Sys2Proof Sys2Proof.Machine

/-- A step carries out the command at the front of the queue. With the command i at the front of the queue, a step is exec
of i on the state with the queue's rest. (95_what_each_step_holds.md, Scope: Order of accesses from several ports) -/
def Obligations.StepRunsTheFrontCommand : Prop :=
  ∀ (s : State) (i : Instr) (l : List Instr), s.pending = i :: l → step s = exec i { s with pending := l }

/-- With no command waiting a step passes one period. On an empty queue device time advances by one period of 2.5 ns, with
a wrap counted where it returns to 0, while the core is out of reset, each running blanking of a port and of an
auxiliary channel loses one period, a channel whose blanking has ended and whose limit is over is cut, and nothing
happens in PARKED and WAKING. That the tick is what an empty queue does is the model's own choice (log 2). (R14, R233,
R271) -/
def Obligations.IdleStepPassesOnePeriod : Prop :=
  ∀ (s : State), s.pending = [] →
    (s.alive = false → step s = .next s) ∧
    (s.alive = true → step s = .next (s.after
      ((List.range 4).foldl (fun (c : Core) n => (c.modXch n (fun x => { x with blank := x.blank - 1 })).xCut n)
        { s.core with
          time := s.core.time + 1
          wraps := if s.core.time + 1 = 0 then s.core.wraps + 1 else s.core.wraps
          guards := s.core.guards.map (fun g => { g with blankLeft := g.blankLeft - 1 }) })))

/-- Every well-formed command answers a next state. A command whose page and offset are of 8 bits with an offset that is a
multiple of 4 answers a next state in every state; a command that is not well formed, which no port can carry, stops
with the fault illFormed (log 3). (R6, Register addressing and access) -/
def Obligations.EveryWellFormedCommandCompletes : Prop :=
  ∀ (i : Instr) (s : State),
    (i.wellFormed = true → ∃ t, exec i s = .next t) ∧
    (i.wellFormed = false → exec i s = .fault .illFormed)

/-- A command leaves the queue of waiting commands as it is. exec changes everything but the queue: whatever command
answers a next state, the commands that wait are the same. (95_what_each_step_holds.md) -/
def Obligations.CommandsKeepTheQueue : Prop :=
  ∀ (i : Instr) (s t : State), exec i s = .next t → t.pending = s.pending

/-- No step takes a burned OTP bit back. The OTP memory is one-time programmable: from any state, a bit of any of its 64
words that is 1 is still 1 after a step, whatever command it carries out, resets and supply losses included. (R386,
R387, R392, R371) -/
def Obligations.BurnedOtpBitsStayBurned : Prop :=
  ∀ (s t : State) (i : Nat), step s = .next t → s.otp i &&& t.otp i = s.otp i

/-- Every step keeps the flash in its canonical form. The flash area lists its programmed bytes with rising addresses and
no byte that reads as an erased one. From every state whose flash has that form, reached or not, a step leaves a flash
of that form. (R371, Nonvolatile Store and Security) -/
def Obligations.FlashStaysCanonical : Prop :=
  ∀ (s t : State), s.st.flashWf = true → step s = .next t → t.st.flashWf = true

/-- Only a loss of supply can take a copy of the GRAVE latch away. Whatever command is carried out, but a supply rising or
falling, the supplies above their thresholds stay as they are, each of the two copies of the GRAVE latch that is set
stays set, and while the latch is set FLT_GRAVE and FLT_GRAVET keep the first message and its time. So a release, a
software reset, an RST_N reset and a BOOT leave the latch set. (R338, R400) -/
def Obligations.GraveLatchSurvivesCommands : Prop :=
  ∀ (i : Instr) (s t : State), ofSupply i = false → exec i s = .next t →
    t.pw.good = s.pw.good ∧
    (s.pw.graveD = true → t.pw.graveD = true) ∧
    (s.pw.graveV = true → t.pw.graveV = true) ∧
    (s.pw.grave = true → t.pw.graveMsg = s.pw.graveMsg ∧ t.pw.graveTime = s.pw.graveTime)

/-- The state right after reset. After a VKEEP power-on the device is PARKED with its core held in reset, device time 0,
no fault latched, nothing waiting, and both memories in their canonical form with nothing listed. Every field of every
page reads its reset value, and every event counter 0. What the spec gives no value for is named in logs 4 and 13.
(R14, R25, R27, R32, R338, R371, R403, R407) -/
def Obligations.ResetState : Prop :=
  State.reset.pw.pstate = .parked ∧ State.reset.alive = false ∧ State.reset.core.time = 0 ∧
  State.reset.pw.grave = false ∧ State.reset.pw.mainen = false ∧ State.reset.pending = [] ∧
  State.reset.st.flash = [] ∧ State.reset.memWf = true ∧ State.reset.queueWf = true ∧
  (∀ n, (State.reset.core.rail n).rstate = .off) ∧ (∀ k, (State.reset.core.port k).pwm = .mid) ∧
  (∀ pg k, kindOf pg = some k → ∀ f ∈ fieldsOf k, State.reset.core.fld pg f = f.rst)

/-- A field written reads back, and every other field of every page is kept. For any two different fields of the register
tables, replacing one makes it read as the value's low bits and leaves the other as it was; a field of another page is
left as well. So no two fields of the map share a bit. (R5, R6, R25, R98, R134) -/
def Obligations.RegisterFieldsReadBack : Prop :=
  ∀ (c : Core) (pg : Nat) (k : PageKind), kindOf pg = some k → ∀ f ∈ fieldsOf k, ∀ v : Nat,
    (c.setFld pg f v).fld pg f = v % 2 ^ f.len ∧
    (∀ g ∈ fieldsOf k, g ≠ f → (c.setFld pg f v).fld pg g = c.fld pg g) ∧
    (∀ p k', kindOf p = some k' → p ≠ pg → ∀ g ∈ fieldsOf k', (c.setFld pg f v).fld p g = c.fld p g)

/-- What a register write does to each field. Of the fields of the register written, an RW field and an RWL field whose
lock group is open take the value (limited as storedAs says, log 33), and an RWL field of a closed group, an RO, a
W1C, a W1S and an AU field are left; the fields of every other register are left. Stated of the write that every page
shares; what a page adds is its chapter's. (R7, R9, R10, R29) -/
def Obligations.WritesReachTheOpenFields : Prop :=
  ∀ (c : Core) (pg off : Nat) (w : Word) (k : PageKind), kindOf pg = some k → ∀ f ∈ fieldsOf k,
    (c.putFields pg k off w).fld pg f =
      (if f.off ≠ off then c.fld pg f
       else match f.acc with
        | .rw => storedAs k f (getBits w f.lo f.len) % 2 ^ f.len
        | .rwl g => if bitOf (c.reg pg 0x18) g then c.fld pg f else storedAs k f (getBits w f.lo f.len) % 2 ^ f.len
        | .ro | .w1c | .w1s | .au => c.fld pg f)

/-- What a page reset does to each register of its page. A page reset returns every field that the chapter names to its
reset value, but an RWL field of a closed lock group; fields that the chapter keeps stay. A STKY bit stays set exactly
where it stood at 1 and the level of its condition is present, IEN returns to its reset value, EVC.COUNT reads 0, and
the locks and the present levels stay. The model's choice in it: a STKY bit stays at 1 where its level is present,
read from R26 by inference (log 14). (R25, R26, R29, R417) -/
def Obligations.PageResetReturnsFields : Prop :=
  ∀ (c : Core) (pg : Nat) (keep : Field → Bool) (k : PageKind), kindOf pg = some k →
    (∀ f ∈ fieldsOf k, (c.resetPage pg keep).fld pg f = if keep f || c.locked pg f then c.fld pg f else f.rst) ∧
    (c.resetPage pg keep).reg pg 0x0C = c.reg pg 0x0C &&& c.reg pg 0x08 ∧ (c.resetPage pg keep).reg pg 0x08 = c.reg pg 0x08 ∧
    (c.resetPage pg keep).reg pg 0x10 = BitVec.ofNat 32 (ienReset k) ∧ (c.resetPage pg keep).reg pg 0x18 = c.reg pg 0x18 ∧
    (c.resetPage pg keep).fld pg H_EVC_COUNT = 0

/-- How a condition's bit is set, held and cleared, and what EVC counts. For every page and every bit of its head, an
event that finds its STKY bit at 0 sets it and counts 1, saturating at 0xFFFF; one that finds it at 1 changes nothing.
A level that rises is such an event and one that falls leaves STKY. A clear write that meets an event of the same
instant leaves the bit at 1 and counts 2; one that meets a present level leaves it at 1 and counts 1; any other clears
it and counts nothing. Every other bit of STKY and every other condition's level is left. (R8, R26, R27) -/
def Obligations.StickyBitsAndEventCounts : Prop :=
  ∀ (c : Core) (pg bit : Nat), bit < 32 →
    let n := c.fld pg H_EVC_COUNT
    (c.stky pg bit = false → (c.raise pg bit).stky pg bit = true ∧ (c.raise pg bit).fld pg H_EVC_COUNT = min 0xFFFF (n + 1)) ∧
    (c.stky pg bit = true → c.raise pg bit = c) ∧
    (c.stat pg bit = false → (c.setLevel pg bit true).stat pg bit = true ∧ (c.setLevel pg bit true).stky pg bit = true) ∧
    ((c.setLevel pg bit false).stat pg bit = false ∧ (c.setLevel pg bit false).stky pg bit = c.stky pg bit ∧
      (c.setLevel pg bit false).fld pg H_EVC_COUNT = n) ∧
    ((c.clearSticky pg bit true).stky pg bit = true ∧ (c.clearSticky pg bit true).fld pg H_EVC_COUNT = min 0xFFFF (n + 2)) ∧
    (c.stat pg bit = true → c.stky pg bit = true →
      (c.clearSticky pg bit false).stky pg bit = true ∧ (c.clearSticky pg bit false).fld pg H_EVC_COUNT = min 0xFFFF (n + 1)) ∧
    (c.stat pg bit = false →
      (c.clearSticky pg bit false).stky pg bit = false ∧ (c.clearSticky pg bit false).fld pg H_EVC_COUNT = n) ∧
    (∀ b, b ≠ bit →
      (c.raise pg bit).stky pg b = c.stky pg b ∧ (∀ x, (c.clearSticky pg bit x).stky pg b = c.stky pg b) ∧
      (∀ x, (c.setLevel pg bit x).stat pg b = c.stat pg b ∧ (c.setLevel pg bit x).stky pg b = c.stky pg b))

/-- Writes to the page head complete. With the paths of service open and on an implemented page: a write of 1s to STKY is
a clear write of each condition bit, in rising order, with the events of the same instant; a write of 1s to FLT_SSTKi
clears the sticky bits of its sources, each with the message of the same instant; a write to EVC.CLR clears the count
and the increments of the same instant land after it; a write to FRC forces each condition bit while FRCLK is 0 and
does nothing while it is 1; a write to LCK closes groups and opens none; and a write to a register of the THM page
beyond its head reaches the fields of WritesReachTheOpenFields, and restarts the history of the stage temperatures
when it changes RRK. TRP_STKY is left out of the first clause: its clear also acts on the crowbars and trip groups,
which CrowbarHiccupAndTrips states. On a page that is not implemented a write over JTAG changes nothing. (R7, R8, R10,
R26, R27, R28, R29) -/
def Obligations.HeadRegisterWrites : Prop :=
  ∀ (s : State), s.serviceRuns = true → ∀ (pg : Nat) (k : PageKind), kindOf pg = some k →
    (∀ mask coinc : Word, pg ≠ pgTRP →
      exec (.stkyClear pg 0x0C mask coinc) s =
        .next (s.after ((bitsOf (mask &&& BitVec.ofNat 32 (condMask k))).foldl
          (fun (c : Core) b => c.clearSticky pg b (bitOf coinc b)) s.core))) ∧
    (∀ (i : Fin 3) (mask coinc : Word), exec (.stkyClear pgFLT (0x24 + 4 * i) mask coinc) s =
      .next ({ s with core := s.core.clearSstk i mask coinc } : State).syncFlt.rest) ∧
    (∀ incs : Nat,
      exec (.evcClear pg incs) s = .next (s.after ((s.core.setFld pg H_EVC_COUNT 0).incSat pg H_EVC_COUNT incs))) ∧
    (∀ mask : Word, bitOf (s.core.reg pg 0x18) 4 = true → exec (.frcForce pg mask) s = .next (s.wrote s.core)) ∧
    (∀ mask : Word, bitOf (s.core.reg pg 0x18) 4 = false →
      exec (.frcForce pg mask) s = .next (s.wrote ((bitsOf (mask &&& BitVec.ofNat 32 (condMask k))).foldl
        (fun (c : Core) b => c.forceBit pg k b) s.core))) ∧
    (∀ v : Word, exec (.lockWrite pg v) s = .next (s.wrote (s.core.setReg pg 0x18 (s.core.reg pg 0x18 ||| (v &&& 0x1F))))) ∧
    (∀ (off : Nat) (v : Word), addrOk pgTHM off = true → 0x20 ≤ off →
      exec (.regWrite .spi pgTHM off v) s = .next (s.wrote ((s.core.putFields pgTHM .thm off v).rrkWritten s.core))) ∧
    (∀ (q off : Nat) (v : Word), addrOk q off = true → kindOf q = none →
      exec (.regWrite .jtag q off v) s = .next s.frameEnd)

/-- Page resets complete. With the paths of service open, PRST of each page has the effect that its chapter gives. DEV:
every field but the one at offset 0x34; a port: Pk_TON, Pk_FIRES and Pk_IDRES; an engine: En_LAT, En_FIRES and the
snapshot; ORP: the queue and its count; a rail, in any state: its hiccup wait ends, a rail neither OFF nor SAFE is
turned off at once, then its page comes back with its integrator cleared, its goal and its target count following;
HST: the reset is due, and is carried out at once when no frame is in progress; CMD, a context or a tag: the engine
reset, at once when no read is in progress and due otherwise, with PRST of that page reading 1 until then; SEC: the
key registers and SEC_CFG; NVM: its operation registers and NVM_CFG, a host operation ending with its sector or page;
BKH: the program stops, the record queue and the pins come back; LNK, AUX, RPR; CMP, with the always-on copies
following; TRP; TLM; CRB with its bytes; THM with a round begun again; FLT with its sticky bits and hold sets kept;
FSV while none of its lock groups is closed. Fields of a locked group keep their values (Core.resetPage). The model's
choices in it, read from the manual: Vn_REF and what log 44 lists stay, and the HST reset at the end of a frame (log
53). (R62, R92, R99, R134, R170, R182, R256, R258, R314, R342, R397, R399) -/
def Obligations.PageResetCommands : Prop :=
  ∀ (s : State), s.serviceRuns = true →
    (∀ k : Fin 24, exec (.pageReset (pgP k)) s = .next (s.wrote
      (s.core.resetPage (pgP k) (fun f => !(f.off = 0x40 || f.off = 0x48 || f.off = 0x38))))) ∧
    exec (.pageReset pgORP) s = .next (s.wrote
      ((({ s.core with cmd := { s.core.cmd with orp := [] } }).setFld pgORP ORP_LOST_COUNT 0).resetPage pgORP (fun _ => true))) ∧
    exec (.pageReset pgDEV) s = .next (s.wrote (s.core.resetPage pgDEV (fun f => !(f.off = 0x34)))) ∧
    (∀ j : Fin 10, exec (.pageReset (pgE j)) s = .next (s.wrote (s.core.resetPage (pgE j) (fun f => !(0x24 ≤ f.off))))) ∧
    (∀ n : Fin 8, exec (.railPageReset n) s = .next (s.wrote (
      let c := if s.core.flag pgTRP (TRP_RST_HICW n) then s.core.hicCancel n else s.core
      let c := if (c.rail n).rstate = .off || (c.rail n).rstate = .safe then c
        else (((c.modRail n (fun r => { r with rstate := .off })).endVolts n stFAILED cdRAILOFF).endPhases n stFAILED cdRAILOFF).enterOff n
      (((c.resetPage (pgV n) (fun f => f.off = 0x4C)).modRail n
        (fun r => { r with yAcc := 0, kstart := 0, droop := 0 })).rearb n 0).retarget n false))) ∧
    (∀ pg : Nat, kindOf pg = some .ctx ∨ kindOf pg = some .tag →
      exec (.pageReset pg) s = .next (s.wrote (if s.core.readsOn ≠ 0 then
        { s.core with cmd := { s.core.cmd with resetDue := true, resetPgs := pg :: s.core.cmd.resetPgs } } else s.core.cmdResetNow))) ∧
    (s.core.readsOn ≠ 0 → exec .cmdEngineReset s = .next (s.wrote
      { s.core with cmd := { s.core.cmd with resetDue := true, resetPgs := pgCMD :: s.core.cmd.resetPgs } })) ∧
    exec (.pageReset pgSEC) s = .next (s.wrote
      ([SEC_KLD_KEY 0, SEC_KLD_KEY 1, SEC_KLD_KEY 2, SEC_KLD_KEY 3, SEC_CFG_RSK, SEC_CFG_HOLDT, SEC_CFG_DECAY].foldl
        (fun (c : Core) f => if c.locked pgSEC f then c else c.setFld pgSEC f f.rst) s.core)) ∧
    exec (.pageReset pgNVM) s = .next (s.wrote (
      let c := ([NVM_OPADDR_OFFSET, NVM_OPADDR_AREA, NVM_OP_OP, NVM_CFG_SCRUBP, NVM_CFG_RETN] ++ (List.range 8).map NVM_BUF_DATA).foldl
        (fun (c : Core) f => if c.locked pgNVM f then c else c.setFld pgNVM f f.rst) s.core
      let erases := c.nvm.erases.take 1 ++ (c.nvm.erases.drop 1).filter (fun p => p.2 ≠ .host)
      let host := match c.nvm.host with
        | some h => if (if h.op = 2 then erases.any (fun p => p.2 = .host) else h.begun) then some h else none
        | none => none
      let c := { c with nvm := { c.nvm with erases := erases, host := host } }
      if host.isNone then c.setFld pgNVM NVM_OP_BUSY 0 else c)) ∧
    exec (.pageReset pgBKH) s = .next ((s.abortProg.onCore (fun c =>
      let c := { c with bkh := { c.bkh with queue := c.bkh.queue.filter (fun r => r.begun) } }.syncPend
      let b := c.bkh
      let c := { c with bkh := { b with watch := 0, prog := if b.running then b.prog else 0, step := if b.running then b.step else 0 } }
      (c.resetPage pgBKH (fun f => [0x44, 0x48, 0x50, 0x54, 0x60].contains f.off)).showProg.syncWatch)).rest.frameEnd) ∧
    exec (.pageReset pgLNK) s = .next (s.wrote s.core.lnkPageReset) ∧
    exec (.pageReset pgAUX) s = .next (s.wrote s.core.auxPageReset) ∧
    exec (.pageReset pgRPR) s = .next (s.wrote (s.core.resetPage pgRPR (fun f => f.off ≠ 0x04 && f.off ≠ 0x20 && f.off ≠ 0x4C))) ∧
    exec (.pageReset pgFSV) s = .next ((if getBits (s.core.reg pgFSV 0x18) 0 4 ≠ 0 then s
      else (s.onCore (fun c => c.resetPage pgFSV (fun _ => false))).syncFlt).rest.frameEnd) ∧
    exec .hstPageReset s = .next (s.wrote { s.core with hst := { s.core.hst with resetDue := true } }) ∧
    (∀ t : State, t.core.hst.stream = none → t.core.hst.resetDue = true → t.core.hst.swrstDue = false →
      t.frameEnd = { t with core :=
        let c := t.core.resetPage pgHST (fun f => !(0x24 ≤ f.off && f.off < 0x60))
        { c with hst := { c.hst with resetDue := false } } }) ∧
    (s.core.readsOn = 0 →
      exec .cmdEngineReset s = .next (s.wrote s.core.cmdResetNow)) ∧
    exec .cmpPageReset s = .next
      ((({ s with core := s.core.cmpPageReset.xSides } : State).copyThr.rest).frameEnd) ∧
    exec .trpPageReset s = .next (s.wrote s.core.trpPageReset) ∧
    exec .tlmPageReset s = .next (s.wrote
      (let c := s.core.resetPage pgTLM (fun _ => false)
       { c with tlm := { ({} : Tlm) with vin := c.tlm.vin, steer := c.tlm.steer, acc := c.tlm.acc, pacc := c.tlm.pacc, base := c.tlm.base } })) ∧
    exec .crbPageReset s = .next (s.wrote ((({ s.core with crb := {} }).syncFull).resetPage pgCRB (fun _ => false))) ∧
    exec .thmPageReset s = .next (s.wrote ((s.core.resetPage pgTHM (fun _ => false)).thmClear.thmStart)) ∧
    exec .fltPageReset s = .next ((({ s with core :=
      ({ s.core.resetPage pgFLT (fun f => 0x24 ≤ f.off && f.off < 0x3C) with flt := { s.core.flt with snap := [] } } : Core).setFld pgFLT FLT_LATCH_MAXDEPTH s.core.flt.latch.length } : State).syncFlt.rest).frameEnd)

/-- SPI read frames complete. While the port is open and no frame waits in a slot, a read frame whose CRC and header are
good is answered with at most four wait bytes, STATUS, the words and RCRC, each word read in turn with its side
effect: one word in single mode, CNT + 1 rising offsets in burst mode. In stream mode a slot is 0xA5 and its word; a
slot whose port has no item waits. (R35, R37, R38, R40, R43, R44, R45) -/
def Obligations.SpiReadFrames : Prop :=
  ∀ (s : State) (cmd pg off hcrc : Byte) (waits : Nat), s.regOpen = true → s.core.hst.stream = none →
    crc8 [cmd, pg, off] = hcrc → frameBad cmd off = false → cmdWr cmd = false → (kindOf pg.toNat).isSome = true →
    let st := s.spiStatus false false false false
    (cmdMode cmd = 0 →
      exec (.spiReadSingle cmd pg off hcrc waits) s =
        .next (let r := s.readReg .spi pg.toNat off.toNat
               (r.2.spiEnd (waitBytes (min 4 waits) ++ [st] ++ wordBytes r.1 ++ [crc8 (st :: wordBytes r.1)]) false).frameEnd)) ∧
    (cmdMode cmd = 1 →
      exec (.spiReadBurst cmd pg off hcrc waits) s =
        .next (let r := s.readWords pg.toNat ((List.range (cmdCnt cmd + 1)).map (fun i => off.toNat + 4 * i))
               (r.2.spiEnd (waitBytes (min 4 waits) ++ [st] ++ r.1 ++ [crc8 (st :: r.1)]) false).frameEnd)) ∧
    (cmdMode cmd = 2 → s.core.streamPort pg.toNat off.toNat = some false →
      exec (.spiReadStream cmd pg off hcrc waits) s =
        .next { s with core := { s.core with hst := { s.core.hst with
          miso := waitBytes waits ++ [st]
          stream := some ⟨pg.toNat, off.toNat, cmdCnt cmd + 1⟩ } } }) ∧
    (cmdMode cmd = 2 → cmdCnt cmd = 0 → s.core.streamPort pg.toNat off.toNat ≠ some false →
      exec (.spiReadStream cmd pg off hcrc waits) s =
        .next (let r := s.readReg .spi pg.toNat off.toNat
               let out := waitBytes waits ++ [st] ++ [0xA5#8] ++ wordBytes r.1
               (r.2.spiEnd (out ++ [crc8 (fromStatus out)]) false).frameEnd))

/-- Refused headers, frames cut short and waiting slots. A header whose CRC fails sets SPI_HCRC and counts in HCRCCNT, one
that no frame may carry sets SPI_FRAME, and nothing is read or written: the answer is STATUS and 0x00 in every later
slot of the frame. A frame that ends before its header is whole while no frame waits sets SPI_ABORT and PREV_ABORT of
the next, and a waiting frame that is cut short does so once the words that went out whole have been read. A waiting
slot is filled when its port has an item before WAITMAX wait bytes have gone by; at WAITMAX the slot and every slot
after it is abandoned with 0x5A and SPI_STRABN. The model's choice in it: how many slots of 0x00 a refused frame has
after STATUS (log 90). (R33, R38, R39, R40, R42, R45) -/
def Obligations.SpiFramesRefusedAbortedOrWaiting : Prop :=
  ∀ (s : State), s.regOpen = true →
    (∀ (cmd pg off hcrc : Byte) (waits : Nat), s.core.hst.stream = none → crc8 [cmd, pg, off] ≠ hcrc → frameBad cmd off = false →
      let t : State := { s with core := (s.core.raise pgHST 0).incSat pgHST HST_SPICNT_HCRCCNT 1 }
      exec (.spiReadSingle cmd pg off hcrc waits) s = .next (t.spiEnd (t.spiStatus true false false false :: List.replicate (4 * (cmdCnt cmd + 1) + 1) 0#8) false)) ∧
    (∀ (cmd pg off hcrc : Byte) (data : List Byte) (dcrc : Byte), s.core.hst.stream = none → crc8 [cmd, pg, off] = hcrc →
      frameBad cmd off = true →
      let t : State := { s with core := s.core.raise pgHST 2 }
      exec (.spiWriteSingle cmd pg off hcrc data dcrc) s = .next (t.spiEnd (t.spiStatus false false false true :: List.replicate (data.length + 2) 0#8) false)) ∧
    (∀ (hdr : List Byte) (words : Nat) (bad : Bool), s.core.hst.stream = none → hdr.length < 4 →
      exec (.spiFrameAbort hdr words bad) s = .next
        ((({ s with core := s.core.raise pgHST 4 } : State).spiEnd [] true).frameEnd)) ∧
    (∀ (hdr : List Byte) (pg off left words : Nat) (bad : Bool), s.core.hst.stream = some ⟨pg, off, left⟩ →
      exec (.spiFrameAbort hdr words bad) s = .next
        (let t := (s.fillSlots pg off (min words left) []).2.2
         (({ t with core := t.core.raise pgHST 4 } : State).spiEnd [] true).frameEnd)) ∧
    (∀ (pg off waits : Nat), s.core.hst.stream = some ⟨pg, off, 1⟩ → 1 ≤ waits → waits < s.core.waitMax →
      s.core.streamPort pg off = some true →
      exec (.spiStreamSlotFill waits) s = .next
        (let r := s.readReg .spi pg off
         let out := s.core.hst.miso ++ waitBytes waits ++ [0xA5#8] ++ wordBytes r.1
         (r.2.spiEnd (out ++ [crc8 (fromStatus out)]) false).frameEnd)) ∧
    (∀ (pg off left : Nat), s.core.hst.stream = some ⟨pg, off, left⟩ → s.core.streamPort pg off = some false →
      exec .spiStrabn s = .next
        (let out := s.core.hst.miso ++ waitBytes s.core.waitMax ++ (List.replicate left ([0x5A#8, 0#8, 0#8, 0#8, 0#8] : List Byte)).flatten
         (({ s with core := s.core.raise pgHST 5 } : State).spiEnd (out ++ [crc8 (fromStatus out)]) false).frameEnd))

/-- SPI write frames complete. While the port is open and no frame waits in a slot, a write frame with a good header
carries 0xFF while its data and DCRC are sent and is answered with STATUS and SCRC, and if DCRC matches, its words are
written in order of rising offset, each as one word access; a DCRC that fails sets SPI_DCRC, counts in DCRCCNT, and
nothing is written. The model's choices in it: STATUS shows the state before the writes (log 55), and the slot of DCRC
carries 0xFF (log 90). (R33, R37, R38, R40, R41) -/
def Obligations.SpiWriteFrames : Prop :=
  ∀ (s : State) (cmd pg off hcrc : Byte) (data : List Byte) (dcrc : Byte), s.regOpen = true → s.core.hst.stream = none →
    crc8 [cmd, pg, off] = hcrc → frameBad cmd off = false → cmdWr cmd = true → (kindOf pg.toNat).isSome = true →
    data.length = 4 * (cmdCnt cmd + 1) →
    let st := s.spiStatus false false false false
    let t := s.spiEnd (waitBytes (data.length + 1) ++ [st, crc8 [st]]) false
    (cmdMode cmd = 0 → crc8 data = dcrc →
      exec (.spiWriteSingle cmd pg off hcrc data dcrc) s =
        .next (t.hostWrite .spi pg.toNat off.toNat (bytesWord (data.take 4))).frameEnd) ∧
    (cmdMode cmd = 1 → crc8 data = dcrc →
      exec (.spiWriteBurst cmd pg off hcrc data dcrc) s =
        .next (t.writeWords .spi pg.toNat ((List.range (cmdCnt cmd + 1)).map (fun i => off.toNat + 4 * i)) data).frameEnd) ∧
    (∀ (o : Nat) (l : List Nat), t.regOpen = true →
      t.writeWords .spi pg.toNat (o :: l) data =
        (t.hostWrite .spi pg.toNat o (bytesWord (data.take 4))).writeWords .spi pg.toNat l (data.drop 4)) ∧
    (cmdMode cmd = 1 → crc8 data ≠ dcrc →
      exec (.spiWriteBurst cmd pg off hcrc data dcrc) s =
        .next (let u : State := { s with core := (s.core.raise pgHST 1).incSat pgHST HST_SPICNT_DCRCCNT 1 }
               let st := u.spiStatus false true false false
               (u.spiEnd (waitBytes (data.length + 1) ++ [st, crc8 [st]]) false).frameEnd))

/-- PMBus reads complete. With the SMBus port open and PAGE at a rail, each read of R52 answers its bytes, with the PEC
appended where the host clocks one byte more, and changes nothing else: the fixed values, the strings, the sticky bits
of R343 in their places, the host view of the rail's channels in LINEAR11, or DIRECT for READ_VOUT, PAGE and
WRITE_PROTECT, and for a command that can also be written the field it names: the target and the limit of the
reference in DIRECT, its slew rate in LINEAR11, and the voltage, current, temperature and input limits in the units of
R254 and R319. With PAGE at 0xFF every rail command reads 0xFF in every byte and sets STATUS_CML bit 6.
MFR_WINDOW_ADDR, the window and MFR_FLEET_REPORT are in SmbusCommandsAndWindow. The model's choices in it: OPERATION
reads as the last of its codes would leave EN and SOFTOFF (log 35), and the slew rate reads with an exponent of -8 or
more (log 82). (R52, R53, R54, R55, R56, R254, R287, R317, R319, R343) -/
def Obligations.PmbusReadCommands : Prop :=
  ∀ (s : State) (n : Nat) (pec : Bool), s.serviceRuns = true → s.core.fld pgHST HST_PMBPAGE_PAGE = n →
    let ans (code : Byte) (l : List Byte) : Host.Outcome State Fault Refusal := .next (s.answered (s.core.smbBytes code pec l))
    let lin (ch unit : Nat) (lo : Int) : List Byte := toLeBytes 2 (lin11 ((s.core.hostView ch : Rat) / unit) lo)
    let b := s.core.vinsel n
    let c := s.core
    let thr (i lo : Nat) : Nat := getBits (c.reg pgCMP (0x20 + 4 * (i / 2))) (16 * (i % 2) + lo) 8
    let volts (lo : Nat) : Rat := ((thr (32 + b) lo * c.vinDiv b * 5 : Nat) : Rat) / 16000
    let rails : List (Instr × Nat) :=
      [(.operationOn (.read pec), 0x01), (.onOffConfig (.read pec), 0x02), (.voutMode (.read pec), 0x20), (.statusByte (.read pec), 0x78),
       (.statusVout (.read pec), 0x7A), (.statusIout (.read pec), 0x7B), (.statusInput (.read pec), 0x7C), (.statusTemperature (.read pec), 0x7D)]
    let words : List (Instr × Nat) :=
      [(.voutCommand (.read pec), 0x21), (.voutMax (.read pec), 0x24), (.voutTransitionRate (.read pec), 0x27), (.voutOvFaultLimit (.read pec), 0x40),
       (.voutUvFaultLimit (.read pec), 0x44), (.ioutOcFaultLimit (.read pec), 0x46), (.otFaultLimit (.read pec), 0x4F), (.vinOvFaultLimit (.read pec), 0x55),
       (.vinUvFaultLimit (.read pec), 0x59), (.statusWord (.read pec), 0x79), (.readVin (.read pec), 0x88), (.readIin (.read pec), 0x89),
       (.readVout (.read pec), 0x8B), (.readIout (.read pec), 0x8C), (.readTemperature1 (.read pec), 0x8D), (.readPout (.read pec), 0x96)]
    (n ≠ 0xFF →
      exec (.operationOn (.read pec)) s = ans 0x01 [if c.flag (pgV n) V_CTRL_EN then 0x80 else if c.flag (pgV n) V_CTRL_SOFTOFF then 0x40 else 0x00] ∧
      exec (.voutCommand (.read pec)) s = ans 0x21 (toLeBytes 2 (c.fld (pgV n) V_TARGET_CODE)) ∧
      exec (.voutMax (.read pec)) s = ans 0x24 (toLeBytes 2 (c.fld (pgV n) V_VMAX_CODE)) ∧
      exec (.voutTransitionRate (.read pec)) s = ans 0x27 (toLeBytes 2 (lin11 ((c.fld (pgV n) V_SLEW_RATE : Nat) / 8 : Rat) (-8))) ∧
      exec (.voutOvFaultLimit (.read pec)) s = ans 0x40 (toLeBytes 2 (16 * thr n 8)) ∧
      exec (.voutUvFaultLimit (.read pec)) s = ans 0x44 (toLeBytes 2 (16 * thr n 0)) ∧
      exec (.ioutOcFaultLimit (.read pec)) s = ans 0x46 (toLeBytes 2 (lin11 (c.fld pgTRP (TRP_ROC_ROCLIM n) : Nat) (-6))) ∧
      exec (.otFaultLimit (.read pec)) s = ans 0x4F (toLeBytes 2 (lin11 (c.fld pgTHM (THM_OTL_OT n) : Nat) (-2))) ∧
      exec (.vinOvFaultLimit (.read pec)) s = ans 0x55 (toLeBytes 2 (lin11 (volts 8) (-8))) ∧
      exec (.vinUvFaultLimit (.read pec)) s = ans 0x59 (toLeBytes 2 (lin11 (volts 0) (-8))) ∧
      exec (.onOffConfig (.read pec)) s = ans 0x02 [0x18] ∧ exec (.voutMode (.read pec)) s = ans 0x20 [0x40] ∧
      exec (.statusVout (.read pec)) s = ans 0x7A [BitVec.ofNat 8 (2 ^ 7 * b2n (c.stky pgCMP n) + 2 ^ 4 * b2n (c.stky pgCMP (8 + n)) +
        2 ^ 2 * b2n (c.stky (pgV n) 8))] ∧
      exec (.statusIout (.read pec)) s = ans 0x7B [BitVec.ofNat 8 (2 ^ 7 * b2n (c.stky pgCMP (16 + n)) + 2 ^ 5 * b2n (c.stky pgTRP (24 + n)) +
        2 ^ 3 * b2n (c.stky (pgV n) 24))] ∧
      exec (.statusInput (.read pec)) s = ans 0x7C [BitVec.ofNat 8 (2 ^ 7 * b2n (c.stky pgCMP (26 + b)) + 2 ^ 4 * b2n (c.stky pgCMP (24 + b)))] ∧
      exec (.statusTemperature (.read pec)) s = ans 0x7D [BitVec.ofNat 8 (2 ^ 7 * b2n (c.stky pgTHM (24 + n)) + 2 ^ 6 * b2n (c.stky pgTHM (16 + n)))] ∧
      exec (.statusByte (.read pec)) s = ans 0x78 [BitVec.ofNat 8
        (let st := (c.rail n).rstate
         let v := 2 ^ 6 * b2n (st ≠ .hold && st ≠ .slew) + 2 ^ 5 * b2n (c.stky pgCMP n) + 2 ^ 4 * b2n (c.stky pgCMP (16 + n)) +
           2 ^ 3 * b2n (c.stky pgCMP (24 + b)) + 2 ^ 2 * b2n (c.stky pgTHM (16 + n) || c.stky pgTHM (24 + n)) +
           2 ^ 1 * b2n (c.fld pgHST HST_CML_CML ≠ 0)
         v + b2n (v = 0 && (c.stky (pgV n) 9 || c.stky pgTRP n)))] ∧
      exec (.statusWord (.read pec)) s = ans 0x79 (toLeBytes 2
        (c.statusByte n + (2 ^ 15 * b2n (c.statusVout n ≠ 0) + 2 ^ 14 * b2n (c.statusIout n ≠ 0) + 2 ^ 13 * b2n (c.statusInput n ≠ 0) +
          2 ^ 11 * b2n (!c.stat (pgV n) 0) + 2 ^ 10 * b2n (c.stky pgAUX 24)))) ∧
      exec (.readVin (.read pec)) s = ans 0x88 (lin (0x50 + b) 2000 (-8)) ∧ exec (.readIin (.read pec)) s = ans 0x89 (lin (0x52 + b) 64 (-6)) ∧
      exec (.readVout (.read pec)) s = ans 0x8B (toLeBytes 2 (roundDiv (c.hostView n) 4).toNat) ∧
      exec (.readIout (.read pec)) s = ans 0x8C (lin (8 + n) 64 (-6)) ∧ exec (.readTemperature1 (.read pec)) s = ans 0x8D (lin (0x18 + n) 16 (-2)) ∧
      exec (.readPout (.read pec)) s = ans 0x96 (lin (0x10 + n) 64 (-3))) ∧
    exec (.capability (.read pec)) s = ans 0x19 [0xD0] ∧ exec (.pmbusRevision (.read pec)) s = ans 0x98 [0x44] ∧
    exec (.mfrId (.read pec)) s = ans 0x99 [4, 0x4F, 0x4C, 0x4D, 0x57] ∧
    exec (.mfrModel (.read pec)) s = ans 0x9A [7, 0x56, 0x59, 0x48, 0x32, 0x34, 0x30, 0x38] ∧ exec (.mfrRevision (.read pec)) s = ans 0x9B [2, 0x42, 0x31] ∧
    exec (.readTemperature2 (.read pec)) s = ans 0x8E (toLeBytes 2 (lin11 ((c.sfld pgTHM THM_TJ_TJ : Rat) / 16) (-2))) ∧
    exec (.statusCml (.read pec)) s = ans 0x7E [BitVec.ofNat 8 (c.fld pgHST HST_CML_CML)] ∧
    exec (.page (.read pec)) s = ans 0x00 [BitVec.ofNat 8 n] ∧
    exec (.writeProtect (.read pec)) s = ans 0x10 [wprotByte (c.fld pgHST HST_SMBCFG_WPROT)] ∧
    (n = 0xFF →
      (∀ x ∈ rails, exec x.1 s = .next { s with core :=
        (s.answered (s.core.smbBytes (BitVec.ofNat 8 x.2) pec [0xFF])).core.setCml 6 }) ∧
      (∀ x ∈ words, exec x.1 s = .next { s with core :=
        (s.answered (s.core.smbBytes (BitVec.ofNat 8 x.2) pec [0xFF, 0xFF])).core.setCml 6 }))

/-- PMBus writes complete. With the SMBus port open, a good PEC, no write protection and PAGE at a rail, a write of R52
acknowledges and has the effect of a host write of the field it names: PAGE, the enable of OPERATION (0x80, 0x40,
0x00), the target, limit and slew of the reference in their formats, WRITE_PROTECT's code, the comparator and trip
limits in their units, and CLEAR_FAULTS the sticky bits that the STATUS commands show. A PEC that fails discards the
write and counts, and an unsupported value is invalid data. (R50, R52, R53, R55, R56, R58, R63, R89, R254, R319, R343) -/
def Obligations.PmbusWriteCommands : Prop :=
  ∀ (s : State) (n : Fin 8) (pec : Pec), s.serviceRuns = true → s.core.pecBad pec = false → s.core.fld pgHST HST_SMBCFG_WPROT = 0 →
    s.core.fld pgHST HST_PMBPAGE_PAGE = n →
    let a : State := s.answered []
    let run (t : State) : Host.Outcome State Fault Refusal := .next (t.rest).frameEnd
    (∀ v : Byte, (v.toNat < 8 ∨ v = 0xFF) →
      exec (.page (.write [v] pec)) s = run { a with core := a.core.setFld pgHST HST_PMBPAGE_PAGE v.toNat }) ∧
    exec (.operationOn (.write [0x80] pec)) s =
      run { a with core := a.core.writeEn n true (s.core.flag (pgV n) V_CTRL_SOFTOFF) true } ∧
    exec (.operationSoftOff pec) s = run { a with core := a.core.writeEn n false true true } ∧
    exec (.operationImmediateOff pec) s = run { a with core := a.core.writeEn n false false true } ∧
    (∀ y : BitVec 16, 400 ≤ y.toNat → y.toNat ≤ 3600 →
      exec (.voutCommand (.write (toLeBytes 2 y.toNat) pec)) s = run (a.pmField (pgV n) V_TARGET_CODE y.toNat) ∧
      exec (.voutMax (.write (toLeBytes 2 y.toNat) pec)) s = run (a.pmField (pgV n) V_VMAX_CODE y.toNat)) ∧
    (∀ y : BitVec 16, y.toNat < 400 →
      exec (.voutCommand (.write (toLeBytes 2 y.toNat) pec)) s = run { a with core := (a.core.smbAnswer [] true).setCml 6 }) ∧
    (∀ y : BitVec 16, 1 / 2 ≤ linVal y.toNat → linVal y.toNat ≤ 80 →
      exec (.voutTransitionRate (.write (toLeBytes 2 y.toNat) pec)) s = run (a.pmField (pgV n) V_SLEW_RATE (roundRat (8 * linVal y.toNat)).toNat)) ∧
    (∀ k : Fin 4, exec (.writeProtect (.write [wprotByte k] pec)) s = run { a with core := a.core.setFld pgHST HST_SMBCFG_WPROT k }) ∧
    (∀ y : BitVec 16, 400 ≤ y.toNat → y.toNat ≤ 3600 → s.core.locked pgCMP (CMP_THR_LO0 (n / 2)) = true →
      exec (.voutOvFaultLimit (.write (toLeBytes 2 y.toNat) pec)) s = run a) ∧
    (let off := 0x20 + 4 * (n.val / 2)
     let w (hi : Bool) (y : BitVec 16) := setBits (s.core.reg pgCMP off) (16 * (n.val % 2) + 8 * b2n hi) 8 (roundDiv y.toNat 16).toNat
     ∀ y : BitVec 16, 400 ≤ y.toNat → y.toNat ≤ 3600 → s.core.locked pgCMP (CMP_THR_LO0 (n / 2)) = false →
      ((a.hostWrite .smb pgCMP off (w true y)).core.reg pgCMP off = w true y →
        exec (.voutOvFaultLimit (.write (toLeBytes 2 y.toNat) pec)) s = run (a.hostWrite .smb pgCMP off (w true y))) ∧
      ((a.hostWrite .smb pgCMP off (w false y)).core.reg pgCMP off = w false y →
        exec (.voutUvFaultLimit (.write (toLeBytes 2 y.toNat) pec)) s = run (a.hostWrite .smb pgCMP off (w false y)))) ∧
    (let b := s.core.vinsel n
     let off := 0x20 + 4 * ((32 + b) / 2)
     let code (y : BitVec 16) : Int := roundRat (linVal y.toNat * 16000 / ((s.core.vinDiv b * 5 : Nat) : Rat))
     let w (hi : Bool) (y : BitVec 16) := setBits (s.core.reg pgCMP off) (16 * ((32 + b) % 2) + 8 * b2n hi) 8 (code y).toNat
     ∀ y : BitVec 16, 0 ≤ code y → code y ≤ 255 → s.core.locked pgCMP (CMP_THR_LO0 ((32 + b) / 2)) = false →
      ((a.hostWrite .smb pgCMP off (w true y)).core.reg pgCMP off = w true y →
        exec (.vinOvFaultLimit (.write (toLeBytes 2 y.toNat) pec)) s = run (a.hostWrite .smb pgCMP off (w true y))) ∧
      ((a.hostWrite .smb pgCMP off (w false y)).core.reg pgCMP off = w false y →
        exec (.vinUvFaultLimit (.write (toLeBytes 2 y.toNat) pec)) s = run (a.hostWrite .smb pgCMP off (w false y)))) ∧
    (∀ y : BitVec 16, 0 ≤ linVal y.toNat → linVal y.toNat ≤ 255 →
      exec (.ioutOcFaultLimit (.write (toLeBytes 2 y.toNat) pec)) s = run (a.pmField pgTRP (TRP_ROC_ROCLIM n) (roundRat (linVal y.toNat)).toNat) ∧
      exec (.otFaultLimit (.write (toLeBytes 2 y.toNat) pec)) s = run (a.pmField pgTHM (THM_OTL_OT n) (roundRat (linVal y.toNat)).toNat)) ∧
    exec (.clearFaults pec) s = run { a with core :=
      ((a.core.statusBits n).foldl (fun (c : Core) p => c.clearStky p.1 (BitVec.ofNat 32 (2 ^ p.2)) 0) a.core).setReg pgHST 0x3C 0 } ∧
    (∀ data : List Byte, exec (.capability (.write data pec)) s = run { a with core := (a.core.smbAnswer [] true).setCml 6 }) ∧
    (∀ data, data ≠ [0x40] → data ≠ [0x00] →
      exec (.operationOn (.write data .bad)) s = .next { s with core := ((s.core.setCml 5).raise pgHST 6).incSat pgHST HST_SMBCNT_PECCNT 1 })

/-- SMBus events, the register window and the fleet report complete. With the SMBus port open: a clock-low timeout with
TOEN sets SMB_TO and counts, and without TOEN it changes nothing; an alert response that the device wins while it
drives ALERT_N and ARAEN is 1 answers the address and releases ALERT_N, and any other changes nothing; a code outside
R52 reads 0xFF for every byte that the host clocks, or is refused at its first data byte when written, with STATUS_CML
bit 7 either way; COEFFICIENTS answers five bytes for a DIRECT code, and for every other code it is invalid data, with
STATUS_CML bit 6 and bytes that the manual leaves open (log 6); MFR_WINDOW_ADDR is read, and written under any
WRITE_PROTECT; the window reads and writes the word at HST_WINADDR with the effects of a single access, with
STATUS_CML bit 6 where the page is not implemented, MFR_WINDOW_DATA_INC then advancing the offset by 4 modulo 256; a
window write of another byte count, or under WRITE_PROTECT, is invalid data; and MFR_FLEET_REPORT answers the report,
sets FRREAD, and a new report falls due, while its write is invalid data. A read carries its PEC where the host clocks
one byte more. The model's choice in it: the bytes that a PEC covers, taken from outside the manual (log 91). (R33,
R49, R50, R51, R53, R57, R58, R60, R366, R368) -/
def Obligations.SmbusCommandsAndWindow : Prop :=
  ∀ (s : State) (pec : Bool), s.serviceRuns = true →
    let ans (code : Byte) (t : State) (l : List Byte) : Host.Outcome State Fault Refusal := .next (t.answered (t.core.smbBytes code pec l))
    let invalid : Host.Outcome State Fault Refusal := .next ({ s with core := (s.answered []).core.invalid } : State).rest.frameEnd
    (s.core.flag pgHST HST_SMBCFG_TOEN = true →
      exec .smbTimeout s = .next (s.after ((s.core.raise pgHST 7).incSat pgHST HST_SMBCNT_TOCNT 1))) ∧
    (s.core.flag pgHST HST_SMBCFG_TOEN = false → exec .smbTimeout s = .next (s.after s.core)) ∧
    (s.core.flag pgHST HST_SMBCFG_ARAEN = true → s.alertPin = true →
      exec (.smbAlertResponse true pec) s =
        .next (({ s with core := { s.core with hst := { s.core.hst with alertRel := true } } } : State).answered
          (s.core.smbAddr false :: (if pec then [pecOf [0x19, s.core.smbAddr false]] else [])))) ∧
    (∀ won : Bool, won = false ∨ s.core.flag pgHST HST_SMBCFG_ARAEN = false ∨ s.alertPin = false →
      exec (.smbAlertResponse won pec) s = .next s) ∧
    (∀ code : Byte, pmCodes.contains code.toNat = false →
      (∀ bytes : Nat, exec (.pmbusUnsupported code (some bytes)) s = .next { s with core := (s.answered (List.replicate bytes 0xFF)).core.setCml 7 }) ∧
      exec (.pmbusUnsupported code none) s = .next { s with core := (s.core.smbAnswer [] false).setCml 7 }) ∧
    (∀ code rw : Byte,
      let l : List Byte := (List.range 5).map (fun i => Config.freeByte (s.core.free + i))
      exec (.coefficients code rw pec) s = .next
        (if code ∈ ([0x21, 0x24, 0x40, 0x44, 0x8B] : List Byte) then s.answered (s.core.coeffBytes code rw pec [5, 0xD0, 0x07, 0x00, 0x00, 0x00])
         else { s with core := (({ s.core with free := s.core.free + 5 }).smbAnswer (s.core.coeffBytes code rw pec l) true).setCml 6 })) ∧
    exec (.mfrWindowAddr (.read pec)) s = ans 0xD0 s (toLeBytes 2 (s.core.reg pgHST 0x34).toNat) ∧
    (∀ (b0 b1 : Byte) (p : Pec), s.core.pecBad p = false →
      exec (.mfrWindowAddr (.write [b0, b1] p)) s =
        .next ({ s with core := (s.answered []).core.putFields pgHST .hst 0x34 (BitVec.ofNat 32 (leBytes [b0, b1])) } : State).rest.frameEnd) ∧
    (let pg := s.core.fld pgHST HST_WINADDR_PAGE
     let off := s.core.fld pgHST HST_WINADDR_OFFSET
     let mark (t : State) : State := if (kindOf pg).isSome then t else { t with core := t.core.setCml 6 }
     let up4 (t : State) : State :=
       { t with core := t.core.setFld pgHST HST_WINADDR_OFFSET ((t.core.fld pgHST HST_WINADDR_OFFSET + 4) % 256) }
     (exec (.mfrWindowData (.read pec)) s = (let r := (mark s).readReg .smb pg off; ans 0xD1 r.2 (4 :: wordBytes r.1))) ∧
     (exec (.mfrWindowDataInc (.read pec)) s = (let r := (mark s).readReg .smb pg off; ans 0xD2 (up4 r.2) (4 :: wordBytes r.1))) ∧
     (∀ (b0 b1 b2 b3 : Byte) (p : Pec), s.core.pecBad p = false → s.core.fld pgHST HST_SMBCFG_WPROT = 0 →
       exec (.mfrWindowData (.write [b0, b1, b2, b3] p)) s =
         .next ((mark (s.answered [])).hostWrite .smb pg off (bytesWord [b0, b1, b2, b3])).rest.frameEnd ∧
       exec (.mfrWindowDataInc (.write [b0, b1, b2, b3] p)) s =
         .next (up4 ((mark (s.answered [])).hostWrite .smb pg off (bytesWord [b0, b1, b2, b3]))).rest.frameEnd)) ∧
    (∀ (data : List Byte) (p : Pec), s.core.pecBad p = false → s.core.fld pgHST HST_SMBCFG_WPROT = 0 → data.length ≠ 4 →
      exec (.mfrWindowData (.write data p)) s = invalid ∧ exec (.mfrWindowDataInc (.write data p)) s = invalid) ∧
    (∀ (data : List Byte) (p : Pec), s.core.pecBad p = false → s.core.fld pgHST HST_SMBCFG_WPROT ∈ [1, 2, 3] →
      exec (.mfrWindowData (.write data p)) s = .next { s with core := s.core.invalid } ∧
      exec (.mfrWindowDataInc (.write data p)) s = .next { s with core := s.core.invalid }) ∧
    exec (.mfrFleetReport (.read pec)) s = .next
      (({ s with core := ({ s.core with bkh := { s.core.bkh with reportDue := true } }).raise pgBKH 8 } : State).answered
        (s.core.smbBytes 0xD8 pec (96 :: s.core.bkh.report))) ∧
    (∀ (data : List Byte) (p : Pec), s.core.pecBad p = false → s.core.fld pgHST HST_SMBCFG_WPROT = 0 →
      exec (.mfrFleetReport (.write data p)) s = invalid)

/-- Reads with a side effect. With the paths of service open, a complete read over SPI answers the word as it stood and
then takes effect: WINMON's extremes and En_LAT.MAX start again, MINFREE and MAXDEPTH take the present number,
DEV_TIMEL captures the high part of device time, TLM_PKR's peaks and RACKADDR move on, and the stream ports pop their
head word; over JTAG the same reads answer the word and change nothing but the port. A read of a page that is not
implemented answers 0, and over SPI sets SPI_PAGE. (R20, R33, R35, R81, R98, R179, R289, R296, R305, R345, R423, R445) -/
def Obligations.ReadsWithASideEffect : Prop :=
  ∀ (s : State), s.serviceRuns = true →
    let ans (t : State) (w : Word) : Host.Outcome State Fault Refusal :=
      .next { t with core := { t.core with hst := { t.core.hst with miso := wordBytes w } } }
    let c := s.core
    (∀ n : Fin 8, exec (.winmonRead n) s = ans { s with core :=
      (c.setFld (pgV n) V_WINMON_MIN V_WINMON_MIN.rst).setFld (pgV n) V_WINMON_MAX V_WINMON_MAX.rst } (s.peek (pgV n) 0x54)) ∧
    (∀ j : Fin 10, exec (.enLatRead j) s = ans { s with core := c.setFld (pgE j) E_LAT_MAX 0 } (s.peek (pgE j) 0x24)) ∧
    exec .cmdTagsRead s = ans { s with core := c.setFld pgCMD CMD_TAGS_MINFREE c.cmd.free.length } (s.peek pgCMD 0x2C) ∧
    exec .fltLatchRead s = ans { s with core := c.setFld pgFLT FLT_LATCH_MAXDEPTH c.flt.latch.length } (s.peek pgFLT 0x88) ∧
    exec .devTimelRead s = ans { s with core := c.setFld pgDEV DEV_TIMEH_TIME (c.time.toNat / 2 ^ 32) } (BitVec.ofNat 32 c.time.toNat) ∧
    exec .tlmPkrRead s = ans { s with core := { c with tlm := { c.tlm with pkr := vmod c.tlm.pkr (c.fld pgTLM TLM_SEL_CH) (fun _ => none) } } }
      (peakWord (c.fld pgTLM TLM_SEL_CH) (vget c.tlm.pkr (c.fld pgTLM TLM_SEL_CH) none)) ∧
    exec .rackdataRead s = ans { s with core :=
      (if c.flag pgRPR RPR_RACKADDR_INC then c.incWrap pgRPR RPR_RACKADDR_ADDR 1 else c) } (s.peek pgRPR 0x50) ∧
    (∀ (w : Word) (l : List Word), c.crb.rbuf = w :: l →
      exec (.crbRdataRead .spi) s = ans { s with core := { c with crb := { c.crb with rbuf := l, rrp := (c.crb.rrp + 1) % 2048 } } } w) ∧
    (c.crb.rbuf = [] → exec (.crbRdataRead .spi) s = ans s idleWord) ∧
    (c.crumbClosed = false → c.crb.fifo ≠ [] →
      exec (.crbDataRead .spi) s = ans { s with core :=
        (((({ c with crb := { c.crb with fifo := c.crb.fifo.drop 1, rp := (c.crb.rp + 1) % 2048 } }).syncFull).moveOn).judgeLevel c.crb.fifo.length).done } c.crumbHead) ∧
    (exec (.crbDataRead .jtag) s = .next { s with core := { c with hst := { c.hst with jtag := wordBytes (s.peek pgCRB 0x24) ++ [1] } } }) ∧
    (∀ pg off, kindOf pg = none → s.portRead .spi pg off = { s with core :=
      { c.raise pgHST 3 with hst := { (c.raise pgHST 3).hst with miso := wordBytes 0 } } })

/-- Writes of a rail's enable and what they do in each reference state. With the paths of service open, a rail's enable
and disable write EN and SOFTOFF, keep the other bits of Vn_CTRL, and the target count follows. A proof ramp starts
only on a rise of EN in OFF; in SOFTOFF a rise resumes PROOF; elsewhere EN alone is stored. With EN at 0 PRECHECK ends
in OFF, SOFTOFF without SOFTOFF goes off at once, a fall of EN in PROOF, HOLD or SLEW turns the rail off as SOFTOFF
says, and OFF and SAFE stay. A hiccup wait, which a host write ends, is left out here. The model's choices in it: the
other bits of Vn_CTRL are written as they stand (log 5), and any write that leaves EN and SOFTOFF at 0 in SOFTOFF is
an immediate off (log 74). (R88, R89, R91, R92, R238) -/
def Obligations.RailEnableAndTurnOff : Prop :=
  ∀ (s : State) (n : Fin 8), s.serviceRuns = true →
    let pg := pgV n
    let c := s.core
    let k := (c.setFld pg V_CTRL_AUTOSHED (c.fld pg V_CTRL_AUTOSHED)).setFld pg V_CTRL_KNEADEN (c.fld pg V_CTRL_KNEADEN)
    exec (.railEnable n) s = .next (s.wrote ((k.writeEn n true (c.flag pg V_CTRL_SOFTOFF) true).retarget n false)) ∧
    (∀ soft, exec (.railDisable n soft) s = .next (s.wrote ((k.writeEn n false soft true).retarget n false))) ∧
    (∀ (d : Core) (soft host : Bool), d.flag pgTRP (TRP_RST_HICW n) = false →
      let on := (d.setFld pg V_CTRL_EN 1).setFld pg V_CTRL_SOFTOFF (b2n soft)
      let off := (d.setFld pg V_CTRL_EN 0).setFld pg V_CTRL_SOFTOFF (b2n soft)
      let st := (d.rail n).rstate
      (d.flag pg V_CTRL_EN = false → st = .off → d.writeEn n true soft host = on.startPrecheck n) ∧
      (d.flag pg V_CTRL_EN = false → st = .softoff → d.writeEn n true soft host = on.resumeProof n) ∧
      (d.flag pg V_CTRL_EN = true → d.writeEn n true soft host = on) ∧
      (st = .safe → d.writeEn n true soft host = on ∧ d.writeEn n false soft host = off) ∧
      (st = .off → d.writeEn n false soft host = off) ∧
      (st = .precheck → d.writeEn n false soft host = off.enterOff n) ∧
      (st = .softoff → d.writeEn n false soft host = if soft then off else off.immediateOff n) ∧
      (d.flag pg V_CTRL_EN = true → st = .proof ∨ st = .hold ∨ st = .slew →
        d.writeEn n false soft host = if soft then off.softOff n else off.immediateOff n))

/-- The proof ramp's steps and power good complete. While control paths run: the checks of step 1 that all pass begin the
pre-bias search at the centre of 1.024 V, and the first that fails, numbered 1 to 5, puts the rail OFF with RAMPFAIL
of that kind; the end of its 96 samples enters PROOF from the voltage found when PBEN is 1 and it lies below the goal,
and from 0 otherwise, sets up the members and the on-time, and looks at the input window; power good rises in HOLD or
SLEW once the error has stayed inside PGWIN for PGDLY and falls after 1,000 ns outside it; and PGTMO without power
good is RAMPFAIL of kind 6. The model's choices in it: the first failing check gives KIND (log 16), and the search of
step 3 starts at the centre of 1.024 V (log 88). (R89, R90, R94, R98, R328) -/
def Obligations.ProofRampAndPowerGood : Prop :=
  ∀ (s : State) (n : Fin 8), s.controlRuns = true →
    let c := s.core
    let pg := pgV n
    let r := c.rail n
    (r.rstate = .precheck → r.preStage = 1 → c.precheckFails n = 0 →
      exec (.precheckDone n) s = .next (s.after (c.modRail n (fun r =>
        { r with preStage := 2, pbCode := 0, pbCount := 0, centre2 := r.centre1, centre1 := 4096 * (2048 : Nat) })))) ∧
    (r.rstate = .precheck → r.preStage = 1 → c.precheckFails n ≠ 0 →
      exec (.precheckDone n) s = .next (s.after
        ((((c.enterOff n).raise pg 8).send 0x04 (c.precheckFails n) (mkAddr 1 n)).railEvent n 4))) ∧
    (r.rstate = .precheck → r.preStage = 2 → 96 ≤ r.pbCount →
      exec (.prebiasDone n) s = .next (s.after
        ((((c.modRail n (fun r' => { r' with
          rstate := .proof
          vref := if c.flag pg V_CFG_PBEN ∧ r.pbCode < c.goal n then r.pbCode * 102400 else 0
          yAcc := 0
          preStage := 0
          arrived := false })).setMembers n).recomputeTon n).vinOnProof n))) ∧
    (∀ us, r.rstate = .hold ∨ r.rstate = .slew → c.stat pg 0 = false → r.sat = false →
      r.e.natAbs ≤ 128 * c.fld pg V_PG_PGWIN → c.fld pg V_PG_PGDLY ≤ us →
      exec (.pgoodRise n us) s = .next (s.after
        (((c.setLevel pg 0 true).railEvent n 0).modRail n (fun r => { r with preStage := 0 })))) ∧
    (∀ ns, 1000 ≤ ns → (r.sat = true ∨ 128 * c.fld pg V_PG_PGWIN < r.e.natAbs) → c.stat pg 0 = true →
      exec (.pgoodFall n ns) s = .next (s.after ((c.setStat pg 0 false).railEvent n 1))) ∧
    (∀ us, r.preStage = 3 → c.fld pg V_PG_PGTMO ≤ us →
      exec (.rampfailPgtmo n us) s = .next (s.after
        ((((c.modRail n (fun r => { r with preStage := 0 })).raise pg 8).send 0x04 6 (mkAddr 1 n)).railEvent n 4)))

/-- A window sample, a firing and the end of an on-time complete. While control paths run: a sample of a rail that fires
has its code limited to 9 bits, its error term formed from the centre the slice held, and then the monitors, the
engine, the telemetry sums, the reference, the shed and knead conditions, the shadow and the on-time take their turn,
the fits of an identification among them; one of a rail that does not fire goes to the monitors, to the pre-bias
search while it lasts, and to the sums, and takes the centre of the search or the one that telemetry steers by, a
mismatch at the instant of its safe state being a mismatch still (R432). A firing that R76 permits counts, and unless
a crowbar, a trip or a current limit stops it, drives its local port high with its on-time and stamps its latency; a
port at its positive limit takes the limit's path, a remote one waits for its slot, and then the pointer moves on. The
end of an on-time takes a high port low. A write of IRST puts the integrator to 0. (R69, R73, R75, R76, R77, R81,
R109, R113, R118, R230, R248, R282) -/
def Obligations.WindowSampleAndFiring : Prop :=
  ∀ (s : State) (n : Fin 8), s.controlRuns = true →
    let c := s.core
    let r := c.rail n
    (∀ (d : Int) (lag2 mism : Bool),
      let q := clampInt (-256) 255 d
      let sat : Bool := q = -256 || q = 255
      let vc := if lag2 then r.centre2 else r.centre1
      let e := -64 * q + roundDiv (vc - 1024 * clampInt 0 16383 (roundDiv vc 1024)) 32
      let vo := vc + 2048 * q
      let c1 := c.modRail n (fun r => { r with d := q, sat := sat, vcApplied := vc })
      (r.rstate.fires = true →
        exec (.windowSample n d lag2 mism) s = .next (s.after
          ((((((((((c1.sampleMonitors n q sat).sampleEngine n e vo).sampleTelemetry n vo sat).sampleIdents n).refReached n).sampleConds n).softArrive n).sampleShadow n mism).recomputeTon n)))) ∧
      (r.rstate.fires = false →
        exec (.windowSample n d lag2 mism) s = .next (s.after
          (let m := c1.sampleMonitors n q sat
           let m := if r.rstate = .precheck ∧ r.preStage = 2 then m.modRail n (fun r => r.searchSample q) else m
           let z := (m.modRail n (fun r => { r with centre2 := r.centre1, centre1 := m.idleCentre n })).sampleTelemetry n vo sat
           if mism then z.lateMismatch n else z)))) ∧
    (∀ (since off lat : Nat) (x : Slot), r.order[r.ptr]? = some x → c.mayFire n since = true → x.turn = true → c.offDone n x off = true →
      let c1 := c.incWrap (pgE (c.railEng n)) E_FIRES_COUNT 1
      (x.dev = 0 → c1.crowHeld n = false → c1.tripped n = false → c1.limitHi x.port = false →
        exec (.railFire n since off lat) s = .next (s.after (((c1.driveHigh n x).stampLatency n lat).afterFiring n x))) ∧
      (x.dev = 0 → c1.crowHeld n = false → c1.tripped n = false → c1.limitHi x.port = true →
        exec (.railFire n since off lat) s = .next (s.after ((c1.limitedFiring x.port).afterFiring n x))) ∧
      (x.dev ≠ 0 → c1.crowHeld n = false → c1.tripped n = false →
        exec (.railFire n since off lat) s = .next (s.after
          ((c1.modRail n (fun r => { r with due := r.due ++ [⟨x.dev, x.port, c.time.toNat⟩] })).afterFiring n x))) ∧
      (c1.crowHeld n = true ∨ c1.tripped n = true → exec (.railFire n since off lat) s = .next (s.after (c1.afterFiring n x)))) ∧
    (∀ k : Fin 24, (c.port k).pwm = .high → exec (.onTimeEnd k) s = .next (s.after (c.setPwm k .low))) ∧
    (∀ k : Fin 24, (c.port k).pwm ≠ .high → exec (.onTimeEnd k) s = .next (s.after c)) ∧
    (s.serviceRuns = true →
      exec (.integratorReset n) s = .next (s.wrote
        (((c.putFields (pgV n) .v 0x3C (setBits (c.wordOf (pgV n) 0x3C) 16 1 1)).modRail n (fun r => { r with yAcc := 0 })).setLevel (pgV n) 4 false)))

/-- The missed-pace, sense-open and stage-fault detectors complete. While the core is out of reset: a missed pace sends
its message naming the slice; an open sense pair sets SNSOPEN, its live level and its message, and its release takes
the level back; a stage fault of 200 ns, or a release of 1,000 ns, changes STGFLT on the eight ports of its group,
then its line, its message and the relays to the owners of ports that are lent. (R15, R67, R105, R106, R207, R333) -/
def Obligations.DetectorsOfRails : Prop :=
  ∀ (s : State), s.alive = true →
    let c := s.core
    (∀ k : Fin 9, exec (.pacemiss k) s = .next (s.after (c.send 0x2E 0 (mkAddr 0xC k)))) ∧
    (∀ n : Fin 8, c.stat (pgV n) 9 = false →
      exec (.snsopen n) s = .next (s.after (((c.setLevel (pgV n) 9 true).setLive 0x05 (mkAddr 1 n) true).send 0x05 0 (mkAddr 1 n)))) ∧
    (∀ n : Fin 8, exec (.snsopenRelease n) s = .next (s.after ((c.setLevel (pgV n) 9 false).setLive 0x05 (mkAddr 1 n) false))) ∧
    (∀ (g : Fin 3) (ns : Nat) (on : Bool), (c.prot.stg[g.val]?).getD false = !on → (if on then 200 else 1000) ≤ ns →
      (if on then exec (.stgfltTrip g ns) s else exec (.stgfltRelease g ns) s) = .next (s.after
        (let d := ((List.range 8).foldl (fun (c : Core) j => c.setLevel (pgP (8 * g.val + j)) 7 on)
          { c with prot := { c.prot with stg := c.prot.stg.set g.val on } }).syncStages
         (d.lentOwners g.val).foldl (fun (c : Core) o => c.sendMsg o (.faultRelay g.val on)) d)))

/-- Snapshots, compensation words, takeovers, calibrations and the phase ADC complete. A snapshot of an engine stores the
error, integrator, ripple and decision quantity of the rail it serves or shadows, truncated to 0.25 mV, with the
device time of that sample; an engine without a rail has no such values, so the five are free (log 6). A waiting
compensation word comes into use at the firing boundary, but not while a phase of the rail is high. A waiting takeover
ends the shadow with a mismatch and gives the rail to the spare: the map, ENGSWAP with its event, SWAPIN, SWAPOUT,
SWAP, a retest for a replaced engine in state 0, and the map's write. An engine retired for its tap group is replaced
in the same way at that boundary, or, with no spare left, its rail has none and SPAREOUT names it; where nothing
waits, nothing happens. CALSTART on a port in mid starts a calibration and elsewhere raises REJ; a calibration whose
reference lies in its range stores its mean, and passes within 256 sixteenths; otherwise CAL falls, CALFAIL and its
message come, and the current limits of the port are held. A phase ADC sample gives ISAMP from the offset and gain,
the sums, and on a low port the value for the model's correction and, from 40 ns after its falling edge on, for the
fits of an identification. The model's choice in it: the offset is stored when the mean is out of its limit too (log
27). (R72, R82, R96, R99, R102, R103, R227, R281, R424, R431) -/
def Obligations.EnginesAndCalibration : Prop :=
  ∀ (s : State), s.serviceRuns = true →
    let c := s.core
    (∀ j : Fin 10,
      let pg := pgE j
      let n := if c.fld pgRPR RPR_SHADOW_ENGINE = j then c.fld pgRPR RPR_SHADOW_RAIL else c.engRail j
      let r := c.rail n
      (n < 8 → exec (.engineSnapshot j) s = .next (s.wrote
        (((((c.setSfld pg E_SNAPERR_E (snapValue r.e 64)).setSfld pg E_SNAPINT_Y (snapValue r.ySnap (64 * 2 ^ 35))).setSfld pg E_SNAPRIP_W
          (snapValue r.w 64)).setSfld pg E_SNAPU_U (snapValue r.u (64 * 2048))).setFld pg E_SNAPT_TIME r.sampleAt))) ∧
      (8 ≤ n → exec (.engineSnapshot j) s = .next (s.wrote
        (((((c.freeFld pg E_SNAPERR_E).freeFld pg E_SNAPINT_Y).freeFld pg E_SNAPRIP_W).freeFld pg E_SNAPU_U).freeFld pg E_SNAPT_TIME))) ∧
      (c.engRail j ≠ 15 → (c.eng j).compNew = true → (c.rail (c.engRail j)).order.all (fun x => c.slotPwm x ≠ .high) = true →
        exec (.compWordApply j) s = .next (s.after (c.modEng j (fun e => { e with compNew := false, comp := e.compIn })))) ∧
      (c.engRail j = 15 ∨ (c.eng j).compNew = false ∨ (c.rail (c.engRail j)).order.any (fun x => c.slotPwm x = .high) = true →
        exec (.compWordApply j) s = .next (s.after c))) ∧
    (∀ (n : Fin 8) (j : Nat),
      let undue (d : Core) : Core := { d with rpr := { d.rpr with swapDue := d.rpr.swapDue.filter (fun m => m ≠ n.val) } }
      let took (e : Core) : Core :=
        if e.railEng n ≠ 15 then
          let d := undue ((e.modMap (fun m => { m with eng := vmod m.eng n (fun _ => j) })).modMap
            (fun m => { m with engSt := vmod m.engSt (e.railEng n) (fun x => if x = 0 then 3 else 2) }))
          let f := (((((d.raise (pgV n) 6).railEvent n 8).raise (pgE j) 3).raise (pgE (e.railEng n)) 4).raise pgRPR 0).syncEngines
          (if e.engSt (e.railEng n) = 0 then f.requestAct ⟨actRETEST, e.railEng n, 0⟩ else f).queueMap
        else
          let d := undue (e.modMap (fun m => { m with eng := vmod m.eng n (fun _ => j) }))
          ((((d.raise (pgV n) 6).railEvent n 8).raise (pgE j) 3).raise pgRPR 0).syncEngines.queueMap
      (c.rpr.takeover = some (n.val, j) →
        exec (.engineTakeover n) s = .next (s.after
          (let d := c.endShadow 2
           took { d with rpr := { d.rpr with takeover := none } }))) ∧
      (c.rpr.takeover = none → c.rpr.swapDue.contains n.val = true → c.nextSpare = some j →
        exec (.engineTakeover n) s = .next (s.after (took c))) ∧
      (c.rpr.takeover = none → c.rpr.swapDue.contains n.val = true → c.nextSpare = none →
        exec (.engineTakeover n) s = .next (s.after
          ((((((undue c).modMap (fun m => { m with eng := vmod m.eng n (fun _ => 15) })).raise pgRPR 7).send 0x52 0 (mkAddr 1 n)).syncEngines).queueMap))) ∧
      (c.rpr.takeover = none → c.rpr.swapDue.contains n.val = false → exec (.engineTakeover n) s = .next (s.after c))) ∧
    (∀ k : Fin 24,
      ((c.port k).pwm = .mid → exec (.calStart k) s = .next (s.wrote (c.modPort k (fun p => { p with calBusy := true })))) ∧
      ((c.port k).pwm ≠ .mid → exec (.calStart k) s = .next (s.wrote (c.raise (pgP k) 8))) ∧
      (∀ (mean : Int) (ok : Bool), (c.port k).calBusy = true →
        let d := c.modPort k (fun p => { p with calBusy := false })
        let d := if ok then d.setSfld (pgP k) P_CSCAL_OFS mean else d
        (ok = true → mean.natAbs ≤ 256 →
          exec (.calDone k mean ok) s = .next (s.after ((d.setStat (pgP k) 1 true).raise (pgP k) 1))) ∧
        (ok = false ∨ 256 < mean.natAbs →
          exec (.calDone k mean ok) s = .next (s.after
            ((((d.setStat (pgP k) 1 false).raise (pgP k) 2).send 0x11 0 (mkAddr 2 k)).holdLimits k)))) ∧
      (∀ code, (c.port k).calBusy = false →
        let q := clampInt (-512) 511 code
        let i := clampInt (-8192) 8191 (roundRat ((16 * q - c.sfld (pgP k) P_CSCAL_OFS : Int) * 5000 / (max 1 (c.fld (pgP k) P_CSCFG_CSGAIN) : Nat)))
        let low := (c.port k).pwm = .low
        let d := (c.modPort k (fun p => { p with
          code := q, lowI := if low then some i else p.lowI
          fit := if p.fit.on && p.fit.begun && p.fit.periods < 256 && low && p.fallAt + 16 ≤ c.time.toNat then
            { p.fit with seg := (c.time.toNat, i) :: p.fit.seg } else p.fit })).setSfld (pgP k) P_IMON_ISAMP i
        let d := if low then d.modSlot (d.portRail k) 0 k (fun x => { x with corr := some (i, x.ihat) }) else d
        exec (.phaseAdcSample k code) s = .next (s.after
          { d with tlm := { d.tlm with pacc := vmod d.tlm.pacc k (fun a => (a.1 + i, a.2 + 1)) } })))

/-- Port assignments and order commits complete. With the paths of service open: an assignment of a port is ignored while
its field is locked, refused with REJ while the port is out of mid or its old or new rail is neither OFF nor SAFE, and
otherwise stored; a port that changes its rail leaves the old order, and the members, shares and stage lines follow. A
commit stages the order, from the staging registers up to the first byte that is not used, or from the ring's staging
of a cascaded rail: outside OFF and SAFE, with a local slot above 23 or of another rail's port, or with a phase in two
slots it raises ORDERR and leaves all as it was; any other becomes the active order, its slots kept where they stood,
with the pointer at its first slot that takes turns and the remote phases' records to match. (R29, R107, R108, R109,
R110, R116, R134, R202) -/
def Obligations.AssignmentAndOrders : Prop :=
  ∀ (s : State), s.serviceRuns = true →
    let c := s.core
    (∀ (k : Fin 24) (rail shpri : Nat),
      let pg := pgP k
      let new := if rail % 16 < 8 || rail % 16 = 0xE then rail % 16 else 0xF
      let old := c.portRail k
      (c.locked pg P_ASSIGN_RAIL = true → exec (.portAssign k rail shpri) s = .next (s.wrote c)) ∧
      (c.locked pg P_ASSIGN_RAIL = false → (c.port k).pwm ≠ .mid ∨ c.restful old = false ∨ c.restful new = false →
        exec (.portAssign k rail shpri) s = .next (s.wrote (c.raise pg 8))) ∧
      (c.locked pg P_ASSIGN_RAIL = false → (c.port k).pwm = .mid → c.restful old = true → c.restful new = true →
        let d := (c.setFld pg P_ASSIGN_RAIL new).setFld pg P_ASSIGN_SHPRI (shpri % 32)
        (new = old → exec (.portAssign k rail shpri) s = .next (s.wrote d)) ∧
        (new ≠ old → exec (.portAssign k rail shpri) s = .next (s.wrote
          (let e := { d with lnk := { d.lnk with lentMid := vmod d.lnk.lentMid k (fun _ => true), preloads := vmod d.lnk.preloads k (fun _ => none) } }
           let e := if old < 8 then ((e.dropSlot old k).syncShare old).retarget old false else e
           let e := if old < 8 then e.syncMembers old else e.syncPort k
           let e := if new < 8 then e.syncShare new else e
           e.syncStages))))) ∧
    (∀ n : Fin 8,
      let slot (i : Nat) : Nat := getBits (c.reg (pgV n) (0xA0 + i / 4 * 4)) (8 * (i % 4)) 8
      let l : List (Nat × Nat) :=
        if c.cascaded n then ((vget c.lnk.staging n []).takeWhile (·.used)).map (fun e => (e.dev, e.port))
        else (((List.range 24).map slot).takeWhile (fun b => 128 ≤ b)).map (fun b => (0, b % 32))
      let permitted : Prop := ((c.rail n).rstate = .off ∨ (c.rail n).rstate = .safe) ∧
        (∀ p ∈ l, p.1 = 0 → p.2 < 24 ∧ c.portRail p.2 = n) ∧ l.Nodup
      (¬ permitted → exec (.orderCommit n) s = .next (s.wrote (c.raise (pgV n) 23))) ∧
      (permitted → exec (.orderCommit n) s = .next (s.wrote
        (let order := l.map (fun p => ((c.rail n).order.find? (fun x => x.dev = p.1 && x.port = p.2)).getD { dev := p.1, port := p.2 })
         let d := c.modRail n (fun r => { r with order := order, ptr := nextTurn order 0, due := [] })
         let mine := (l.filter (fun p => p.1 ≠ 0)).map (fun p =>
           (d.lnk.remotes.find? (fun (x : Remote) => x.rail = n && x.dev = p.1 && x.port = p.2)).getD
             ({ rail := n, dev := p.1, port := p.2 } : Remote))
         let d := { d with lnk := { d.lnk with remotes := d.lnk.remotes.filter (fun (x : Remote) => x.rail ≠ n) ++ mine } }
         (((d.retarget n false).syncMembers n).syncShare n).syncStages))))

/-- Identification, current sharing and the automatic target complete. With the paths of service open: IDSTART on a port
that is not being identified asks the arbiter for an identification and begins what is granted; on a lent port it goes
to the owner (log 75). Once the fit of 256 periods and the pairs of the dither are complete, the end of the
measurements stores the raw results of the formulas of R120, free where a formula gives none (log 6), and, within the
ranges of CAUSE 0, the inductance and resistance with IDDONE, else CAUSE 1; on a lent port the slope of the fit goes
to the owner, which keeps the results of its remote phase. A sharing deviation of 16 periods beyond the limit sets
SHARE with its live level and message, and 16 within take it back; SHAREERR of the rail follows. At the end of a
window of the automatic target the term and the target count are found again, and a shed that has been wanted for
SHDLY begins. (R111, R116, R119, R120, R122, R127, R129, R206) -/
def Obligations.IdentificationAndSharing : Prop :=
  ∀ (s : State), s.serviceRuns = true →
    let c := s.core
    (∀ k : Fin 24,
      let pg := pgP k
      (c.stat pg 3 = false → c.lentBound k = false →
        exec (.idStart k) s = .next (s.wrote (c.requestAct ⟨actIDENT, k, 0⟩).pumpIdents)) ∧
      (c.stat pg 3 = false → c.lentBound k = true →
        exec (.idStart k) s = .next (s.wrote (c.sendMsg (c.fld pgLNK (LNK_LEND_OWNER k)) (.idRequest k (some (c.idCfg k)))))) ∧
      (c.stat pg 3 = true → exec (.idStart k) s = .next (s.wrote c)) ∧
      (let d := c.modPort k (fun p => { p with ident := p.ident.turn c.time.toNat })
       let p := (d.port k).ident
       ∀ x, c.lnk.idLent.contains k.val = false → p.busy = true → (d.port k).fit.done = true → p.nrep ≤ p.pairs → d.slotOf k = some x →
        let v := d.identResult (d.portRail k) x p (d.port k).fit.slope
        let e := (d.setRawOpt pg P_IDRES_LRAW v.1).setRawOpt pg P_IDRES_RRAW v.2
        (∀ l r, v = (some l, some r) → 160 ≤ l → l ≤ 16000 → 50 ≤ r → r ≤ 4095 → exec (.idEnd 0 k) s = .next (s.after
          (((e.setFld pg P_LHAT_L l).setFld pg P_RHAT_DCR r).endIdent k 0))) ∧
        ((∀ l r, v = (some l, some r) → l < 160 ∨ 16000 < l ∨ r < 50 ∨ 4095 < r) →
          exec (.idEnd 0 k) s = .next (s.after (e.endIdent k 1)))) ∧
      (c.lnk.idLent.contains k.val = true → (c.port k).fit.done = true → exec (.idEnd 0 k) s = .next (s.after
        (let d : Core := { c with lnk := { c.lnk with idLent := c.lnk.idLent.filter (fun x => x ≠ k.val) } }
         let d := (d.modPort k (fun p => { p with fit := {} })).setLevel pg 3 false
         d.sendMsg (d.fld pgLNK (LNK_LEND_OWNER k)) (.idResult k (c.port k).fit.slope.num (c.port k).fit.slope.den)))) ∧
      (∀ dev, dev ≠ 0 → exec (.idEnd dev k) s = .next (s.after ((List.range 8).foldl (fun (c : Core) n => c.idEndRemote n dev k) c))) ∧
      (∀ (n dev l r : Nat) (x : Slot) (q : Rat),
        let d := c.modRemote n dev k (fun y => { y with ident := y.ident.turn c.time.toNat })
        let p := (d.remote n dev k).ident
        p.slope = some q → p.busy = true → p.nrep ≤ p.pairs → (d.rail n).order.find? (fun x => x.dev = dev && x.port = k.val) = some x →
        d.identResult n x p q = (some l, some r) → 160 ≤ l → l ≤ 16000 → 50 ≤ r → r ≤ 4095 →
        c.idEndRemote n dev k = (d.modRemote n dev k (fun y => { y with l := l, dcr := r })).endRemoteIdent n dev k 0) ∧
      (∀ periods, 16 ≤ periods → c.portActive k = true → c.shareBad k = true → c.stat pg 6 = false →
        exec (.shareRise k periods) s = .next (s.after
          ((((c.setLevel pg 6 true).setLive 0x13 (mkAddr 2 k) true).send 0x13 0 (mkAddr 2 k)).syncShare (c.portRail k)))) ∧
      (∀ periods, 16 ≤ periods → c.stat pg 6 = true → c.shareBad k = false →
        exec (.shareFall k periods) s = .next (s.after
          (((c.setLevel pg 6 false).setLive 0x13 (mkAddr 2 k) false).syncShare (c.portRail k))))) ∧
    (∀ (n : Fin 8) (count : Nat),
      let r := c.rail n
      let win := 2 ^ min 14 (c.fld (pgV n) V_SHEDAUTO_AVGK)
      c.tlm.count = some count → count % win = win - 1 → r.avgCnt ≠ 0 →
      let need := ((r.avgSum : Rat) / (64 * r.avgCnt * zeroAsOne (c.fld (pgV n) V_SHEDAUTO_IPP) : Nat)).ceil + (c.fld (pgV n) V_SHEDAUTO_NMARG : Int)
      let d := (c.modRail n (fun r => { r with
        autoTerm := need.toNat, autoValid := r.autoValid || r.autoWhole, autoWhole := true, avgSum := 0, avgCnt := 0 })).retarget n false
      ((d.rail n).nact ≤ (d.rail n).ntarget →
        exec (.autoshedWindowEnd n) s = .next (s.after (d.modRail n (fun r => { r with belowFor := none })))) ∧
      ((d.rail n).ntarget < (d.rail n).nact →
        let t := match (d.rail n).belowFor with | some t => t + win | none => 0
        let f := d.modRail n (fun r => { r with belowFor := some t })
        exec (.autoshedWindowEnd n) s = .next (s.after
          (if (d.rail n).rstate.fires && (d.rail n).tstate = 0 && 16 * f.fld (pgV n) V_SHEDAUTO_SHDLY ≤ t then
            f.beginShed n ((d.rail n).nact - (d.rail n).ntarget) else f))))

/-- Bring-up, resets, hot joins and interrupts on the I3C buses complete. With the paths of service open: an enabled bus
that is down comes up and ENTDAA runs with the targets that answer, as it does on a DAA or an acknowledged hot join of
a bus that is up. A target of a new PID takes the lowest free address and the lowest free context; a capability it
lacks has it refused. Clearing EN takes the bus down; a bus reset departs every requester, and a DAA runs, after the
read in progress where there is one; none of these but the bus reset begins while a reset of the command engine waits
for a read (R19, R170). An in-band interrupt on an idle bus sets the pending count of its requester, and one whose
data byte is 0 or above 31 is recorded as bad. The model's choices in it: the targets that answer are operands, and a
bus reset empties the bus while its new bring-up is the command I3C_BUS_UP (log 29). (R137, R138, R140, R141, R142,
R153, R166, R176, R451) -/
def Obligations.LoadSideBuses : Prop :=
  ∀ (s : State) (b : Fin 2), s.serviceRuns = true →
    let c := s.core
    let en := HST_I3CCFG_EN b
    (∀ ts, c.flag pgHST en = true → (c.bus b).up = false → (c.bus b).reading = none → c.cmd.resetDue = false →
      exec (.i3cBusUp b ts) s = .next (s.after ((c.modBus b (fun x => { x with up := true })).entdaa b false ts))) ∧
    (c.flag pgHST en = true →
      exec (.i3cBusDisable b) s = .next (s.wrote
        ((c.putFields pgHST .hst en.off (setBits (c.wordOf pgHST en.off) 16 1 0)).busDown b))) ∧
    ((c.bus b).reading = none → exec (.i3cBusReset b) s = .next (s.wrote (c.departAll b))) ∧
    ((c.bus b).reading.isSome = true →
      exec (.i3cBusReset b) s = .next (s.wrote (c.modBus b (fun x => { x with rstDue := true })))) ∧
    (∀ ts, (c.bus b).up = true → c.cmd.resetDue = false →
      ((c.bus b).reading = none → exec (.i3cDaa b ts) s = .next (s.after (c.entdaa b false ts))) ∧
      ((c.bus b).reading.isSome = true → exec (.i3cDaa b ts) s = .next (s.after (c.modBus b (fun x => { x with daaDue := some ts }))))) ∧
    (∀ ts, (c.bus b).up = false ∨ c.cmd.resetDue = true → exec (.i3cDaa b ts) s = .next (s.after c)) ∧
    (∀ ts, (c.bus b).up = true → c.flag pgHST (HST_I3CCFG_HJEN b) = true → (c.freeDa b).isSome = true → (c.bus b).reading = none → c.cmd.resetDue = false →
      exec (.i3cHotJoin b ts) s = .next (s.after (c.entdaa b true ts))) ∧
    (∀ da mdb i, (c.bus b).up = true → (c.bus b).reading = none → c.flag pgHST (HST_I3CCFG_IBIEN b) = true → c.ctxOfDa b da = some i →
      (mdb.toNat = 0 ∨ 32 ≤ mdb.toNat → exec (.i3cIbi b da mdb) s = .next (s.after (c.raise pgHST (20 + b)))) ∧
      (1 ≤ mdb.toNat → mdb.toNat ≤ 31 → exec (.i3cIbi b da mdb) s = .next (s.after (c.setPending b i da mdb.toNat)))) ∧
    (∀ (hj : Bool) (t : Target) (da : Nat),
      (List.range 64).find? (fun i => (c.ctx i).st = 1 && (c.ctx i).bus = b && (c.ctx i).pid = t.pid % 2 ^ 48) = none →
      c.freeDa b = some da →
      ((t.bcr.testBit 1 && t.bcr.testBit 2 && t.mrlOk) = false →
        c.entdaa b hj [t] = ((c.modBus b (fun x => { x with refused := x.refused ++ [da] })).raise pgHST (22 + b)).syncDa) ∧
      (∀ i, (t.bcr.testBit 1 && t.bcr.testBit 2 && t.mrlOk) = true → (List.range 64).find? (fun i => (c.ctx i).st = 0) = some i →
        let d := c.modCtx i (fun _ => { st := 1, bus := b, da := da, pid := t.pid % 2 ^ 48, bcr := t.bcr % 256, dcr := t.dcr % 256 })
        c.entdaa b hj [t] = (if hj then d.raise pgHST (16 + b) else d).syncDa))

/-- Reads of items, their bytes, their checks and their retries complete. With the paths of service open and a bus free
for a read: a reread that waits goes first and is counted, once its requester may be read; otherwise the requester of
the rotation is read; a read answered with NACK is tried again after any reread that waits, and counts no further
reread (log 95). The reply ends the read in progress: a NACK is counted, an item of a read that a flush marked
completes ABORTED_BY_FLUSH, one that arrives while a reset waits takes a tag for that reset, an empty item ends what
its requester had pending, an item of a wrong length or CRC is read again while retries remain and else fails with
BADLEN or ITEMCRC, and a whole item takes the next tag and is checked in the order format, opcode, authentication,
arguments, each failure completing it with its code and an item that passes them all waiting to be applied. The
model's choices in it: a reread goes before the retry of a NACK, and the rotation goes on from what was read in the
wait (logs 96, 113). (R143, R144, R145, R146, R147, R148, R149, R150, R164, R165, R169, R173) -/
def Obligations.ItemReads : Prop :=
  ∀ (s : State) (b : Fin 2), s.serviceRuns = true →
    let c := s.core
    (c.readSlot b = true →
      (∀ r, c.nextReread b = some r → c.readable b r.ctx r.da = true → exec (.itemRead b) s = .next (s.after
        ((c.modBus b (fun x => { x with reading := some (r.ctx, r.da, true) })).incSat pgHST (HST_I3CCNT_RERDCNT b) 1))) ∧
      (∀ i da, c.nextReread b = none → c.nextRead b = some (i, da) →
        exec (.itemRead b) s = .next (s.after (c.modBus b (fun x => { x with
          reading := some (i, da, false), lastCtx := i, lastOvf := if i = 64 then da else x.lastOvf })))) ∧
      (∀ i da k rest, (c.bus b).nackReads = (i, da, k) :: rest → c.nextReread b = none → c.readable b i da = true →
        let re := (c.bus b).rereads.any (fun r => r.ctx = i && r.da = da)
        exec (.itemReadRetry b) s = .next (s.after (c.modBus b (fun x => { x with reading := some (i, da, re) }))))) ∧
    (∀ ctx da re, (c.bus b).reading = some (ctx, da, re) → c.rpr.halted = false →
      let d := c.modBus b (fun x => { x with reading := none })
      (exec (.itemReceived b none) s = .next (s.after ((d.readNacked b ctx da).afterRead b))) ∧
      (∀ l : List Byte,
        let e := d.readEnds b ctx da
        let tries := (((c.bus b).rereads.find? (fun r => r.ctx = ctx && r.da = da)).map (·.tries)).getD 0
        let badLen := !(l.length = 16 && !(byteAt l 0).getLsbD 5) && !(l.length = 32 && (byteAt l 0).getLsbD 5)
        let badCrc := crc8 (l.take 15) ≠ byteAt l 15
        (l.head? = some 0 → exec (.itemReceived b (some l)) s = .next (s.after ((e.setPending b ctx da 0).afterRead b))) ∧
        (l.head? ≠ some 0 → (c.bus b).flushed = true ∨ c.cmd.resetDue = true →
          let p := e.newTag b ctx da l false
          exec (.itemReceived b (some l)) s = .next (s.after
            ((if (c.bus b).flushed then p.2.failItem p.1 stABORTFLUSH 0 false else p.2).afterRead b))) ∧
        (l.head? ≠ some 0 → (c.bus b).flushed = false → c.cmd.resetDue = false →
          ((badLen = true ∨ badCrc) → tries < e.retries → exec (.itemReceived b (some l)) s = .next (s.after
            ((e.modBus b (fun x => { x with rereads := x.rereads ++ [⟨ctx, da, tries + 1, badLen⟩] })).afterRead b))) ∧
          ((badLen = true ∨ badCrc) → e.retries ≤ tries → exec (.itemReceived b (some l)) s = .next (s.after
            (((e.newTag b ctx da l false).2.failItem (e.newTag b ctx da l false).1 stFAILED (if badLen then cdBADLEN else cdITEMCRC) false).afterRead
              b))) ∧
          (badLen = false → ¬badCrc → exec (.itemReceived b (some l)) s = .next
            ((({ s with core := (e.newTag b ctx da l true).2 }.checkItem (e.newTag b ctx da l true).1 l).onCore
              (fun c => c.afterRead b)).rest))))) ∧
    (∀ (t : Nat) (l : List Byte),
      let x := c.item t
      (badFormat l = true → s.checkItem t l = { s with core := c.failItem t stFAILED cdBADFMT true }) ∧
      (badFormat l = false → opKnown x.opc = false → s.checkItem t l = { s with core := c.failItem t stFAILED cdBADOPC true }) ∧
      (badFormat l = false → opKnown x.opc = true →
        (∀ code d, s.authCheck t l = (some code, d) → s.checkItem t l = { s with core := d.failItem t stREFUSED code true }) ∧
        (∀ d st code, s.authCheck t l = (none, d) → d.argFails x = some (st, code) →
          s.checkItem t l = { s with core := d.failItem t st code true }) ∧
        (∀ d, s.authCheck t l = (none, d) → d.argFails x = none →
          s.checkItem t l = { s with core := d.modItem t (fun y => { y with phase := 2 }) })))

/-- Items whose turn it is take effect and complete. With the paths of service open and the item next in turn of its
context: NOP, VQUERY and TLMRD complete DONE at once. A voltage item casts its vote, and completes DONE where the
winner stays, and on a rail in OFF, PRECHECK or SOFTOFF; FAILED with RAILSAFE in SAFE; else it waits for its rail; its
flags say whether it was clamped and whether the winner stayed. A PHREQ stores its request and completes DONE on a
rail in OFF, PRECHECK or SOFTOFF too, FAILED in SAFE, and on a rail that runs DONE where the target stays or is
reached, else it waits. An AUWR writes its word, a revocation, a lower bound that only rises or a log erase, and
completes with the word read back. The model's choices in it: a PHREQ applied in SOFTOFF is carried out there and its
record says IDLE (log 15), and a request that comes back to the count that the rail has completes at once (log 22).
(R148, R149, R152, R154, R155, R156, R157, R159, R161, R127, R132, R395) -/
def Obligations.ItemsApplied : Prop :=
  ∀ (s : State) (t : Fin 128), s.serviceRuns = true →
    let c := s.core
    let x := c.item t
    (c.turnOf t 0x00 = true → exec (.nop t) s = .next (s.after (c.completeItem t stDONE 0))) ∧
    (c.turnOf t 0x04 = true → exec (.vquery t) s = .next (s.after (c.completeItem t stDONE 0))) ∧
    (c.turnOf t 0x05 = true → exec (.tlmrd t) s = .next (s.after (c.completeItem t stDONE 0))) ∧
    (∀ opc i, (opc = 0x01 ∧ i = .vset t ∨ opc = 0x02 ∧ i = .vrel t ∨ opc = 0x11 ∧ i = .vseta t) → c.turnOf t opc = true →
      let d := c.castVote t
      let same := d.win x.rail = c.win x.rail
      let clamp := opc ≠ 0x02 && d.fld (pgV x.rail) V_VMAX_CODE < x.arg0 % 4096
      let e := d.modItem t (fun y => { y with flags := 0x10 * b2n clamp + 0x20 * b2n same })
      let st := (e.rail x.rail).rstate
      (same ∨ st = .off ∨ st = .precheck ∨ st = .softoff → exec i s = .next (s.after (e.completeItem t stDONE 0))) ∧
      (¬same → st = .safe → exec i s = .next (s.after (e.completeItem t stFAILED cdRAILSAFE))) ∧
      (¬same → st = .proof ∨ st = .hold ∨ st = .slew →
        exec i s = .next (s.after (e.modItem t (fun y => { y with phase := 3 }))))) ∧
    (c.turnOf t 0x03 = true →
      let d := (c.setFld (pgV x.rail) V_SHEDCFG_NREQ (x.arg0 % 256)).retarget x.rail true
      let r := d.rail x.rail
      let met := r.ntarget = (c.rail x.rail).ntarget ∨ (r.ntarget = r.nact ∧ r.tstate = 0)
      (r.rstate = .off ∨ r.rstate = .precheck ∨ r.rstate = .softoff → exec (.phreq t) s = .next (s.after (d.completeItem t stDONE 0))) ∧
      (r.rstate = .safe → exec (.phreq t) s = .next (s.after (d.completeItem t stFAILED cdRAILSAFE))) ∧
      (r.rstate = .proof ∨ r.rstate = .hold ∨ r.rstate = .slew → met → exec (.phreq t) s = .next (s.after (d.completeItem t stDONE 0))) ∧
      (r.rstate = .proof ∨ r.rstate = .hold ∨ r.rstate = .slew → ¬met → exec (.phreq t) s = .next (s.after (d.modItem t (fun y => { y with phase := 3 }))))) ∧
    (c.turnOf t 0x12 = true →
      (x.arg0 = pgSEC * 256 + 0x4C →
        let u := s.revoke x.arg2
        let back := (List.range 4).foldl (fun a k => a + b2n (u.keyRev k) * 2 ^ k) 0
        exec (.auwr t) s = .next (u.onCore (fun c => c.finishItem t stDONE 0 true (back % 65536, back / 65536))).rest) ∧
      (x.arg0 = pgNVM * 256 + 0x2C →
        let d := if c.fld pgNVM NVM_MINVER_MINVER ≤ x.arg2 then
          (c.setFld pgNVM NVM_MINVER_MINVER x.arg2).wantCtl (fun y => { y with minver := x.arg2 }) else c
        let back := (d.reg pgNVM 0x2C).toNat
        exec (.auwr t) s = .next (s.after (d.finishItem t stDONE 0 true (back % 65536, back / 65536)))) ∧
      (x.arg0 = pgNVM * 256 + 0x74 →
        let d := if x.arg2 % 2 = 1 then c.eraseLog else c
        let back := (d.reg pgNVM 0x74).toNat
        exec (.auwr t) s = .next (s.after (d.finishItem t stDONE 0 true (back % 65536, back / 65536)))))

/-- Record writes, polls, flushes and the orphan queue complete. With the paths of service open and a bus that is up with
no read in progress, while no reset of the command engine waits: an attempt to write the record at the head of the
delivery queue sends its bytes; an acknowledged one takes the record off, returns its tag and lets the next waiting
items in; one answered with NACK is counted, and after the retries the requester departs. A poll, which waits while a
record's first attempt or an item read is due, ends when it is answered; one that is not is counted and remembered,
and departs its requester after the retries. The hold of a vote of CTX_OVF that has run out ends it and the rail is
arbitrated again; a vote that has been refreshed meanwhile stays. A flush completes the uncompleted items of a
context, or of all, and sets FLUSH; a POP takes the head of the orphan queue. (R148, R154, R161, R162, R163, R164,
R165, R166, R167, R169, R174) -/
def Obligations.RecordsPollsAndFlushes : Prop :=
  ∀ (s : State) (b : Fin 2), s.serviceRuns = true →
    let c := s.core
    (∀ (t : Nat) (rest : List Nat) (first : Bool), (c.bus b).up = true → (c.bus b).reading = none → c.cmd.resetDue = false → (c.bus b).queue = t :: rest →
      (first = true ↔ (c.bus b).attempts = 0) →
      let x := c.item t
      let d := if first = true ∧ x.signed = true then c.countMac else c
      let d := { d with cmd := { d.cmd with sent := (b.val, x.da, s.recordSent t) :: d.cmd.sent.filter (fun p => p.1 ≠ b.val) } }
      let d := d.modItem t (fun y => { y with phase := 5 })
      let i (ack : Bool) : Instr := if first then .recordWrite b ack else .recordRetry b ack
      (exec (i true) s = .next (s.after
        (((d.modBus b (fun q => { q with queue := rest, attempts := 0 })).freeTag t).pullQueue b))) ∧
      (let e := (d.countNack b).modBus b (fun q => { q with attempts := q.attempts + 1 })
       exec (i false) s = .next (s.after (if e.retries < (e.bus b).attempts then e.depart b x.ctx x.da else e)))) ∧
    (∀ (da ctx : Nat) (again : Bool), c.ctxOfDa b da = some ctx → (c.bus b).up = true → (c.bus b).reading = none → c.cmd.resetDue = false →
      ((c.bus b).polls.find? (fun p => p.1 = da)).isSome = again → (again = false → c.fld pgCMD CMD_CFG_POLL ≠ 0) →
      c.writeDue b = false → c.dueRead b = none →
      let d := c.modBus b (fun x => { x with polls := x.polls.filter (fun p => p.1 ≠ da) })
      let i (reply : Option Word) : Instr := if again then .getstatusRetry b da reply else .getstatusPoll b da reply
      (∀ w, exec (i (some w)) s = .next (s.after d)) ∧
      (let n := (((c.bus b).polls.find? (fun p => p.1 = da)).map (·.2)).getD 0 + 1
       let e := (d.countNack b).modBus b (fun x => { x with polls := x.polls ++ [(da, n)] })
       exec (i none) s = .next (s.after (if e.retries < n then e.depart b ctx da else e)))) ∧
    (∀ (n : Fin 8) v ends, vget c.cmd.ovfVotes n none = some (v, ends) →
      (ends ≤ c.wraps * 2 ^ 48 + c.time.toNat → exec (.ovfVoteExpire n) s = .next (s.after
        (({ c with cmd := { c.cmd with ovfVotes := vmod c.cmd.ovfVotes n (fun _ => none) } }).rearb n 0))) ∧
      (c.wraps * 2 ^ 48 + c.time.toNat < ends → exec (.ovfVoteExpire n) s = .next (s.after c))) ∧
    (∀ ctx,
      let d := c.putFields pgCMD .cmd 0x28 (BitVec.ofNat 32 (ctx % 128 + 256))
      exec (.cmdFlush ctx) s = .next (s.wrote (if ctx % 128 ≤ 64 then (d.flushCtx (ctx % 128)).raise pgCMD 7 else d))) ∧
    (exec .flushall s = .next (s.wrote
      (((List.range 65).foldl (fun c i => c.flushCtx i) (c.putFields pgCMD .cmd 0x04 (setBits (c.wordOf pgCMD 0x04) 1 1 1))).raise pgCMD 7))) ∧
    (exec .orpPop s = .next (s.wrote { c with cmd := { c.cmd with orp := c.cmd.orp.drop 1 } }))

/-- A device takes, forwards, removes or keeps each frame of the D lane. With the paths of service open and the inputs
decoded. A frame of VC1 to VC3 with a code error counts in CODEERR, and one whose CRC fails on the copy that is taken
counts in FRMLOST, a credit going back for the copy taken. A sound frame on the input that is not taken is kept if it
is the chord's, and leaves the device as it is if it is the primary's. A sound frame that is taken: before an ID is
given it is repeated; a device's own broadcast is removed, acted on by the master alone; one for this device is acted
on and removed; on the chord one for the absent predecessor is removed; a device that changes classes discards a frame
of class B, with FRMLOST, and one whose DEST is off the ring; another broadcast is acted on and goes on; and any other
frame goes on. In observe freeze a sound frame that a device with an ID takes waits whole at the input, up to four of
each channel and class, a further one being lost (read from the manual by inference, log 101). While control paths
run, a VC0 frame and a credit frame take the same course, where VC0 frames have no broadcast, and credit frames use no
credits. The model's choices in it: which copy of a damaged frame is counted and whose credit goes back (log 97), what
a device on the chord keeps and discards (log 99), and the frames that wait in a freeze (log 101). (R186, R192, R193,
R194, R196, R212, R213, R214, R215, R216) -/
def Obligations.FramesOnTheRing : Prop :=
  ∀ (s : State) (i : Instr), s.core.inputsOn = true →
    let c := s.core
    (∀ h m act, ringMessage i = some (h, m, act) → s.serviceRuns = true →
      (h.err = .code → exec i s = .next (s.after (if h.chord = c.stat pgLNK 2 then c.codeError.giveCredit m.vc h.clsB else c.codeError))) ∧
      (h.err = .crc → exec i s = .next (s.after
        (if h.chord = c.stat pgLNK 2 then (c.incSat pgLNK LNK_CNT2_FRMLOST 1).giveCredit m.vc h.clsB else c))) ∧
      (h.err = .none → h.chord ≠ c.stat pgLNK 2 → exec i s = .next (s.after
        (if h.chord then c.keepChord (.msg h.clsB h.dest h.src h.fn m) else c))) ∧
      (h.err = .none → h.chord = c.stat pgLNK 2 →
        let d := c.taken h m
        (d.ringId = 0 → exec i s = .next (s.after (d.queueFrame { vc := m.vc, frame := .msg h.clsB h.dest h.src h.fn m, free := true }))) ∧
        (d.ringId ≠ 0 →
          (h.dest = 0xFF → h.src = d.ringId → exec i s = .next (s.after ((if d.isMaster then act d else d).giveCredit m.vc h.clsB))) ∧
          (¬(h.dest = 0xFF ∧ h.src = d.ringId) →
            (d.isFor h.dest = true → exec i s = .next (s.after ((act d).giveCredit m.vc h.clsB))) ∧
            (d.isFor h.dest = false → d.standsIn h.dest = true → exec i s = .next (s.after (d.giveCredit m.vc h.clsB))) ∧
            (d.isFor h.dest = false → d.standsIn h.dest = false →
              (d.classChanger = true → h.clsB = true →
                exec i s = .next (s.after ((d.incSat pgLNK LNK_CNT2_FRMLOST 1).giveCredit m.vc true))) ∧
              (d.classChanger = true → h.clsB = false → d.onRing h.dest = false → exec i s = .next (s.after (d.giveCredit m.vc false))) ∧
              ((d.classChanger = false ∨ (h.clsB = false ∧ d.onRing h.dest = true)) →
                exec i s = .next (s.after ((if h.dest = 0xFF then act d else d).forwardMsg h m)))))))) ∧
    (∀ h m act, ringMessage i = some (h, m, act) → s.booted = true → c.rpr.depth = 1 → h.err = .none → h.chord = c.stat pgLNK 2 →
      let d := c.taken h m
      d.ringId ≠ 0 →
        let n := (d.lnk.inq.filter (fun y => y.msg.vc = m.vc && y.head.clsB = h.clsB)).length
        (n < 4 → ∃ bound, act = (fun e => e.ringAct h.src bound m) ∧
          exec i s = .next (s.after { d with lnk := { d.lnk with inq := d.lnk.inq ++ [⟨h, m, bound, false⟩] } })) ∧
        (4 ≤ n → exec i s = .next (s.after (d.incSat pgLNK LNK_CNT2_FRMLOST 1)))) ∧
    (∀ h ty port p act, orderFrame i = some (h, ty, port, p, act) → s.controlRuns = true →
      let f : Frame := .vc0 h.dest ty port (p % 2 ^ 24)
      (h.err = .code → exec i s = .next (s.after (if h.chord = c.stat pgLNK 2 then c.codeError.giveCredit 0 h.clsB else c.codeError))) ∧
      (h.err ≠ .code → h.chord ≠ c.stat pgLNK 2 → exec i s = .next (s.after c)) ∧
      (h.err ≠ .code → h.chord = c.stat pgLNK 2 →
        (c.ringId = 0 → exec i s = .next (s.after (c.queueFrame { vc := 0, frame := f, free := true }))) ∧
        (c.ringId ≠ 0 → h.dest = c.ringId → exec i s = .next (s.after ((act c).giveCredit 0 h.clsB))) ∧
        (c.ringId ≠ 0 → h.dest ≠ c.ringId → c.lnk.absent = some h.dest → exec i s = .next (s.after (c.giveCredit 0 h.clsB))) ∧
        (c.ringId ≠ 0 → h.dest ≠ c.ringId → c.lnk.absent ≠ some h.dest →
          (c.classChanger = true → h.clsB = true →
            exec i s = .next (s.after ((c.incSat pgLNK LNK_CNT2_FRMLOST 1).giveCredit 0 true))) ∧
          (c.classChanger = true → h.clsB = false → c.onRing h.dest = false → exec i s = .next (s.after (c.giveCredit 0 false))) ∧
          ((c.classChanger = false ∨ (h.clsB = false ∧ c.onRing h.dest = true)) →
            exec i s = .next (s.after (c.queueFrame
              { vc := 0, clsB := h.clsB || c.classChanger, frame := f, free := c.creditFree 0, back := some (0, h.clsB) })))))) ∧
    (∀ h vc cls count, i = .creditFrame h vc cls count → s.controlRuns = true →
      (h.err = .code → exec i s = .next (s.after c.codeError)) ∧
      (h.err ≠ .code → h.chord ≠ c.stat pgLNK 2 → exec i s = .next (s.after c)) ∧
      (h.err ≠ .code → h.chord = c.stat pgLNK 2 →
        (c.ringId ≠ 0 → h.dest = c.ringId →
          let k := 2 * (vc % 4) + cls % 2
          exec i s = .next (s.after { c with lnk := { c.lnk with
            credits := vmod c.lnk.credits k (fun x => min (if k < 2 then 16 else 4) (x + count)) } })) ∧
        (¬(c.ringId ≠ 0 ∧ h.dest = c.ringId) →
          (c.lnk.absent = some h.dest ∨ (c.classChanger = true ∧ c.onRing h.dest = false) → exec i s = .next (s.after c)) ∧
          (¬(c.lnk.absent = some h.dest ∨ (c.classChanger = true ∧ c.onRing h.dest = false)) →
            exec i s = .next (s.after (c.queueFrame { vc := 4, frame := .credit h.dest vc cls count, free := true }))))))

/-- The commands that enable, enumerate, measure and open the ring complete. With the paths of service open: EN takes the
device onto the ring in ring state 1; EN 0 returns ID, count, bindings and readiness to 0, releases the lent ports and
closes the links. The input lock is kept. OPEN on a master with no second one is refused with REJ while a cascaded
rail runs, waits for the lock, or starts the enumeration with ENUM of 2. A device that takes ENUM keeps its ID and
sends on the next; a master that takes a foreign one reports it and goes no further; its own ENUM gives the count, or
OPENFAIL with cause 5 beyond 256. A measurement stores its latencies and reports them to the master, and outside 0 to
25 ns ends the bring-up with cause 1; the master keeps what it is sent and sends the map once it has all. A slot map
is taken on a device that is no master, every cascaded rail is checked, its lenders asked and told to bind when all
checks pass, and the device answers the master. A binding check is answered with what the port's lending says, and its
confirmation binds the port. The last answer makes the master broadcast OPEN, or refuse it with REJ and its own ring
as before; OPEN opens the ring, or restores what stood before it. The model's choices in it: when a port is bound and
what EN 0 ends at once (log 32), what an opening keeps and a refusal restores (log 98), and that the answers to a
binding check travel in SLOTMAP_FRAME (log 25). (R194, R195, R196, R197, R198, R199, R200, R201, R209, R215, R219) -/
def Obligations.RingOpening : Prop :=
  ∀ (s : State), s.serviceRuns = true →
    let c := s.core
    let on := c.setFld pgLNK LNK_CTRL_EN 1
    (c.ringOn = false → exec (.lnkEnable true) s = .next (s.wrote (on.setRstate 1))) ∧
    (c.ringOn = true → exec (.lnkEnable true) s = .next (s.wrote on)) ∧
    (c.ringOn = false → exec (.lnkEnable false) s = .next (s.wrote (c.setFld pgLNK LNK_CTRL_EN 0))) ∧
    (c.ringOn = true → exec (.lnkEnable false) s = .next (s.wrote
      (let d := (((c.setFld pgLNK LNK_CTRL_EN 0).setFld pgLNK LNK_ID_DEVID 0).setFld pgLNK LNK_ID_NDEV 0).setRstate 0
       let d := (List.range 8).foldl (fun (c : Core) n => c.setFld pgLNK (LNK_CRST_READY n) 0) d
       let d := (List.range 24).foldl (fun (c : Core) k => c.setFld pgLNK (LNK_LEND_BOUND k) 0) d
       let d := (d.setLevel pgLNK 2 false).setLevel pgLNK 4 false
       ({ d with
         lnk := { d.lnk with
           locked := false, openDue := false, absent := none, credits := Vector.replicate 8 0, outq := [], inq := [], failed := false, prior := none
           meas := [], map := [], chordDelay := 0, chordStore := [], chordSeen := [], source := false }
         flt := { d.flt with live := d.flt.live.filter (fun p => p.1 ≠ 0x38) } }).lentAllRelease.showLabels))) ∧
    (c.ringOn = true → c.lnk.openDue = false → exec .lnkInputLock s = .next (s.after { c with lnk := { c.lnk with locked := true } })) ∧
    (c.ringOn = true → on.isMaster = true → on.stat pgLNK 12 = false → on.ringOn = true →
      (on.cascBusy = true → exec .ringOpen s = .next (s.wrote (on.raise pgLNK 13))) ∧
      (on.cascBusy = false → on.lnk.locked = false →
        exec .ringOpen s = .next (s.wrote ({ on with lnk := { on.lnk with openDue := true } }.setFld pgLNK LNK_CTRL_OPEN 1))) ∧
      (on.cascBusy = false → on.lnk.locked = true → exec .ringOpen s = .next (s.wrote
        ((((on.openBegins.setFld pgLNK LNK_CTRL_OPEN 0).setFld pgLNK LNK_ID_DEVID 1).setRstate 2).sendMsg 0xFF (.enum 2))))) ∧
    (∀ (h : FrameHead) (id : Nat) (own : Bool), c.inputsOn = true → h.err = .none → h.chord = c.stat pgLNK 2 →
      let full (d : Core) : Core := { d with lnk := { d.lnk with credits := fullCredits } }
      (c.isMaster = false →
        let d := full c.openBegins
        exec (.enumFrame h id own) s = .next (s.after
          ((if id < 256 then (d.setFld pgLNK LNK_ID_DEVID id).setRstate 2 else d).queueFrame
            { vc := 3, frame := .msg h.clsB h.dest h.src h.fn (.enum (id + 1)), free := true }))) ∧
      (c.isMaster = true → own = false → exec (.enumFrame h id own) s = .next (s.after
        (let d := { c with lnk := { c.lnk with failed := true, openDue := false } }
         ((d.setLevel pgLNK 12 true).setLive 0x3E (ringAddr d.ringId none) true).send 0x3E 0 (ringAddr d.ringId none)))) ∧
      (c.isMaster = true → own = true → c.rstate = 2 → c.lnk.failed = false →
        (id ≤ 256 → exec (.enumFrame h id own) s = .next (s.after (((full c).setFld pgLNK LNK_ID_NDEV (id - 1)).setRstate 3))) ∧
        (256 < id → exec (.enumFrame h id own) s = .next (s.after
          (let d := (full c).setRstate 3
           ({ d with lnk := { d.lnk with failed := true } }).openFail 5 none))))) ∧
    (∀ (id fwd : Nat) (chofs : Int) (rtt : Nat), c.ringOn = true → c.ringId ≠ 0 → c.rstate = 2 ∨ c.rstate = 3 → c.lnk.failed = false →
      exec (.ringMeasureDone none id fwd chofs rtt) s = .next (s.after
        (let d := (c.setRstate 3).setFld pgLNK LNK_MEAS_FWD (min 511 fwd)
         let d := if 0 ≤ chofs && chofs < 1024 then d.setFld pgLNK LNK_MEAS_CHOFS chofs.toNat else d.freeFld pgLNK LNK_MEAS_CHOFS
         let d := if chofsOk chofs then { d with lnk := { d.lnk with chordDelay := chofs.toNat } } else d
         if d.isMaster then (d.setFld pgLNK LNK_RTT_RTT (min 0xFFFF rtt)).collect 1 (min 511 fwd) chofs
         else
           let e := d.sendMsg 1 (.measure d.ringId (min 511 fwd) chofs)
           if chofsOk chofs then e else ({ e with lnk := { e.lnk with failed := true } }).openFail 1 none))) ∧
    (∀ (h : FrameHead), c.listens h = true → c.heeds h = true →
      (∀ (id fwd : Nat) (chofs : Int) (rtt : Nat),
        let m : RingMsg := .measure id fwd chofs
        let d := c.taken h m
        d.isMaster = true → d.rstate = 3 → d.lnk.failed = false →
        exec (.ringMeasureDone (some h) id fwd chofs rtt) s = .next (s.after (c.passes h m
          (if !chofsOk chofs then ({ d with lnk := { d.lnk with failed := true } }).openFail 1 none
           else ({ d with lnk := { d.lnk with meas := d.lnk.meas.filter (fun (p : Nat × Nat) => p.1 ≠ id) ++ [(id, fwd)] } }).sendMap)))) ∧
      (∀ ndev map hops bound,
        let m : RingMsg := .slotMap ndev map hops
        let d := c.taken h m
        d.ringOn = true → d.ringId ≠ 0 → d.rstate = 2 ∨ d.rstate = 3 → d.lnk.failed = false →
        exec (.slotmapFrame h ndev map hops bound) s = .next (s.after (c.passes h m
          (let d := (d.setFld pgLNK LNK_ID_NDEV ndev).setRstate 3
           let d := if d.isMaster then d
             else (List.range 4).foldl (fun (c : Core) m => c.setReg pgLNK (0x24 + 4 * m)
               (BitVec.ofNat 32 ((List.range 4).foldl (fun a i => a + ((map[4 * m + i]?).getD 0) % 256 * 2 ^ (8 * i)) 0)))
               ({ d with lnk := { d.lnk with map := map, hops := hops } } : Core)
           let d := (List.range 8).foldl (fun (c : Core) n =>
             if !c.cascaded n then c.setFld pgLNK (LNK_CRST_READY n) 0
             else
               let l := c.remoteEntries n
               let c := l.foldl (fun (c : Core) p => c.sendMsg p.1 (.bindCheck p.2 n false)) c
               let f := c.ringChecks n bound
               let c := c.setFld pgLNK (LNK_CRST_READY n) (b2n (f = 0))
               if f = 0 then l.foldl (fun (c : Core) p => c.sendMsg p.1 (.bindCheck p.2 n true)) c else c.openFail f (some n)) d.showLabels
           d.sendMsg 1 (.answer d.ringId d.cascBusy))))) ∧
      (∀ (k rail : Nat) (confirm : Bool),
        let m : RingMsg := .bindCheck k rail confirm
        let d := c.taken h m
        let ok := k < 24 && d.flag pgLNK (LNK_LEND_EN k) && d.fld pgLNK (LNK_LEND_OWNER k) = h.src && d.fld pgLNK (LNK_LEND_ORAIL k) = rail
        d.rstate = 3 →
        exec (.bindCheckFrame h k rail confirm) s = .next (s.after (c.passes h m
          (if confirm then (if ok then d.setFld pgLNK (LNK_LEND_BOUND k) 1 else d) else d.sendMsg h.src (.bindAnswer k rail ok))))) ∧
      (∀ (id : Nat) (busy : Bool),
        let m : RingMsg := .answer id busy
        let d := c.taken h m
        let a := if d.lnk.answers.contains id then d.lnk.answers else d.lnk.answers ++ [id]
        let e := { d with lnk := { d.lnk with answers := a, busyRail := d.lnk.busyRail || busy } }
        d.isMaster = true → d.rstate = 3 → d.lnk.failed = false →
        exec (.cascadeCheckAnswer h id busy) s = .next (s.after (c.passes h m
          (if a.length < e.fld pgLNK LNK_ID_NDEV then e
           else if e.lnk.busyRail then (e.sendMsg 0xFF (.opened true)).openRefused.raise pgLNK 13 else e.sendMsg 0xFF (.opened false))))) ∧
      (∀ refused : Bool,
        let m : RingMsg := .opened refused
        let d := c.taken h m
        d.ringOn = true → d.ringId ≠ 0 → d.rstate = 3 → d.lnk.failed = false →
        exec (.openFrame h refused) s = .next (s.after (c.passes h m
          (if refused then d.openRefused
           else ({ d with lnk := { d.lnk with
             prior := none, lentFired := Vector.replicate 24 false
             lentLater := Vector.replicate 24 true, preloads := Vector.replicate 24 none } }).setRstate 4)))))

/-- Slots, tokens, orders and firing summaries on the ring complete. While control paths run and with the inputs decoded:
an idle slot counts each damaged copy as a code error, and a serial number out of turn in the copy that is left as
another and takes it; before the lock slots are only counted. When the oldest firing that waits is remote, its phase a
member, and the slot that leaves next an owned one, the token leaves: the on-time of the latest preload begins at the
predicted edge, the clamps that the preload met are shown, a summary is awaited and the next PRELOAD sent; overdue
summaries have counted first. A token counts its damaged copies, and: damaged in both it goes on as an idle slot;
before an ID is given it is repeated; a chord copy for the predecessor is consumed; a sink discards one for another
with MISS, and other devices send it on. A token for this device is consumed: MISS counts for a port not lent to that
rail; HELD answers in a trip, a safe or frozen state or while high; MISSED under the current limit or without a
PRELOAD; otherwise the port fires and FIRED answers. PRELOAD and MID orders are kept for bound ports. A summary of an
awaited firing counts LATE beyond the budget and, unless it was overdue, a failure; in time FIRED ends the failures in
a row and corrects the model, and MISSED and HELD end its on-time and count MISS and a failure. The model's choices in
it: slots and tokens count only once the inputs have locked, and what a lender in full freeze answers (log 32), and
the instant of the predicted edge (log 26). (R117, R186, R187, R188, R189, R190, R192, R203, R204, R205, R212, R235) -/
def Obligations.LoopChannel : Prop :=
  ∀ (s : State), s.controlRuns = true →
    let c := s.core
    (c.ringOn = true → c.lnk.locked = false → ∀ prim chord, exec (.fLaneSlot prim chord) s = .next (s.after (c.slotOut false))) ∧
    (c.inputsOn = true → ∀ prim chord,
      let d := if prim.isNone then c.codeError else c
      let d := if chord.isNone then d.codeError else d
      (prim = none → chord = none → exec (.fLaneSlot prim chord) s = .next (s.after (d.slotOut false))) ∧
      (∀ v, prim.orElse (fun _ => chord) = some v → exec (.fLaneSlot prim chord) s = .next (s.after
        ((if v % 256 = (d.lnk.ssnIn + 1) % 256 then d
          else { d.codeError with lnk := { d.lnk with ssnIn := (v + 255) % 256 } }).slotOut false)))) ∧
    (∀ (n : Fin 8) (d : Due) (rest : List Due) (x : Slot), (c.rail n).due = d :: rest → c.crowHeld n = false → c.tripped n = false →
      d.dev ≠ 0 →
      let e := c.overdue n d.dev d.port
      (e.rail n).due = d :: rest → (e.rail n).order.find? (fun x => x.dev = d.dev && x.port = d.port && x.member) = some x →
      e.rstate = 4 → e.ownLabels.contains (e.nextSsn % 16) = true → (e.remote n d.dev d.port).notBefore ≤ e.time.toNat →
      e.offPassed n x = true →
      exec (.tokenDispatch n) s = .next (s.after
        (let f := e.modRail n (fun r => { r with due := rest })
         let y := f.remote n d.dev d.port
         let edge := f.predictedEdge d.dev
         let f := ((f.slotOut true).sendFrame (.token d.dev n d.port)).modSlot n d.dev d.port (fun x => { x with fire := some (edge, y.preload) })
         let f := (f.setLevel (pgV n) 21 y.preRaised).setLevel (pgV n) 22 y.preLowered
         (f.modRemote n d.dev d.port (fun y => { y with awaits := y.awaits ++ [⟨d.at_, edge, false⟩] })).sendPreload n d.dev d.port))) ∧
    (c.inputsOn = true → ∀ (devid rail port : Nat) (a b : Bool) (age : Option Nat),
      let d := if a then c.codeError else c
      let d := if b then d.codeError else d
      ((a && b) = true → exec (.token devid rail port a b age) s = .next (s.after (d.slotOut false))) ∧
      ((a && b) = false →
        (d.ringId = 0 → exec (.token devid rail port a b age) s = .next (s.after ((d.slotOut true).sendFrame (.token devid rail port)))) ∧
        (d.ringId ≠ 0 → devid ≠ d.ringId →
          ((a && devid = d.predecessor) = true → exec (.token devid rail port a b age) s = .next (s.after (d.slotOut false))) ∧
          ((a && devid = d.predecessor) = false → d.isSink = true →
            exec (.token devid rail port a b age) s = .next (s.after ((d.slotOut false).countMiss))) ∧
          ((a && devid = d.predecessor) = false → d.isSink = false →
            exec (.token devid rail port a b age) s = .next (s.after ((d.slotOut true).sendFrame (.token devid rail port))))) ∧
        (d.ringId ≠ 0 → devid = d.ringId →
          let safe := c.stat pgFLT 3 || s.pw.grave
          let d := d.slotOut false
          ((d.lentBound port && d.fld pgLNK (LNK_LEND_ORAIL port) = rail) = false →
            exec (.token devid rail port a b age) s = .next (s.after d.countMiss)) ∧
          ((d.lentBound port && d.fld pgLNK (LNK_LEND_ORAIL port) = rail) = true →
            (d.lentHeld port safe = true → exec (.token devid rail port a b age) s = .next (s.after (d.sendSummary port 4 age))) ∧
            (d.lentHeld port safe = false → d.cmpHi (8 + port) = true →
              exec (.token devid rail port a b age) s = .next (s.after ((d.limitedFiring port).sendSummary port 3 age))) ∧
            (d.lentHeld port safe = false → d.cmpHi (8 + port) = false → vget d.lnk.preloads port none = none →
              exec (.token devid rail port a b age) s = .next (s.after (d.sendSummary port 3 age))) ∧
            (∀ ton, d.lentHeld port safe = false → d.cmpHi (8 + port) = false → vget d.lnk.preloads port none = some ton →
              let g := d.fld pgTRP TRP_CFG_LENTGRP
              let e := { d with lnk := { d.lnk with
                preloads := vmod d.lnk.preloads port (fun _ => none)
                lentFired := vmod d.lnk.lentFired port (fun _ => true)
                lentMid := vmod d.lnk.lentMid port (fun _ => false)
                lentLater := vmod d.lnk.lentLater port (fun _ => false) } }
              exec (.token devid rail port a b age) s = .next (s.after
                ((e.portHigh port (if g < 8 then e.fld pgTRP (TRP_RAIL_LEB g) else 0)).sendSummary port 2 age))))))) ∧
    (∀ (h : FrameHead), c.inputsOn = true → c.ringId ≠ 0 → h.err ≠ .code → h.chord = c.stat pgLNK 2 → h.dest = c.ringId →
      (∀ k ton, c.lentBound k = true →
        exec (.preload h k ton) s = .next (s.after
          (({ c with lnk := { c.lnk with preloads := vmod c.lnk.preloads k (fun _ => some (ton % 2 ^ 18)) } } : Core).giveCredit 0 h.clsB)) ∧
        exec (.mid h k) s = .next (s.after
          (({ c with lnk := { c.lnk with
              lentMid := vmod c.lnk.lentMid k (fun _ => true), preloads := vmod c.lnk.preloads k (fun _ => none) } } : Core).giveCredit 0 h.clsB))) ∧
      (∀ (dev port : Nat) (isamp : Int) (age late n : Nat) (a : Await) (rest : List Await), c.awaited dev port = some n →
        (c.fld pgLNK (LNK_CR_BUDGET n) < late →
          let d := (c.incSat pgLNK LNK_CNT1_LATE 1).raise pgLNK 8
          takeAwait true (d.remote n dev port).awaits = some (a, rest) →
          ∀ i, i = .fired h dev port isamp age late ∨ i = .missed h dev port isamp age late ∨ i = .held h dev port isamp age late →
          exec i s = .next (s.after
            ((let e := d.modRemote n dev port (fun y => { y with awaits := rest })
              if a.lost then e else e.remoteFail n dev port).giveCredit 0 h.clsB))) ∧
        (late ≤ c.fld pgLNK (LNK_CR_BUDGET n) → takeAwait false (c.remote n dev port).awaits = some (a, rest) →
          let e := c.modRemote n dev port (fun y => { y with awaits := rest })
          let f := e.modRemote n dev port (fun y => { y with fails := 0 })
          let g := e.modSlot n dev port (fun x => x.unfired isamp a.edge e.time.toNat)
          (15 ≤ age → exec (.fired h dev port isamp age late) s = .next (s.after (f.giveCredit 0 h.clsB))) ∧
          (age < 15 → exec (.fired h dev port isamp age late) s = .next (s.after
            ((f.modSlot n dev port (fun x => x.correct isamp a.edge age (f.fld (pgV n) V_MODEL_CSHIFT))).giveCredit 0 h.clsB))) ∧
          (exec (.missed h dev port isamp age late) s = .next (s.after ((g.countMiss.remoteFail n dev port).giveCredit 0 h.clsB))) ∧
          (exec (.held h dev port isamp age late) s = .next (s.after ((g.countMiss.remoteFail n dev port).giveCredit 0 h.clsB))))))

/-- Lent identification, relays, timeouts, absences and breaks complete. With the paths of service open, on a frame that
the device acts on: the owner's request begins the fit of a bound lent port, and a lender's request makes the owner
keep the settings and ask its arbiter for the identification; a lender's slope is kept for the identification that
runs, or ends it with cause 3 when the dither is over. A relayed stage fault, or its release, changes the live level
of each rail with a remote port of that group, and a fault sends its message. An absence drops the members on the
device it names, and a break breaks a ring that has opened. A fired lent port that sees no token for its timeout goes
to mid once its on-time has ended, with LENDTMO. On a ring that has opened the loss of the primary puts the device on
the chord, names its predecessor absent, makes device 2 the deputy of the master, broadcasts ABSENT, drops the members
there and recovers the frames that the chord kept; a returned primary ends the chord; and two invalid inputs make a
device that is no source yet one, count and broadcast the break, and break the ring: its message, lent ports released
and every remote member dropped. The model's choices in it: how the identification of a lent port is asked for and
shown (log 75), that a loss or a break acts in ring states 4 and 5 alone and what a device on the chord takes again
(log 99), and the ADDR of CHORD and RINGBRK (log 32). (R119, R122, R206, R207, R212, R213, R214, R215, R216, R217,
R218) -/
def Obligations.LendingAndBrokenRings : Prop :=
  ∀ (s : State), s.serviceRuns = true →
    let c := s.core
    let broken (d : Core) : Core :=
      (((d.setRstate 5).setLive 0x39 (ringAddr d.ringId none) true).lentAllRelease).dropWhere (fun _ => true)
    (∀ h : FrameHead, c.listens h = true → c.heeds h = true →
      (∀ k,
        let m : RingMsg := .idRequest k none
        let d := c.taken h m
        d.lentBound k = true → d.fld pgLNK (LNK_LEND_OWNER k) = h.src → d.lnk.idLent.contains k = false →
        exec (.idRequestFrame h k none) s = .next (s.after (c.passes h m
          (({ d with lnk := { d.lnk with idLent := d.lnk.idLent ++ [k] } }.modPort k (fun p => { p with fit := { on := true } })).setLevel
            (pgP k) 3 true)))) ∧
      (∀ k dith hw nrep n,
        let m : RingMsg := .idRequest k (some (dith, hw, nrep))
        let d := c.taken h m
        d.railOfRemote h.src k = some n → (d.remote n h.src k).ident.busy = false →
        exec (.idRequestFrame h k (some (dith, hw, nrep))) s = .next (s.after (c.passes h m
          (let e := d.modRemote n h.src k (fun y => { y with ident := {
             dith := zeroAsOne dith, hw := zeroAsOne hw, nrep := zeroAsOne nrep } })
           (e.requestAct ⟨actIDENT, 32 * h.src + k, 0⟩).pumpIdents)))) ∧
      (∀ k num den n,
        let m : RingMsg := .idResult k num den
        let d := c.taken h m
        let e := d.modRemote n h.src k (fun y => { y with ident := y.ident.turn d.time.toNat })
        let p := (e.remote n h.src k).ident
        d.railOfRemote h.src k = some n → p.busy = true →
        (p.nrep ≤ p.pairs → exec (.idResultFrame h k num den) s = .next (s.after (c.passes h m (e.endRemoteIdent n h.src k 3)))) ∧
        (p.pairs < p.nrep → exec (.idResultFrame h k num den) s = .next (s.after (c.passes h m
          (e.modRemote n h.src k (fun y => { y with ident := { y.ident with slope := some ((num : Rat) / den) } })))))) ∧
      (∀ group on,
        let m : RingMsg := .faultRelay group on
        exec (.faultRelayFrame h group on) s = .next (s.after (c.passes h m
          ((List.range 8).foldl (fun (c : Core) n =>
            if (c.rail n).order.any (fun x => x.dev = h.src && x.dev ≠ 0 && x.port / 8 = group) then
              let d := c.setLive 0x3F (ringAddr h.src (some n)) on
              if on then d.send 0x3F group (ringAddr h.src (some n)) else d
            else c) (c.taken h m))))) ∧
      (∀ id,
        let m : RingMsg := .absent id
        exec (.absentNotice h id) s = .next (s.after (c.passes h m ((c.taken h m).dropWhere (fun x => x = id))))) ∧
      (∀ id,
        let m : RingMsg := .broken id
        let d := c.taken h m
        exec (.breakNotice h id) s = .next (s.after (c.passes h m (if d.rstate = 4 || d.rstate = 5 then broken d else d))))) ∧
    (∀ (k : Fin 24) (us : Nat), c.lentBound k = true → vget c.lnk.lentFired k false = true → vget c.lnk.lentMid k true = false →
      vget c.lnk.lentLater k false = false → zeroAsOne (c.fld pgLNK (LNK_LEND_TMO k)) ≤ us →
      exec (.lendtmo k us) s = .next (s.after
        (({ c with lnk := { c.lnk with lentLater := vmod c.lnk.lentLater k (fun _ => true) } }.raise pgLNK 7).send 0x3C 0 (mkAddr 2 k)))) ∧
    (c.rstate = 4 ∨ c.rstate = 5 → c.stat pgLNK 2 = false →
      let p := if c.ringId ≤ 1 then c.fld pgLNK LNK_ID_NDEV else c.ringId - 1
      let d := { c with lnk := { c.lnk with absent := some p, chordStore := [], chordSeen := [] } }
      let d := (((d.setLevel pgLNK 2 true).setLive 0x38 (ringAddr p none) true).send 0x38 0 (ringAddr p none)).incSat pgLNK LNK_CNT0_CHORDSW 1
      let d := if p = 1 && d.ringId = 2 then d.setLevel pgLNK 4 true else d
      exec .primaryLoss s = .next (s.after (((d.sendMsg 0xFF (.absent p)).dropWhere (fun x => x = p)).recover p c.lnk.chordStore))) ∧
    (c.stat pgLNK 2 = true →
      let d := c.setLevel pgLNK 2 false
      exec .primaryReturn s = .next (s.after
        { d with lnk := { c.lnk with absent := none, chordStore := [], chordSeen := [] }
                 flt := { c.flt with live := c.flt.live.filter (fun p => p.1 ≠ 0x38) } })) ∧
    (c.lnk.source = true → exec .ringBreak s = .next (s.after c)) ∧
    (c.rstate = 4 ∨ c.rstate = 5 → c.lnk.source = false →
      let d := (({ c with lnk := { c.lnk with source := true } } : Core).incSat pgLNK LNK_CNT2_BRK 1).sendMsg 0xFF (.broken c.ringId)
      exec .ringBreak s = .next (s.after (broken (d.send 0x39 0 (ringAddr d.ringId none)))))

/-- Comparator changes, the wake edge and threshold writes complete. While the core is out of reset a side of a comparator
other than C50 and C51 that changes takes its new level, sets its HIT bit on assertion, renews the levels of CMP_STAT
and acts on what it watches; a current limit that is held asserted stays. C50 and C51 also keep their level in the
always-on domain: VCC33 falling or rising changes both, and WAKE rising counts a wake edge in a running core and wakes
a PARKED one, and WAKE falling ends its level. A threshold is stored when LO does not lie above HI, and otherwise
refused with THRERR; the always-on domain takes a stored CMP_THR25 (R407), and a mode register takes its fields. (R10,
R220, R223, R224, R226, R227, R228, R229, R241, R255, R360, R404) -/
def Obligations.ComparatorsAndThresholds : Prop :=
  ∀ (s : State),
    let c := s.core
    (∀ (i : Fin 56) (hi b : Bool), s.alive = true → i.val ≠ 50 → i.val ≠ 51 → c.cmpSide i hi ≠ b → (b = true ∨ i.val < 8 ∨ 32 ≤ i.val ∨ c.stat (pgP (i.val - 8)) 1 = true) →
      let d := if b then (c.setOut i hi b).setHit i hi else c.setOut i hi b
      (if b then exec (.comparatorAssert i hi) s else exec (.comparatorDeassert i hi) s) =
        .next (s.after ((d.syncCmp.sideEffect i hi b).xSide i hi b))) ∧
    (∀ b, s.alive = true → s.pw.isGood 4 = true → s.pw.lo50 ≠ b →
      (if b then exec (.comparatorAssert 50 false) s else exec (.comparatorDeassert 50 false) s) =
        .next (({ s with pw := { s.pw with lo50 := b } }).after (c.cmpChange 50 false b))) ∧
    (s.alive = true → s.pw.isGood 4 = true → s.pw.lo51 = false → s.pw.hi51 = false →
      let d := c.cmpChange 51 true true
      let t := ({ s with pw := { s.pw with hi51 := true } }).after (((d.incSat pgBKH BKH_WAKE_EDGES 1).setStat pgBKH 7 true).raise pgBKH 7)
      exec .wakeEdge s = .next t ∧ exec (.comparatorAssert 51 true) s = .next t) ∧
    (s.pw.isGood 4 = true → s.pw.pstate = .parked → s.pw.lo51 = false → s.pw.hi51 = false →
      exec .wakeEdge s = .next (State.toWaking { s with pw := { s.pw with hi51 := true }, core := c.setOut 51 true true } 2 true)) ∧
    (s.alive = true → s.pw.isGood 4 = true → s.pw.hi51 = true →
      exec (.comparatorDeassert 51 true) s = .next
        (({ s with pw := { s.pw with hi51 := false } }).after ((c.cmpChange 51 true false).setStat pgBKH 7 false))) ∧
    (∀ (i : Fin 28) (v : Word), s.serviceRuns = true → c.locked pgCMP (CMP_THR_LO0 i) = false →
      let ok := thrOrdered (2 * i) (getBits v 0 8) (getBits v 8 8) && thrOrdered (2 * i + 1) (getBits v 16 8) (getBits v 24 8)
      (ok = true → exec (.cmpThresholdWrite i v) s =
        .next (({ s with core := c.setReg pgCMP (0x20 + 4 * i) v
                         pw := if i.val = 25 then { s.pw with thr25 := v } else s.pw } : State).rest).frameEnd) ∧
      (ok = false → exec (.cmpThresholdWrite i v) s = .next (s.wrote (c.raise pgCMP 31)))) ∧
    (∀ (i : Fin 4) (v : Word), s.serviceRuns = true →
      exec (.cmpModeWrite i v) s = .next (s.wrote (c.putFields pgCMP .cmp (0xAC + 4 * i) v)))

/-- Crowbar clears, limits, hiccups, undervoltage and the trip matrix complete. While the core is out of reset the limit's
activity expires; a hiccup trigger with its cause there takes EN to 0, and with retries left counts one, keeps SOFTOFF
and starts the wait with its level and message, else ends the count with OCF and its message; UVARM is set after its
blanking in HOLD or SLEW, and an armed undervoltage outside a limit sets its level, bit and message; a filtered line
that changes takes its level, its event on a rise, and the groups follow. With the paths of service open a wait ends
with EN back to 1 and SOFTOFF as kept, a good rail's count is cleared, a crowbar is cleared, or refused with CLR_REJ
while its side is asserted, and so is a trip while a line of its group is active. The model's choice in it: a crowbar
that is cleared gives each remote member a new PRELOAD (log 28). (R229, R231, R233, R236, R237, R238, R239, R245,
R246, R247, R248, R250) -/
def Obligations.CrowbarHiccupAndTrips : Prop :=
  ∀ (s : State), s.alive = true →
    let c := s.core
    (∀ n : Fin 8, exec (.pclactExpire n) s = .next (s.after (c.setFld pgTRP (TRP_RST_PCLACT n) 0))) ∧
    (∀ (n : Fin 8) (byRoc : Bool) (count : Nat), c.hiccupCause n byRoc count = true →
      let soft := c.flag (pgV n) V_CTRL_SOFTOFF
      let k := c.fld pgTRP (TRP_RST_HCNT n)
      let d := c.writeEn n false false false
      (k < d.fld pgTRP (TRP_RAIL_HICRETRY n) → exec (.hiccupTrigger n byRoc count) s = .next (s.after
        (let d := { d with prot := { d.prot with keptSoft := vmod d.prot.keptSoft n (fun _ => soft) } }
         let d := (d.setFld pgTRP (TRP_RST_HCNT n) (k + 1)).setFld pgTRP (TRP_RST_HICW n) 1
         ((d.setLevel pgTRP (24 + n) true).setLive 0x03 (mkAddr 1 n) true).send 0x03 0 (mkAddr 1 n)))) ∧
      (d.fld pgTRP (TRP_RAIL_HICRETRY n) ≤ k → exec (.hiccupTrigger n byRoc count) s = .next (s.after
        (((d.setFld pgTRP (TRP_RST_HCNT n) 0).raise pgCMP (16 + n)).send 0x02 0 (mkAddr 1 n))))) ∧
    (∀ n : Fin 8, (c.rail n).rstate = .hold ∨ (c.rail n).rstate = .slew →
      exec (.uvArm n) s = .next (s.after (c.setFld pgTRP (TRP_RST_UVARM n) 1))) ∧
    (∀ n : Fin 8, c.cmpLo n = true → c.flag pgTRP (TRP_RST_UVARM n) = true → c.flag pgTRP (TRP_RST_PCLACT n) = false → c.stat pgCMP (8 + n) = false →
      exec (.uvFault n) s = .next (s.after
        ((((c.setStat pgCMP (8 + n) true).raise pgCMP (8 + n)).setLive 0x01 (mkAddr 1 n) true).send 0x01 0 (mkAddr 1 n)))) ∧
    (∀ (l : Nat) (b : Bool), l < 16 → c.lineOn l = !b → c.lineSignal l ≠ some (!b) →
      let d := c.setReg pgTRP 0x98 (putBit (c.reg pgTRP 0x98) l b)
      let d := if b then d.setReg pgTRP 0x98 (putBit (d.reg pgTRP 0x98) (16 + l) true) else d
      (if b then exec (.tripLineActive l) s else exec (.tripLineInactive l) s) = .next (s.after d.syncTrips)) ∧
    (s.serviceRuns = true →
      (∀ n : Fin 8, c.flag pgTRP (TRP_RST_HICW n) = true → exec (.hiccupRestart n) s = .next (s.after
        ((c.hicCancel n).writeEn n true (vget c.prot.keptSoft n true) false))) ∧
      (∀ n : Fin 8, c.stat (pgV n) 0 = true → exec (.hiccupCountClear n) s = .next (s.after (c.setFld pgTRP (TRP_RST_HCNT n) 0))) ∧
      (∀ n : Fin 8, c.crowHeld n = true →
        (c.cmpHi n = true → exec (.crowClear n) s = .next (s.wrote ((c.clearSticky pgTRP (16 + n) false).raise pgTRP 12))) ∧
        (c.cmpHi n = false → exec (.crowClear n) s = .next (s.wrote
          (((c.setStat pgTRP (16 + n) false).clearSticky pgTRP (16 + n) false).rejoinRemotes n)))) ∧
      (∀ g : Fin 12, c.stky pgTRP g = true →
        (c.groupLines g ≠ [] → exec (.tripClear g) s = .next (s.wrote ((c.clearSticky pgTRP g false).raise pgTRP 12))) ∧
        (c.groupLines g = [] → exec (.tripClear g) s = .next (s.wrote
          (let d := c.setReg pgTRP 0x0C (putBit (c.reg pgTRP 0x0C) g false)
           ({ d with prot := { d.prot with forced := d.prot.forced &&& ~~~(1#12 <<< g.val) } }).syncTrip g)))))

/-- Enables, reloads and forces of the auxiliary channels complete. With the paths of service open a write of one enable
writes EN of that channel and the others as they stand; a rise in OFF starts the channel with its ceiling at 0 and its
overvoltage side looked at, a fall in START or RUN ends it at its next boundary, and anything else stores EN alone: EN
written as it stands, a rise in START, RUN or SAFE, and a fall in OFF or SAFE. A reload request is kept for the
channel. A force with FEN and both gates high is refused with REJ; another is stored and waits for its instant, which
in OFF is now. The model's choices in it: the other fields of AUX_CTRL are written as they stand, and its W1S bits as
0 (log 5). (R262, R264, R266, R268, R276, R277, R278, R279) -/
def Obligations.AuxiliaryWritesAndForces : Prop :=
  ∀ (s : State) (n : Fin 4), s.serviceRuns = true →
    let c := s.core
    let fan (d : Core) : Core :=
      let d := d.setFld pgAUX AUX_CTRL_FANEN (c.fld pgAUX AUX_CTRL_FANEN)
      if c.flag pgAUX AUX_CTRL_FANEN then d else d.fanUnstall
    let on (m : Nat) : Bool := c.flag pgAUX (AUX_CTRL_EN m)
    exec (.auxEnable n) s = .next (s.wrote (fan
      ((List.range 4).foldl (fun (d : Core) m => d.xWriteEn m (m = n.val || on m)) c))) ∧
    exec (.auxDisable n) s = .next (s.wrote (fan
      ((List.range 4).foldl (fun (d : Core) m => d.xWriteEn m (!(m = n.val) && on m)) c))) ∧
    exec (.auxReload n) s = .next (s.wrote (fan
      ((List.range 4).foldl (fun (d : Core) m =>
        if m = n.val then (d.xWriteEn m (on m)).setFld pgAUX (AUX_CTRL_RLD m) 1 else d.xWriteEn m (on m)) c))) ∧
    (∀ d : Core,
      let was := d.flag pgAUX (AUX_CTRL_EN n)
      let e (en : Bool) := d.setFld pgAUX (AUX_CTRL_EN n) (b2n en)
      (was = false → (d.xch n).st = .off →
        d.xWriteEn n true = ((((e true).modXch n (fun x => { x with st := .start, ssceil := 0 })).xSync n).xOv n)) ∧
      (was = true → (d.xch n).runs = true → d.xWriteEn n false = (e false).modXch n (fun x => { x with offPend := true })) ∧
      (∀ en, en = was → d.xWriteEn n en = e en) ∧
      ((d.xch n).st ≠ .off → d.xWriteEn n true = e true) ∧
      ((d.xch n).runs = false → d.xWriteEn n false = e false)) ∧
    (∀ v : Word,
      (getBits v 0 3 = 7 → exec (.auxForce n v) s = .next (s.wrote (c.raise pgAUX 25))) ∧
      (getBits v 0 3 ≠ 7 →
        let d := (c.setReg pgAUX (0x38 + 32 * n) (BitVec.ofNat 32 (getBits v 0 3))).modXch n (fun x => { x with forcePend := true })
        ((d.xch n).st ≠ .off → exec (.auxForce n v) s = .next (s.wrote d)) ∧
        ((d.xch n).st = .off → exec (.auxForce n v) s = .next (s.wrote
          (let e := (d.xTakeForce n).xRow n
           if (e.xch n).forced then e.xForceGates n else e)))))

/-- Capture points, gate instants, auxiliary limits and the fan complete. While the core is out of reset a capture point
loads the written values unless a reload is awaited, shows the feedback code, moves the soft start and sets the next
duty from the host's duty or the compensator, and a duty that waited for a reload and missed its first capture sets
LATE and DLATE. At a boundary the next duty becomes the duty and the copies of the period and the dead times serve,
PCNT counts and the schedule of the new period starts. At the duty instant a force that waits is taken and sets the
gates; otherwise XHGn falls and the dead time before XLGn begins when a low pulse is due, and a released force hands
XHGn back to the schedule when none is; at the end of a dead time the gate it held rises, or the period is limited
while the current limit is asserted. 16 us in RUN within both sides sets GOOD, UVDLY under the low side sets XUV, and
XOCN limited periods end the channel with XOC. The fan takes the captured FDUTY, or FSAFE in a safe state, at each of
its periods; an edge ends a stall and, a revolution of at least 1 us after another, shows PERIOD and RPM, and STALLT
without one sets FANSTALL. The model's choices in it: PCNT counts at every boundary, and DLATE is raised with RLDMODE
1 as well (log 30). (R259, R260, R261, R263, R264, R265, R267, R270, R271, R276, R277, R278) -/
def Obligations.AuxiliaryPeriodsAndFan : Prop :=
  ∀ (s : State), s.alive = true →
    let c := s.core
    (∀ (n : Fin 4) (vfb ns : Nat),
      let show_ (d : Core) : Core := (d.setFld pgAUX (AUX_XMON_VFB n) (min 4095 vfb)).modXch n (fun x => { x with
        vfb := min 4095 vfb
        ssceil := match x.st with | .start => d.xSoft n ns | .run => 4096 | _ => 0
        st := if x.st = .start && d.xSoft n ns = 4096 then .run else x.st })
      let next_ (d : Core) : Core :=
        if d.flag pgAUX (AUX_XCFG_MODE n) then d.xCompensate n else d.modXch n (fun x => { x with dnext := min x.duty x.ssceil })
      let rld := c.flag pgAUX (AUX_CTRL_RLD n)
      let mode := c.flag pgAUX (AUX_XCFG_RLDMODE n)
      (rld = true → exec (.auxCapture n vfb ns) s = .next (s.after (next_ (show_ ((c.xLoad n).setFld pgAUX (AUX_CTRL_RLD n) 0))))) ∧
      (rld = false → mode = false → exec (.auxCapture n vfb ns) s = .next (s.after (next_ (show_ (c.xLoad n))))) ∧
      (rld = false → mode = true →
        ((c.xch n).dutyNew = true → (c.xch n).dutyMiss = false → exec (.auxCapture n vfb ns) s = .next (s.after (next_ (show_
          (((c.modXch n (fun x => { x with dutyMiss := true })).setFld pgAUX (AUX_XMON_LATE n) 1).raise pgAUX 26))))) ∧
        ((c.xch n).dutyNew = false ∨ (c.xch n).dutyMiss = true → exec (.auxCapture n vfb ns) s = .next (s.after (next_ (show_ c)))))) ∧
    (∀ n : Fin 4,
      let pcnt := wrapAdd 16 (c.fld pgAUX (AUX_XDAPP_PCNT n)) 1
      let d := c.setFld pgAUX (AUX_XDAPP_PCNT n) pcnt
      let x := d.xch n
      let d := if x.dutyTaken then d.setFld pgAUX (AUX_XDAPP_PSEQ n) pcnt else d
      let d := (d.setFld pgAUX (AUX_XMON_DAPL n) x.dnext).setFld pgAUX (AUX_XMON_ILIM n) (b2n x.limited)
      let d := d.modXch n (fun x => { x with
        dcur := x.dnext, per := x.perNext, dtlh := x.dtlhNext, dthl := x.dthlNext, xlAtB := x.xl, dutyTaken := false, revHold := false
        limited := false, limRow := if x.limited then x.limRow else 0
        ovHold := x.ovHold && d.cmpHi (42 + n), tripHold := x.tripHold && d.tripped (8 + n), frz := d.rpr.allMid })
      let d := if (d.xch n).offPend then d.xToOff n else d
      let d := if (d.xch n).st = .safe then d else d.xTakeForce n
      exec (.auxPeriodBoundary n) s = .next (s.after ((d.xStartGates n).xReverse n))) ∧
    (∀ n : Fin 4, (c.xch n).runs = true →
      let d := c.xTakeForce n
      let x := d.xch n
      exec (.auxDutyInstant n) s = .next (s.after
        (if x.isHeld || x.revHold then d
         else if x.forced then d.xForceGates n
         else if !x.lowDue then (if (c.xch n).forced && x.highDue then d.xHighOn n else d)
         else if x.xl || x.dead = 2 then d
         else d.modGate n (fun x => { x with xh := false, dead := 2 })))) ∧
    (∀ n : Fin 4,
      ((c.xch n).dead = 1 → c.xHiLim n = false → exec (.auxDeadtimeEnd n) s = .next (s.after (c.modXch n AuxCh.riseHigh))) ∧
      ((c.xch n).dead = 1 → c.xHiLim n = true →
        exec (.auxDeadtimeEnd n) s = .next (s.after (c.modXch n (fun x => { x with dead := 0 }.limit)))) ∧
      ((c.xch n).dead = 2 → exec (.auxDeadtimeEnd n) s = .next (s.after ((c.modXch n (fun x => { x with xl := true, dead := 0 })).xReverse n)))) ∧
    (∀ (n : Fin 4) (us : Nat), (c.xch n).st = .run →
      (16 ≤ us → c.cmpHi (42 + n) = false → c.cmpLo (42 + n) = false → exec (.auxGoodRise n us) s = .next (s.after (c.setLevel pgAUX n true))) ∧
      (c.cmpLo (42 + n) = true → c.fld pgAUX (AUX_XCFG_UVDLY n) ≤ us → c.stat pgAUX (8 + n) = false →
        exec (.xuv n us) s = .next (s.after
          ((((c.setStat pgAUX (8 + n) true).raise pgAUX (8 + n)).setLive 0x1A (mkAddr 7 n) true).send 0x1A 0 (mkAddr 7 n))))) ∧
    (∀ n : Fin 4, (c.xch n).runs = true → c.fld pgAUX (AUX_XCFG_XOCN n) ≠ 0 → c.fld pgAUX (AUX_XCFG_XOCN n) ≤ (c.xch n).limRow →
      let d := c.setFld pgAUX (AUX_CTRL_EN n) 0
      (d.xch n).runs = true →
      exec (.xoc n) s = .next (s.after
        (let d := (d.modGate n (fun x => ({ x with tripHold := x.tripHold && d.tripped (8 + n) } : AuxCh).gatesEnd)).xToOff n
         (d.raise pgAUX (12 + n)).send 0x1B 0 (mkAddr 7 n)))) ∧
    (let d := if s.fanSafe then c.fld pgAUX AUX_FANCFG_FSAFE else c.fanCaptured
     let e : Core := { c with aux := { c.aux with fanCur := d, fanStart := c.time.toNat } }
     exec .fanPeriod s = .next (s.after (if d = 0 then e.fanUnstall else e))) ∧
    (let e := ({ c with aux := { c.aux with tach := (c.time.toNat :: c.aux.tach).take 16 } } : Core).fanUnstall
     (e.aux.tach[zeroAsOne (e.fld pgAUX AUX_FANCFG_PPR)]? = none → exec .fanTachEdge s = .next (s.after e)) ∧
     (∀ t, e.aux.tach[zeroAsOne (e.fld pgAUX AUX_FANCFG_PPR)]? = some t → 400 ≤ e.time.toNat - t →
       let p := min 0xFFFF ((e.time.toNat - t) / 400)
       exec .fanTachEdge s = .next (s.after ((e.setFld pgAUX AUX_FANTACH_PERIOD p).setFld pgAUX AUX_FANTACH_RPM (60000000 / p))))) ∧
    (∀ ms : Nat, c.flag pgAUX AUX_CTRL_FANEN = true → 0 < c.aux.fanCur → c.fld pgAUX AUX_FANSTALL_STALLT ≠ 0 →
      c.fld pgAUX AUX_FANSTALL_STALLT ≤ ms → c.stat pgAUX 24 = false →
      exec (.fanstall ms) s = .next (s.after
        (((({ c with aux := { c.aux with rpm := c.fld pgAUX AUX_FANTACH_RPM } } : Core).setLevel pgAUX 24 true).setLive 0x1C 0 true).setFld
          pgAUX AUX_FANTACH_RPM 0 |>.send 0x1C 0 0)))

/-- Base samples, peaks, the merge stage, the packer and the flush complete. While a control path runs a base interval
ends with the sums of its buses, where their converters run, rails and ports, each saturated to its field with SAT
(R281). With the paths of service open a swap is asked for, the peaks of every channel or of the selected one are
cleared, a crumb waiting with no others before it enters the packer with a LOST and a TIME crumb where it needs them,
an open word is closed after PACKT, LVLUP is judged on what has become of the fill, a flush with no crumb in the merge
stage drops the words of the FIFO, counts them and leaves a FLUSH crumb, behind which a word that is pushed at its
instant stays, and a write of CRB_RSEL empties the receive buffer and sends a SYNC where this device drains another.
(R281, R282, R286, R289, R290, R292, R294, R297, R298, R299, R305) -/
def Obligations.TelemetryAndTheCrumbStream : Prop :=
  ∀ (s : State),
    (s.controlRuns = true → ∀ vin0 : Option (Vector Nat 2), let c := s.core
      let vin := if s.thmRuns then vin0 else none
      let d := match vin with | some v => c.busVolts v | none => c
      let d := (List.range 8).foldl (fun (c : Core) n => (c.railBase n).steerRail n) d
      let d := (List.range 24).foldl (fun (c : Core) k => c.portBase k) d
      let d := match vin with
        | some v => [0, 1].foldl (fun (c : Core) b => c.putBase (0x50 + b) ((roundDiv (min 16380 (vget v b 0) * c.vinDiv b) 64).toNat : Nat)) d
        | none => d
      let d := [0, 1].foldl (fun (c : Core) b => c.busCurrent b) d
      exec (.tlmBaseSample vin0) s = .next (s.after
        (({ d with tlm := { d.tlm with acc := Vector.replicate 8 {}, pacc := Vector.replicate 24 (0, 0) } } : Core).endInterval s.booted))) ∧
    (s.serviceRuns = true → let c := s.core
      exec .tlmSwap s = .next (s.wrote (({ c with tlm := { c.tlm with swapReq := true } } : Core).setFld pgTLM TLM_CTRL_SWAP 1)) ∧
      exec .pkcall s = .next (s.wrote { c with tlm := { c.tlm with pkc := Vector.replicate 84 none } }) ∧
      exec .tlmPeakClear s = .next (s.wrote
        { c with tlm := { c.tlm with pkc := vmod c.tlm.pkc (c.fld pgTLM TLM_SEL_CH) (fun _ => none) } }) ∧
      (∀ (x : Crumb) (t : List Crumb) (p : Fin 5), c.crb.merge = [] → c.crb.closing = false → c.nextProducer = some (p.val, x, t) →
        let d : Core := ({ c with crb := { c.crb with queues := vmod c.crb.queues p (fun _ => t) } } : Core).incSat pgCRB CRB_LOST_COUNT x.lost
        let lost := if x.lost = 0 then [] else crumbBytes 7 0xFF (BitVec.ofNat 8 p :: toLeBytes 2 (min 0xFFFF x.lost))
        (x.at_ = none → exec .crumbMerge s = .next (s.after
          ((d.packBytes (lost ++ crumbBytes x.ty p x.payload)).judgeLevel d.crb.fifo.length))) ∧
        (∀ tm, x.at_ = some tm →
          let base := if d.needsTime tm then tm / 64 else d.crb.base.getD 0
          let e : Core := { d with crb := { d.crb with base := some base } }
          exec .crumbMerge s = .next (s.after ((e.packBytes (lost ++ (if d.needsTime tm then timeBytes base else []) ++
            crumbBytes x.ty p (x.payload ++ toLeBytes 2 (tm / 64 - base)))).judgeLevel e.crb.fifo.length)))) ∧
      (∀ us : Nat, c.fld pgCRB CRB_CFG_PACKT ≠ 0 → c.fld pgCRB CRB_CFG_PACKT ≤ us → c.crb.openw ≠ [] → c.crb.closing = false →
        exec (.packTimeout us) s = .next (s.after (c.closeWord.judgeLevel c.crb.fifo.length)) ∧
        (c.crb.fifo.length < 1024 → c.closeWord =
          ({ c with crb := { c.crb with openw := [], closing := false } } : Core).pushWord (packWord c.crb.openw))) ∧
      (c.crb.merge = [] →
        let words := c.crb.fifo.length + b2n c.crb.closing
        let d : Core := { c with crb := { c.crb with
          fifo := [], rp := c.crb.wp, openw := [], closing := false, base := none
          merge := crumbBytes 8 0xFF [0#8, 0xFF#8, BitVec.ofNat 8 words, BitVec.ofNat 8 (words / 256)] } }
        let d := ((d.setFld pgCRB CRB_LASTFL_PART 0xFF).setFld pgCRB CRB_LASTFL_WORDS words).incSat pgCRB CRB_LOST_FLWORDS words
        exec (.crbFlush false false) s = .next (s.wrote (d.syncFull.raise pgCRB 3)) ∧
        (c.crb.openw ≠ [] → c.crb.closing = false → exec (.crbFlush true false) s = .next
          (((s.wrote (d.syncFull.raise pgCRB 3)).onCore (fun e => (e.pushWord (packWord c.crb.openw)).judgeLevel 0)).rest))) ∧
      (∀ v : Word, let id := getBits v 0 8
        let d := ({ c with crb := { c.crb with rbuf := [], syncWait := false, reqWait := false } } : Core).setFld pgCRB CRB_RSEL_ID id
        exec (.crbRselWrite v) s = .next (s.wrote (if d.drains && id % 256 ≠ 0 then d.sendSync else d))))

/-- Remote drain requests, answers and their waits complete. With the paths of service open and on a frame that the device
acts on: a drained device that a REQ reaches answers RESYNC to its sender where the pointers do not fit its FIFO, and
otherwise gives up the words below RP, lets waiting bytes move on and answers with at most NMAX and 14 words from FP;
a SYNC answers RESYNC. A device that drains, the master or its deputy, appends the words of a DATA frame that fits,
counts one that does not in DUPS, and starts again at the pointers of a RESYNC of the selected device; a request
leaves when it is due, and after RTMO without an answer it is counted, RTMO is set and it is sent again. The model's
choice in it: a request offers the free room, at most 14 words (log 39). (R215, R302, R303, R304, R305, R306) -/
def Obligations.RemoteDrainFrames : Prop :=
  ∀ (s : State), s.serviceRuns = true →
    let c := s.core
    (∀ h : FrameHead, c.listens h = true → c.heeds h = true →
      (∀ nmax : Nat,
        let m : RingMsg := .crbSync nmax
        let d := c.taken h m
        d.drained = true → exec (.sync h nmax) s = .next (s.after (c.passes h m (d.sendMsg h.src (.crbResync d.crb.wp d.crb.rp))))) ∧
      (∀ rp fp nmax : Nat,
        let m : RingMsg := .crbReq (ofGray rp) (ofGray fp) nmax
        let d := c.taken h m
        let occ := d.crb.fifo.length
        let free := ptrDist d.crb.rp (ofGray rp)
        let skip := ptrDist (ofGray rp) (ofGray fp)
        d.drained = true →
        (occ < free ∨ occ < ptrDist d.crb.rp (ofGray fp) ∨ occ - free < skip → exec (.req h rp fp nmax) s = .next (s.after
          (c.passes h m (d.sendMsg h.src (.crbResync d.crb.wp d.crb.rp))))) ∧
        (free ≤ occ → ptrDist d.crb.rp (ofGray fp) ≤ occ → skip ≤ occ - free →
          let e := ((({ d with crb := { d.crb with fifo := d.crb.fifo.drop free, rp := ofGray rp } } : Core).syncFull).moveOn).judgeLevel occ
          let l := (e.crb.fifo.drop skip).take (min 14 nmax)
          exec (.req h rp fp nmax) s = .next (s.after (c.passes h m (e.sendMsg h.src (.crbData e.crb.wp (ofGray fp) l)))))) ∧
      (∀ (wp fp : Nat) (words : List Word),
        let m : RingMsg := .crbData (ofGray wp) (ofGray fp) words
        let d := c.taken h m
        let fits := h.src = d.fld pgCRB CRB_RSEL_ID ∧ d.crb.syncWait = false ∧ ofGray fp = d.crb.rfp ∧ words.length + d.crb.rbuf.length ≤ 64
        d.drains = true →
        (fits → exec (.data h wp fp words) s = .next (s.after (c.passes h m
          (({ d with crb := { d.crb with rbuf := d.crb.rbuf ++ words, rfp := (d.crb.rfp + words.length) % 2048, reqWait := false } } : Core).setFld
            pgCRB CRB_RPTR_WPLAST (ofGray wp))))) ∧
        (¬ fits → exec (.data h wp fp words) s = .next (s.after (c.passes h m (d.incSat pgCRB CRB_RSTAT_DUPS 1))))) ∧
      (∀ wp rp : Nat,
        let m : RingMsg := .crbResync (ofGray wp) (ofGray rp)
        let d := c.taken h m
        d.drains = true → h.src = d.fld pgCRB CRB_RSEL_ID → exec (.resync h wp rp) s = .next (s.after (c.passes h m
          (({ d with crb := { d.crb with rbuf := [], rrp := ofGray rp, rfp := ofGray rp, syncWait := false, reqWait := false } } : Core).setFld
            pgCRB CRB_RPTR_WPLAST (ofGray wp)))))) ∧
    (c.drains = true →
      (∀ us : Nat, c.rstate = 4 → c.fld pgCRB CRB_RSEL_ID ≠ 0 → c.crb.reqWait = false → c.crb.syncWait = false → c.crb.rbuf.length < 64 →
        (c.crb.rbuf.length ≤ 50 ∧ c.fld pgCRB CRB_RPTR_WPLAST ≠ c.crb.rfp) ∨ zeroAsOne (c.fld pgCRB CRB_RCFG_RPOLL) ≤ us →
        let d : Core := { c with crb := { c.crb with reqWait := true } }
        exec (.crbRequest us) s = .next (s.after (d.sendMsg (d.fld pgCRB CRB_RSEL_ID)
          (.crbReq d.crb.rrp d.crb.rfp (min 14 (64 - d.crb.rbuf.length)))))) ∧
      (∀ us : Nat, zeroAsOne (c.fld pgCRB CRB_RCFG_RTMO) ≤ us →
        let d := (c.incSat pgCRB CRB_RSTAT_RETRY 1).raise pgCRB 5
        (c.crb.syncWait = true → exec (.crbReqTimeout us) s = .next (s.after d.sendSync)) ∧
        (c.crb.reqWait = true → c.crb.syncWait = false → exec (.crbReqTimeout us) s = .next (s.after d.sendReq))))

/-- A housekeeping round starts, is evaluated in its order, or is abandoned. From the end of phase A on a round starts
with the present period, whose change drops the history; its end writes the readings and TJ, judges the die, the
supplies, the references, the buses, the rates and the stages, cross-checks the sensors, counts the round with RND and
its time, gives the compensation words outside full freeze and CHOLD, and gives the temperature channels their
samples; a round that is abandoned sets RNDMISS, and the fourth in a row HKLOST. (R281, R311, R312, R313, R317, R320,
R322, R325) -/
def Obligations.HousekeepingRounds : Prop :=
  ∀ (s : State), s.thmRuns = true →
    let c := s.core
    (c.thm.active = false →
      (c.thm.per = c.thmPer → exec .hkRoundStart s = .next (s.after { c with thm := { c.thm with active := true } })) ∧
      (c.thm.per ≠ c.thmPer →
        exec .hkRoundStart s = .next (s.after { c with thm := { c.thm with active := true, per := c.thmPer, hist := [] } }))) ∧
    (c.thm.active = true →
      (let n := c.thm.missed + 1
       let d := (c.raise pgTHM 1).send 0x2C 0 0
       let d := if n = 4 then (d.raise pgTHM 10).send 0x2D 0 0 else d
       exec .hkRoundAbandon s = .next (s.after { d with thm := { d.thm with active := false, missed := n } })) ∧
      (∀ (temps : Vector Int 6) (tmon : Vector Nat 3) (sup : Vector Nat 5) (refs : Vector Int 4),
        let t (i : Nat) := vget temps i 0
        let win (i : Nat) : Bool :=
          (supplyWindow (c.flag pgTHM THM_CFG_VIO33) i).1 ≤ vget sup i 0 && vget sup i 0 ≤ (supplyWindow (c.flag pgTHM THM_CFG_VIO33) i).2
        let d := (c.thmReadings t (fun i => vget tmon i 0) (fun i => vget sup i 0) win).findTj t
        let row : ThmRow := ⟨Vector.ofFn (fun i => if c.dieValid i then some (t i) else none),
          Vector.ofFn (fun g => if d.flag pgTHM (THM_TMON_VALID g) then some (d.sfld pgTHM (THM_TMON_TEMP g)) else none)⟩
        let d := d.judgeTj (d.sfld pgTHM THM_TJ_TJ) (d.fld pgTHM THM_TJ_SRC)
        let d := (((((d.judgeSupplies (fun i => vget sup i 0) win).judgeRefs (fun i => vget refs i 0)).judgeVin).judgeRates row).judgeStages).crossCheck t
        let d := ((d.raise pgTHM 0).incWrap pgTHM THM_RNDCNT_COUNT 1).setFld pgTHM THM_LASTRND_TIME d.time32
        let d := if decide (c.rpr.depth ≠ 2) && !d.flag pgTHM THM_CFG_CHOLD then d.compWords else d
        exec (.hkRoundEnd temps tmon sup refs) s = .next (s.after
          (({ d with thm := { d.thm with active := false, missed := 0 } } : Core).tempChannels s.booted))))

/-- Fault messages act by class, and classes are written and sources forced. While the core is out of reset the collector
takes the oldest message of its latch: a wrong one counts in MSGERR and stands for source 0x5E; a note or a warning is
reported; the RAIL class takes every target of its scope to SAFE; the DEVICE class takes the device action; the GRAVE
class sets the latch as well; and every message is reported with its sticky bit, its registers, its crumb and its
record. FLTREG acts by the same path. With the paths of service open and its lock open a class field takes a value
below 5, where 2 needs a scope that a RAIL action can reach, and CLSREJ refuses others; a force sends a message of
each listed source. (R328, R330, R331, R332, R334, R335, R337, R338, R339, R341) -/
def Obligations.FaultMessagesAct : Prop :=
  ∀ (s : State),
    (∀ (s1 : State) (w : Word),
      let src := msgSrc w
      (s1.core.classOf src < 2 → s1.classify w = (s1.reportMsg w (s1.core.classOf src)).syncFlt) ∧
      (s1.core.classOf src = 2 → s1.core.scope (msgAddr w) true ≠ [] → s1.classify w =
        ((s1.onCore (fun c => ((s1.core.scope (msgAddr w) true).foldl (fun (c : Core) t => c.reach t src false) c).raise pgFLT 2)).reportMsg w 2).syncFlt) ∧
      (s1.core.classOf src = 3 → s1.classify w = (((s1.deviceAction src).onCore (fun c => c.raise pgFLT 2)).reportMsg w 3).syncFlt) ∧
      (s1.core.classOf src = 4 → s1.classify w =
        ((((s1.deviceAction src).onCore (fun c => c.raise pgFLT 2)).setGrave w).reportMsg w 4).syncFlt)) ∧
    (s.alive = true →
      exec .fltreg s = .next ((s.classify (mkMsg 0x5F 0 0)).rest) ∧
      (∀ w t, s.core.flt.latch = w :: t →
        let s1 := s.onCore (fun c => ({ c with flt := { c.flt with latch := t } } : Core).fillLatch [])
        (msgOk w = true → msgSrc w ≤ 0x5F → exec .faultMessage s = .next ((s1.classify w).rest)) ∧
        (msgOk w = false → exec .faultMessage s = .next
          (((s1.onCore (fun c => (c.incSat pgFLT FLT_CNT_MSGERR 1).raise pgFLT 6)).classify (mkMsg 0x5E 0 0)).rest)))) ∧
    (s.serviceRuns = true →
      (∀ (i : Fin 12) (v : Word), s.core.locked pgFSV (FSV_CLS_CLASS (8 * i)) = false → exec (.classWrite i v) s = .next
        (((s.onCore (fun c => (List.range 8).foldl (fun (c : Core) j => c.writeClass (8 * i + j) (getBits v (4 * j) 3)) c)).syncFlt).rest.frameEnd)) ∧
      (∀ (i : Fin 12) (v : Word), s.core.locked pgFSV (FSV_CLS_CLASS (8 * i)) = true → exec (.classWrite i v) s = .next (s.wrote s.core)) ∧
      (∀ (c : Core) (src k : Nat), srcListed src = true →
        (src ≠ 0x5F → k < 5 → k ≠ 2 ∨ atypeReaches (srcAtype src) = true → c.writeClass src k = c.setFld pgFSV (FSV_CLS_CLASS src) k) ∧
        (src = 0x5F ∨ 5 ≤ k ∨ (k = 2 ∧ atypeReaches (srcAtype src) = false) → c.writeClass src k = c.raise pgFSV 0)) ∧
      (∀ (i : Fin 3) (v : Word),
        (bitOf (s.core.reg pgFSV 0x18) 4 = true → exec (.faultForce i v) s = .next (s.wrote s.core)) ∧
        (bitOf (s.core.reg pgFSV 0x18) 4 = false → exec (.faultForce i v) s = .next (s.wrote ((bitsOf v).foldl (fun (c : Core) b =>
          if srcListed (32 * i + b) then c.send (32 * i + b) 0x3F (c.fld pgFSV FSV_FRCADDR_ADDR) else c) s.core)))))

/-- A release is refused, frees one target, or ends DEVSAFE. With the paths of service open a write of FLT_REL keeps TGT
and COUNT, and with GO it is refused with RELREJ in GRAVE, for a target that does not exist, while a source of the
target is live, where COUNT is not the hold's count, or for a rail or a channel in the DEVICE safe state. Otherwise it
frees the rail or the channel, or ends DEVSAFE with every target that only DEVICE actions hold and returns the SAFE
state to RUN. (R335, R340, R345) -/
def Obligations.ReleasesOfHolds : Prop :=
  ∀ (s : State) (v : Word), s.serviceRuns = true →
    let tgt := getBits v 0 4
    let count := getBits v 8 8
    let c := (s.core.setFld pgFLT FLT_REL_TGT tgt).setFld pgFLT FLT_REL_COUNT count
    let s1 : State := { s with core := c }
    let refused := s.pw.grave = true ∨ (12 ≤ tgt ∧ tgt ≠ 15) ∨ c.holdBusy tgt = true ∨ count ≠ (c.holdSet tgt).count ∨ (tgt ≠ 15 ∧ c.stat pgFLT 3 = true)
    (bitOf v 16 = false → exec (.faultRelease v) s = .next (s.wrote c)) ∧
    (bitOf v 16 = true → refused → exec (.faultRelease v) s = .next (s.wrote (c.raise pgFLT 7))) ∧
    (bitOf v 16 = true → ¬ refused → tgt ≠ 15 →
      exec (.faultRelease v) s = .next ((s1.onCore (fun c => c.freeTarget tgt)).syncFlt.rest.frameEnd)) ∧
    (bitOf v 16 = true → ¬ refused → tgt = 15 →
      let s2 := s1.onCore (fun c =>
        (List.range 12).foldl (fun (c : Core) t =>
          if !c.holdBusy t && (c.holdSet t).held && (c.holdSet t).srcs.all (fun x => !x.rail) then c.freeTarget t else c)
          ({ c with flt := { c.flt with dev := {} } } : Core))
      let s3 : State := if s2.pw.pstate = .safe then { s2 with pw := { s2.pw with pstate := .run } } else s2
      exec (.faultRelease v) s = .next (s3.syncFlt.rest.frameEnd))

/-- Each step of a Bakehouse program has its effect when the step pointer is at it. At END the program stores its code and
FAIL and ends, with a record and BKHFAIL where it fails. ENABLE turns a rail or a channel on or off, drives or
releases an OUT pin, or asks for a release with the hold's own count, and one that is held or of another role sets FF
and sends BKHFAIL. WAITGOOD waits, or goes on at once with FF for a held target or a pin of another role. DELAY waits,
CHECK compares half a register under its mask and sets CF, BRFAULT moves to its step where its condition holds, and
REPORT leaves a crumb and, with BB, a record. The model's choices in it: the payload of the REPORT crumb (log 36), and
that an ENABLE step counts as a host write (log 50). (R350, R351, R352, R353, R354, R363, R369) -/
def Obligations.ProgramStepsRun : Prop :=
  ∀ (s : State) (w : BitVec 64),
    let i := s.core.bkh.step
    let p := s.core.bkh.prog
    (s.atStep 0 = some w →
      let s1 := s.onCore (fun c => (c.setFld pgBKH BKH_PROG_RESULT (stDat w)).setFld pgBKH BKH_PROG_LASTFAIL (stFlg w % 2))
      (stFlg w % 2 = 0 → exec .endStep s = .next (((s1.onCore (fun c => (c.raise pgBKH 1).stopProg)).afterProg p false).rest)) ∧
      (stFlg w % 2 = 1 → exec .endStep s = .next
        ((((s1.queueRecord 5 (stDat w % 256) 0).onCore (fun c => (c.bakeFail 0 0 i).stopProg)).afterProg p false).rest))) ∧
    (s.atStep 1 = some w →
      let t := stTgt w
      let on := decide (stFlg w % 2 = 1)
      (t < 12 →
        let c := if t < 8 then s.core.writeEn t on (2 ≤ stFlg w) true else s.core.xWriteEn (t - 8) on
        exec .enable s = .next (s.after (if on && (c.holdSet t).held then c.setFF.bakeFail 1 1 c.bkh.step else c).nextStep)) ∧
      (0x10 ≤ t → t < 0x20 → let k := t - 0x10
        (s.core.seqRole k = 1 → exec .enable s = .next (s.after
          (if on then s.core.seqDrive k true else (s.core.seqDrive k false).unwatchPaired k).nextStep)) ∧
        (s.core.seqRole k ≠ 1 → exec .enable s = .next (s.after (s.core.setFF.bakeFail 1 1 i).nextStep))) ∧
      (0x20 ≤ t → let tgt := if t = 0x4F then 15 else t - 0x40
        let cnt := (s.core.holdSet tgt).count
        let s1 := s.writeRel (BitVec.ofNat 32 (tgt + 256 * cnt + 65536))
        (s.relRefused tgt cnt = false → exec .enable s = .next ((s1.onCore Core.nextStep).rest)) ∧
        (s.relRefused tgt cnt = true → exec .enable s = .next
          ((s1.onCore (fun c => (c.setFF.bakeFail 1 1 c.bkh.step).nextStep)).rest)))) ∧
    (s.atStep 3 = some w →
      let t := stTgt w
      let past := (t < 12 ∧ (s.core.holdSet t).held = true) ∨ (0x10 ≤ t ∧ t < 0x20 ∧ s.core.seqRole (t - 0x10) ≠ 2)
      (past → exec .waitgood s = .next (s.after s.core.setFF.nextStep)) ∧
      (¬ past → exec .waitgood s = .next (s.after { s.core with bkh := { s.core.bkh with wait := .good t (stFlg w % 2 = 1) } }))) ∧
    (s.atStep 4 = some w → exec .delay s = .next (s.after { s.core with bkh := { s.core.bkh with wait := .delay } })) ∧
    (s.atStep 5 = some w →
      let half := getBits (s.peek (stArg w / 256) (stArg w % 256)) (if stFlg w % 2 = 1 then 16 else 0) 16
      let eq := decide ((half &&& (stDat w / 65536)) = stDat w % 65536)
      exec .check s = .next (s.after (s.core.setFld pgBKH BKH_PROG_CF (b2n (xor eq (2 ≤ stFlg w)))).nextStep)) ∧
    (s.atStep 6 = some w →
      (s.core.branchCond (stFlg w) = true → exec .brfault s = .next (s.after (s.core.goStep (stArg w % 64)))) ∧
      (s.core.branchCond (stFlg w) = false → exec .brfault s = .next (s.after (s.core.goStep (i + 1))))) ∧
    (s.atStep 7 = some w →
      let v := if 2 ≤ stFlg w then s.peek (stDat w / 256 % 256) (stDat w % 256) else 0
      let c := s.core.crumb 3 6 ([BitVec.ofNat 8 (stArg w % 256)] ++ (if 2 ≤ stFlg w then wordBytes v else [])) (some s.core.time.toNat)
      (stFlg w % 2 = 0 → exec .report s = .next (s.after c.nextStep)) ∧
      (stFlg w % 2 = 1 → exec .report s = .next
        ((((s.onCore (fun _ => c)).queueRecord 4 (stArg w % 256) v).onCore Core.nextStep).rest)))

/-- Requests, waits and parking of the Bakehouse, its pins and its fleet report complete. With the paths of service open
RUNSVC starts a present SVC, or is refused with REJ while a program runs; PARK keeps the request, and DOWN starts when
none runs; ABORT stops the program where it is. A WAITGOOD ends when the bit is what it wants, and its pin becomes
watched; BKHTMO sets FF and TMO with its message; a DELAY ends at the next step; a wait of the default DOWN ends with
the channels off or the next pin released. WAKE low for SLEEPDLY asks to park, a device whose records are committed
parks, and a report that is due is formed. A SEQ pin's level changes, and the watches follow, while the core is out of
reset. (R353, R354, R355, R356, R357, R359, R361, R366, R367, R368) -/
def Obligations.ProgramsStartWaitAndPark : Prop :=
  ∀ (s : State),
    (s.alive = true → ∀ (i : Fin 16) (b : Bool), let c := s.core
      exec (.seqInputChange i b) s = .next (s.after
        ({ c with bkh := { c.bkh with seqIn := if b then c.bkh.seqIn ||| 1#16 <<< i.val else c.bkh.seqIn &&& ~~~(1#16 <<< i.val) } } : Core).syncWatch)) ∧
    (s.serviceRuns = true → let c := s.core
      (c.bkh.running = true → exec .runsvc s = .next (s.wrote (c.raise pgBKH 5))) ∧
      (c.bkh.running = false → c.progPresent 3 = true → exec .runsvc s = .next (s.wrote (c.startProg 3 false))) ∧
      (c.bkh.park = false → c.bkh.parking = false →
        let d : Core := { c with bkh := { c.bkh with park := true } }
        exec .park s = .next (s.wrote (if c.bkh.running then d else d.startProg 1 (!d.progPresent 1))) ∧
        (c.flag pgBKH BKH_WAKE_WAKEEN = true → c.cmpLo 51 = true → s.pw.pstate = .run ∨ s.pw.pstate = .safe ∨ s.pw.pstate = .grave →
          exec .sleepTimeout s = .next (s.after (if c.bkh.running then d else d.startProg 1 (!d.progPresent 1))))) ∧
      (c.bkh.running = true → exec .abort s = .next (((s.onCore Core.stopProg).afterProg c.bkh.prog true).rest.frameEnd)) ∧
      (∀ t want, c.bkh.wait = .good t want → c.bkh.running = true →
        (c.goodBit t = want →
          (tgtSeq t = true → want = true → exec .waitgoodSatisfied s = .next (s.after
            (let d := c.nextStep; ({ d with bkh := { d.bkh with watch := d.bkh.watch ||| 1#16 <<< (t - 0x10) } } : Core).syncWatch))) ∧
          (tgtSeq t = false ∨ want = false → exec .waitgoodSatisfied s = .next (s.after c.nextStep))) ∧
        (c.goodBit t ≠ want → exec .bkhtmo s = .next (s.after
          (((c.setFF.raise pgBKH 3).send 0x49 0 (mkAddr 0xE c.bkh.step)).nextStep)))) ∧
      (c.bkh.running = true → c.bkh.wait = .delay → exec .delayEnd s = .next (s.after c.nextStep)) ∧
      (c.bkh.running = true → c.bkh.wait = .railsOff → exec .defaultDownWaitEnd s = .next
        (((s.onCore (fun c => (List.range 4).foldl (fun (c : Core) n => c.xWriteEn n false) c)).releaseNext).rest)) ∧
      (c.bkh.running = true → c.bkh.wait = .outPin → ∀ i, c.lastDriven = some i →
        let d := c.seqDrive i false
        (d.lastDriven.isSome = true → exec .defaultDownWaitEnd s = .next (s.after { d with bkh := { d.bkh with wait := .outPin } })) ∧
        (d.lastDriven.isSome = false → exec .defaultDownWaitEnd s = .next ((s.onCore (fun _ => d)).programEnds.rest))) ∧
      (c.bkh.parking = true →
        let quiet := c.bkh.queue = [] ∧ c.nvm.write.any (fun w => w.kind = .log) = false
        (quiet → exec (.mainenRelease false) s = .next s.toParked) ∧ exec (.mainenRelease true) s = .next s.toParked) ∧
      (c.bkh.reportDue = true → exec .fleetReportForm s = .next s.formReport.rest))

/-- Record writes, their steps, erases, the log scan, scrubs and the end of a hold complete. A record of the queue for
which the arbiter runs BBWRITE, a control record or a map begins to be written while the flash is free, no hold stands
and the sector it goes to is erased, a map in its first copy, or in its second where the first is written and the
second still waits; each page program that ends writes its run and begins the next, and the third commits the record,
or begins the second copy of a map. An erase that ends leaves the queue: verified, the sector reads erased, a log
sector's held records leave the count and its erase is counted, and the last sector of a log erase ends that erase; a
sector whose erase failed or that is to be retired takes the lowest spare with a new map, or with none left stays, and
a log sector that failed is then skipped: the sector after it is erased in its place, and a head that stands in it
moves on. The log scan reports the words with two bit errors, voids torn and wrong slots and ends with SCANDONE and a
report due. A scrub run is asked of the arbiter, and while it runs granted it ends with the corrected words counted
and reported, and with the words of two bit errors, which stay so for every later read. The end of a hold gives the
commit word to a record whose two steps have ended and writes another again in the next free slot; in full freeze it
does neither. The model's choices in it: a scrub's findings are operands and a word found with two bit errors stays in
the state (log 59), and an erase under way ends in a freeze while no other begins (log 63). (R371, R373, R378, R379,
R380, R381, R382, R384, R395, R426, R435, R440) -/
def Obligations.RecordsErasesAndScrubs : Prop :=
  ∀ (s : State), let c := s.core
    (s.serviceRuns = true → c.flashFree = true → c.held = false →
      (∀ r t, c.bkh.queue = r :: t → c.ctlWaits = false → c.headBusy = false → c.actRuns actBBWRITE 0 = true →
        let d : Core := { c with bkh := { c.bkh with queue := { r with begun := true } :: t } }
        let d : Core := { d with nvm := { d.nvm with write := some ⟨.log, logAddr c.nvm.head, slotBytes (recBody r c.nvm.recseq), 0, true⟩ } }
        exec .bbRecordWrite s = .next (s.after d.syncPend)) ∧
      (c.nvm.ctlWant = true → c.ctlBusy = false →
        let x : Ctl := { c.nvm.next with seq := (c.nvm.ctl.seq + 1) % 2 ^ 32 }
        exec .ctlRecordWrite s = .next (s.after { c with nvm := { c.nvm with
          ctlWant := false, write := some ⟨.ctl, ctlAddr c.nvm.ctlSlot, slotBytes (ctlBody x), 0, true⟩ } })) ∧
      (∀ m t, c.rpr.mapQ = m :: t →
        let k : RecKind := if c.rpr.mapHalf then .map2 else .map1
        let copy := b2n c.rpr.mapHalf
        (∀ i, s.freeMapSlot copy = some i → exec .repairMapWrite s = .next (s.after
          { c with nvm := { c.nvm with write := some ⟨k, mapAddr copy i, slotBytes (mapBody m), 0, true⟩ } })) ∧
        (s.freeMapSlot copy = none → exec .repairMapWrite s = .next (((s.flashErase (12 + copy)).onCore (fun c =>
          { c with nvm := { c.nvm with write := some ⟨k, mapAddr copy 0, slotBytes (mapBody m), 0, true⟩ } })).rest)))) ∧
    (s.alive = true → ∀ w : RecWrite, c.nvm.write = some w → w.going = true →
      let s1 := s.flashWrite (w.addr + (stepRun w.steps).1) ((w.bytes.drop (stepRun w.steps).1).take (stepRun w.steps).2)
      (w.steps < 2 → exec .flashProgramDone s = .next ((s1.onCore (fun c => { c with nvm := { c.nvm with
        write := some { w with steps := w.steps + 1, going := !s1.core.held && s1.core.rpr.depth ≠ 2 } } })).rest)) ∧
      (2 ≤ w.steps →
        let s2 := s1.onCore (fun c => { c with nvm := { c.nvm with write := none } })
        (w.kind = .log → exec .flashProgramDone s = .next ((s2.onCore (fun c => c.commitLog w.addr w.bytes)).rest)) ∧
        (w.kind = .ctl → exec .flashProgramDone s = .next ((s2.onCore (fun c => c.commitCtl (ctlParse w.bytes))).rest)) ∧
        (∀ m t, w.kind = .map1 → s2.core.rpr.mapQ = m :: t → s2.core.rpr.depth = 0 → s2.core.held = false →
          exec .flashProgramDone s = .next ((s2.beginMap .map2 m).rest)) ∧
        (w.kind = .map2 → exec .flashProgramDone s = .next ((s2.onCore (fun c => c.commitMap)).rest)))) ∧
    (s.booted = true → c.flashFree = true → c.held = false → c.nvm.eraseStop = false → ∀ (ok : Bool) (l : Nat) (why : EraseWhy) t,
      c.nvm.erases = (l, why) :: t → (why = .bb → c.nvm.ctlWant = false) →
      let inLog : Bool := 16 ≤ l && l ≤ 48
      let lost := if inLog then s.heldIn l else 0
      let s1 := if ok then s.flashErase (c.physSector l) else s
      let s2 := if !ok || s1.core.nvm.retire.contains l then s1.retireSector l (!ok) else s1
      let s3 := s2.onCore (fun c => { c with nvm := { c.nvm with erases := c.nvm.erases.drop 1, recs := c.nvm.recs - lost },
                                             bkh := { c.bkh with reportDue := c.bkh.reportDue || lost ≠ 0 } })
      let s4 := if inLog then s3.onCore (fun c =>
          let e := satAdd 24 c.nvm.next.logerase 1
          ((c.setFld pgNVM NVM_WEAR_LOGERASE e).wantCtl (fun x => { x with logerase := e })).showLog)
        else s3
      let s5 := if why = .bb && !t.any (fun e => e.2 = .bb) then s4.onCore (fun c => (c.setFld pgNVM NVM_BBERASE_GO 0).raise pgNVM 10) else s4
      exec (.flashEraseDone ok) s = .next ((s5.onCore (fun c => { c with nvm := { c.nvm with eraseStop := c.rpr.depth ≠ 0 } })).rest)) ∧
    (∀ (l : Nat) (failed : Bool),
      (∀ p, c.freeSpare = some p → s.retireSector l failed =
        (let t := (s.flashErase p).onCore (fun c =>
           let m := c.rpr.map
           let c : Core := { c with rpr := { c.rpr with map := { m with flash := m.flash ++ [(l, p)] } },
                                    nvm := { c.nvm with retire := c.nvm.retire.filter (· ≠ l) } }
           (c.queueMap.showMap).setFld pgNVM NVM_SPARE_LASTRET (s.core.physSector l))
         if t.core.freeSpare.isNone then t.onCore (fun c => (c.setLevel pgNVM 5 true).send 0x43 0 0) else t)) ∧
      (c.freeSpare = none → s.retireSector l failed =
        (let t := s.onCore (fun c => (c.setLevel pgNVM 5 true).send 0x43 0 0)
         if failed && 16 ≤ l && l ≤ 48 && !t.core.nvm.skipped.contains l then t.skipSector l else t)) ∧
      (let t := s.onCore (fun c => { c with nvm := { c.nvm with skipped := l :: c.nvm.skipped } })
       (16 + c.nvm.head / 32 ≠ l → s.skipSector l =
         if 16 + c.nextLog (c.nvm.head / 32) = l then t.onCore Core.eraseAhead else t) ∧
       (16 + c.nvm.head / 32 = l → s.skipSector l =
         (let n := t.core.nextLog (c.nvm.head / 32)
          let t := t.onCore (fun c => { c with nvm := { c.nvm with head := 32 * n } })
          (if t.flashBlank ((16 + n) * 2048) 2048 then t else t.onCore (fun c => c.wantErase (16 + n) .log)).onCore Core.eraseAhead)))) ∧
    (s.serviceRuns = true → c.bkh.scanned = false → c.held = false →
      let s1 := (List.range logSlots).foldl State.scanSlot
        ((List.range 33).foldl (fun (s : State) i => s.reportBad ((16 + i) * 2048) 2048) s)
      exec .logScanDone s = .next ((s1.onCore (fun c =>
        let d := ((c.raise pgNVM 9).setFld pgBKH BKH_SUMM_PART 0).setLevel pgBKH 9 false
        { d with bkh := { d.bkh with scanned := true, fresh := [], reportDue := true } })).rest)) ∧
    (s.booted = true → c.rpr.depth ≠ 2 → ∀ (p : Fin 64) (corr : Nat) (words : List Nat),
      (c.actRuns actSCRUB p = false → c.fld pgNVM NVM_CFG_SCRUBP ≠ 0 →
        exec (.scrub p corr words) s = .next (s.after (c.requestAct ⟨actSCRUB, p, 0⟩))) ∧
      (c.actRuns actSCRUB p = true → c.flashFree = true → c.ctlWaits = false →
        let found := (words.filter (fun w => w < 512)).map (fun w => 512 * p.val + w)
        let bad := s.st.bad ++ (found.filter (fun x => !s.st.bad.contains x)).eraseDups
        exec (.scrub p corr words) s = .next
          ((({ s with st := { s.st with bad := bad } } : State).onCore (fun c =>
            (c.scrub p corr (bad.filter (fun x => x / 512 = p.val)).length).endAct actSCRUB p)).rest)) ∧
      (0 < corr → p ≠ 63 → let d := ((c.incSat pgNVM NVM_ECC_CORR corr).raise pgNVM 3).send 0x41 0 (mkAddr 0xD p)
        corr < zeroAsOne (d.fld pgNVM NVM_CFG_RETN) →
        c.scrub p corr 0 = { d with nvm := { d.nvm with corrected := d.nvm.corrected ++ [(p.val, corr)] } })) ∧
    (s.alive = true → c.stat pgNVM 8 = true → c.holdCause = false →
      let d := c.setLevel pgNVM 8 false
      let ends (e : Core) : Prop := exec .nvmHoldEnd s = .next ((s.onCore (fun _ => e)).revokeNext.rest)
      (d.nvm.write = none → ends d) ∧
      (∀ w, d.nvm.write = some w → d.rpr.depth = 2 → ends d) ∧
      (∀ w, d.nvm.write = some w → d.rpr.depth ≠ 2 → w.going = false →
        (w.steps = 2 → ends { d with nvm := { d.nvm with write := some { w with going := true } } }) ∧
        (w.steps ≠ 2 → w.kind = .log →
          let e := if w.addr = logAddr d.nvm.head then d.advanceHead else d
          ends { e with nvm := { e.nvm with write := some ⟨.log, logAddr e.nvm.head, w.bytes, 0, true⟩ } }) ∧
        (w.steps ≠ 2 → w.kind = .ctl →
          let slot := (d.nvm.ctlSlot + 1) % 64
          ends { d with nvm := { d.nvm with ctlSlot := slot, write := some ⟨.ctl, ctlAddr slot, w.bytes, 0, true⟩ } }) ∧
        (w.steps ≠ 2 → w.kind = .map1 ∨ w.kind = .map2 →
          exec .nvmHoldEnd s = .next (((s.onCore (fun _ => d)).writeMap w.kind w.bytes).revokeNext.rest))))

/-- Host flash operations, key provisioning, burns and the failure rate limit complete. With the paths of service open an
operation of NVM_OP is taken for its page or area through any port, or is refused with OPREJ; it begins once it may,
with an erase taking the sectors of its area, and waits until then; once begun it ends with the page programmed from
the buffer as it stood at GO or the buffer filled, with the words of two bit errors reported, BUSY at 0 and OPDONE.
That BUSY rises at GO and that the buffer counts as it stood there is the model's choice (log 64). A burn of a key
slot, of the image key or of PROVCLOSED begins, or is refused with PROVREJ, and at its end the words hold what was
burned, BUSY reads 0 and the check value of a provisioned slot is computed. A time without a failure lowers FCNT, in a
hold-off as well, and a hold-off ends with FCNT 7. (R377, R386, R387, R389, R394) -/
def Obligations.HostFlashOperationsAndKeys : Prop :=
  ∀ (s : State),
    (s.serviceRuns = true → ∀ p : HostPort,
      let ready (op : Nat) : State := s.onCore (fun c => c.putFields pgNVM .nvm 0x34 (BitVec.ofNat 32 (0x100 + op)))
      let begins (op : Nat) (i : Instr) : Prop :=
        (exec i s = .next ((ready op).nvmGo.rest.frameEnd)) ∧
        (∀ sec n, let c := (ready op).core
          let off := c.fld pgNVM NVM_OPADDR_OFFSET
          let area := c.fld pgNVM NVM_OPADDR_AREA
          c.areaOf area = some (sec, n) → c.fld pgNVM NVM_OP_OP = op → c.nvm.host = none → off % 32 = 0 → off < n * 2048 → (op = 3 ∨ area < 2) →
          (op = 1 → (ready op).pageProgrammable (sec * 2048 + off) = true) →
          let x : HostOp := ⟨op, area, off, c.nvmBuf, false⟩
          exec i s = .next (s.wrote (({ c with nvm := { c.nvm with host := some x } } : Core).setFld pgNVM NVM_OP_BUSY 1).letHost))
      begins 1 (.nvmProgram p) ∧ begins 2 (.nvmErase p) ∧ begins 3 (.nvmRead p)) ∧
    (∀ (d : Core) (h : HostOp) (sec n : Nat), d.nvm.host = some h → h.begun = false → d.areaOf h.area = some (sec, n) →
      (d.hostReady h.op = false → d.letHost = d) ∧
      (d.hostReady h.op = true → d.letHost =
        (let e : Core := { d with nvm := { d.nvm with host := some { h with begun := true } } }
         if h.op = 2 then (List.range n).foldl (fun c i => c.wantErase (sec + i) .host) e else e))) ∧
    (s.booted = true → ∀ h sec n, s.core.nvm.host = some h → s.core.areaOf h.area = some (sec, n) → h.begun = true →
      let a := sec * 2048 + h.off
      let done (s : State) : State := s.onCore (fun c => (({ c with nvm := { c.nvm with host := none } } : Core).setFld pgNVM NVM_OP_BUSY 0).raise pgNVM 0)
      (h.op = 1 → exec .nvmOpDone s = .next ((done ((List.range 8).foldl (fun s1 i =>
        if (h.buf[i]?).getD 0xFFFFFFFF#32 = 0xFFFFFFFF#32 then s1
        else s1.flashWrite (a + 4 * i) (wordBytes ((h.buf[i]?).getD 0xFFFFFFFF#32))) s)).rest)) ∧
      (h.op = 2 → s.core.nvm.erases.any (fun e => e.2 = .host) = false → exec .nvmOpDone s = .next ((done s).rest)) ∧
      (h.op = 3 → exec .nvmOpDone s = .next ((done ((s.reportBad a 32).onCore (fun c =>
        (List.range 8).foldl (fun c i => c.setFld pgNVM (NVM_BUF_DATA i) (s.flashWord (a + 4 * i)).toNat) c))).rest))) ∧
    (s.serviceRuns = true →
      (∀ k : Fin 4,
        let c := (s.core.putFields pgSEC .sec 0x38 (BitVec.ofNat 32 (k.val + 0x100)))
        let d := (s.core.putFields pgSEC .sec 0x38 (BitVec.ofNat 32 (k.val + 0x400)))
        let bad := s.provClosed = true ∨ s.keyProv k = true ∨ s.keyRev k = true ∨ s.keyDamaged k = true ∨ c.sec.burn.isSome = true
        let badImg := s.provClosed = true ∨ s.keyProv k = false ∨ d.sec.burn.isSome = true
        (bad → exec (.keyProvision k) s = .next (s.wrote (c.raise pgSEC 4))) ∧
        (¬ bad → exec (.keyProvision k) s = .next (s.wrote
          (({ c with sec := { c.sec with burn := some (Burn.slot k c.keyLoad), burnOn := !c.held } } : Core).setFld pgSEC SEC_KPROG_BUSY 1))) ∧
        (badImg → exec (.keyImgauth k) s = .next (s.wrote (d.raise pgSEC 4))) ∧
        (¬ badImg → exec (.keyImgauth k) s = .next (s.wrote
          (({ d with sec := { d.sec with burn := some (.imgauth k), burnOn := !d.held } } : Core).setFld pgSEC SEC_KPROG_BUSY 1)))) ∧
      (let c := s.core.putFields pgSEC .sec 0x38 (setBits (s.core.wordOf pgSEC 0x38) 9 1 1)
       (s.provClosed = true ∨ c.sec.burn.isSome = true → exec .provClose s = .next (s.wrote (c.raise pgSEC 4))) ∧
       (s.provClosed = false → c.sec.burn.isSome = false → exec .provClose s = .next (s.wrote
          (({ c with sec := { c.sec with burn := some .close, burnOn := !c.held } } : Core).setFld pgSEC SEC_KPROG_BUSY 1))))) ∧
    (s.booted = true → s.core.sec.burnOn = true →
      let idle (s : State) : State := s.onCore (fun c => ({ c with sec := { c.sec with burn := none } } : Core).setFld pgSEC SEC_KPROG_BUSY 0)
      let clear (c : Core) : Core := ((List.range 4).foldl (fun (c : Core) i => c.setFld pgSEC (SEC_KLD_KEY i) 0) c).raise pgSEC 3
      (∀ k key, s.core.sec.burn = some (.slot k key) → exec .otpBurnDone s = .next
        ((((idle (((List.range 4).foldl (fun (s : State) i => s.otpBurn (4 * k + i) ((key[i]?).getD 0)) s).otpBurn (18 + k) 1)).onCore clear).showKey k).revokeNext.rest)) ∧
      (∀ k, s.core.sec.burn = some (.imgauth k) → exec .otpBurnDone s = .next
        ((idle ((s.otpBurn 27 (BitVec.ofNat 32 (2 ^ 31 + k))).otpBurn 28 1)).revokeNext.rest)) ∧
      (s.core.sec.burn = some .close → exec .otpBurnDone s = .next ((idle (s.otpBurn 26 1)).revokeNext.rest)) ∧
      (∀ m, s.core.sec.burn = some (.revoke m) → exec .otpBurnDone s = .next ((idle s).revokeNext.rest))) ∧
    (s.booted = true →
      exec .secFailDecay s = .next
        (s.onCore (fun c => c.setFld pgSEC SEC_FAIL_FCNT (c.fld pgSEC SEC_FAIL_FCNT - 1))) ∧
      (s.core.stat pgSEC 0 = true → exec .secHoldoffEnd s = .next (s.after
        (let c := s.core
         let c : Core := { c with flt := { c.flt with live := c.flt.live.filter (fun p => p.1 ≠ 0x45) }, sec := { c.sec with holdEnd := 0 } }
         ((c.setLevel pgSEC 0 false).setLevel pgCMD 8 false).setFld pgSEC SEC_FAIL_FCNT 7))))

/-- Supplies, the waking state, RST_N and the software reset complete. VKEEP rising clears the always-on domain and leaves
the device PARKED with its core in reset; its loss takes the core to reset and PARKED, MAINEN low. A core supply that
rises starts a wake when all are good in PARKED; one that falls takes the core to reset and the device from any state
but PARKED to WAKING, and loses the GRAVE copy of its supply; the BOOT that follows has cause 1, and the pins of the
core supplies that stay good hold what the reset gives them. In WAKING good supplies open BOOT when RST_N is high, and
20 ms without them park the device and count a failed wake. RST_N low for 2 us resets the core of a device that is
past WAKING, under 0.5 us nothing; its release opens BOOT. COLDNEXT makes the next BOOT cold, and SWRST, where
enabled, resets the device once its frame has ended. (R338, R400, R401, R402, R404, R405, R407, R410, R415, R416,
R417, R418) -/
def Obligations.SuppliesAndResets : Prop :=
  ∀ (s : State),
    (s.pw.isGood 4 = false → let p : Power := {}
      exec .vkeepPowerOn s = .next { s with
        core := freshCore { s with pw := p } false, pw := { p with good := (s.pw.setGood 4 true).good, rstn := s.pw.rstn } }) ∧
    (s.pw.isGood 4 = true → let t := s.resetCore true
      exec .vkeepLoss s = .next { t with pw := { t.pw.setGood 4 false with pstate := .parked, mainen := false, filtered := false } }) ∧
    (∀ i : Fin 4, s.pw.isGood i = false → let p := s.pw.setGood i true
      (p.pstate = .parked → p.coreGood = true → p.lo50 = false → p.isGood 4 = true → exec (.supplyRise i) s = .next { s with
        pw := { p with pstate := .waking, mainen := true, filtered := false, heldSince := [], nextCause := 1, wakeLatch := p.wakeLatch || false, wakes := satAdd 8 p.wakes 1 } }) ∧
      (p.pstate ≠ .parked ∨ p.coreGood = false → exec (.supplyRise i) s = .next { s with pw := p })) ∧
    (∀ i : Fin 4, s.pw.isGood i = true →
      let p := s.pw.setGood i false
      let p := if i.val = 2 then { p with graveD := false, vddcFell := true }
        else if i.val = 0 then { p with graveV := false, vcc33Fell := true } else p
      let held := (if p.pstate = .waking then p.heldSince else [0, 1, 3, 4].filter p.isGood).filter (fun j => j ≠ i.val)
      let p : Power := { p with heldSince := held }
      (p.pstate = .parked → exec (.supplyFall i) s = .next { s with pw := p }) ∧
      (p.pstate ≠ .parked → let t := ({ s with pw := p } : State).resetCore true
        exec (.supplyFall i) s = .next { t with pw := { t.pw with
          pstate := .waking, filtered := false, nextCause := 1 } })) ∧
    (s.pw.pstate = .waking →
      (s.pw.coreGood = true → s.pw.isGood 4 = true → exec .wakingSupplyGood s = .next
        { s with pw := { s.pw with filtered := true, pstate := if s.pw.rstn then .boot else .waking } }) ∧
      (s.pw.filtered = false → exec .wakingTimeout s = .next
        { s with pw := { s.pw with pstate := .parked, mainen := false, wakeFails := satAdd 8 s.pw.wakeFails 1 } })) ∧
    (∀ ns : Nat,
      (ns < 500 → exec (.rstNAssert ns) s = .next { s with core := { s.core with free := s.core.free + 1 } }) ∧
      (2000 ≤ ns → let t : State := { s with pw := { s.pw with rstn := false } }
        (s.pw.pstate.code < 2 → exec (.rstNAssert ns) s = .next t) ∧
        (2 ≤ s.pw.pstate.code → exec (.rstNAssert ns) s = .next
          { t.resetCore false with pw := { (t.resetCore false).pw with pstate := .boot, nextCause := 3 } }))) ∧
    (let t : State := { s with pw := { s.pw with rstn := true } }
     exec .rstNRelease s = .next
       (if s.pw.pstate = .waking && s.pw.filtered then { t with pw := { t.pw with pstate := .boot } } else t)) ∧
    (s.serviceRuns = true →
      exec .coldnext s = .next ({ s with pw := { s.pw with fastok := false } } : State).rest.frameEnd ∧
      (s.pw.swren = true → exec .swrst s = .next (s.wrote { s.core with hst := { s.core.hst with swrstDue := true } })) ∧
      (s.pw.swren = false → exec .swrst s = .next (s.wrote s.core))) ∧
    (s.core.hst.stream = none → s.core.hst.resetDue = false → s.core.hst.swrstDue = true → s.frameEnd =
      { s.resetCore false with pw := { (s.resetCore false).pw with pstate := .boot, nextCause := 4 } })

/-- The phases of BOOT complete, and its end enters the state that follows. BOOT starts with device time 0, the straps
read, every side's level at its start value, WAKE shown as C51 stands, and the kind and cause settled, the GRAVE latch
clear only with both copies lost. Phase A arms the references and starts the housekeeping round; phase B halts BOOT
with OTPERR where the OTP check fails and else takes keys, map and control record, reporting their words with two bit
errors; phase C tests, maps out what fails and raises the ceilings; phase D loads the image and calibrates; and the
end of BOOT lets the sequencer pins drive, loads the programs, finds the log's head, applies the held writes and the
entries of the image in their order, reports the BOOT and enters GRAVE, SEQUENCING or the state past it, where a
DEVSAFE that rose in BOOT starts the fault handling now (log 73); a host's write to BKH_CTRL comes after UP has
started. With VCC33 good every PWM output is at mid and every gate low from the wake to the end of BOOT, and high-
impedance in PARKED, where MAINEN is low. (R47, R338, R376, R404, R410, R412, R413, R414, R415, R420, R426, R427) -/
def Obligations.BootRuns : Prop :=
  ∀ (s : State),
    (s.bootReady = true → ∀ a0 a1 : Vector Nat 8,
      let g := s.pw.grave
      let cold := !s.pw.fastok || s.pw.coldall || s.storedMap.isNone
      let l0 := strapRead a0
      let l1 := strapRead a1
      let c : Core := { s.core with time := 0, wraps := 0 }
      let c := (((c.setFld pgHST HST_STRAP_A0LVL l0.1).setFld pgHST HST_STRAP_A1LVL l1.1).setFld pgHST HST_STRAP_MSTR (b2n (l1.1 = 3))).setFld
        pgHST HST_STRAP_SMBADDR (0x40 + 4 * l1.1 + l0.1)
      let c := (((c.setLevel pgHST 9 (l0.2 || l1.2)).setStat pgBKH 7 s.pw.hi51).setLevel pgLNK 1 (l1.1 = 3)).setStat pgDEV 1 cold
      exec (.bootStart a0 a1) s = .next (({ s with
        core := c.sideLevels
        pw := { s.pw with
          inReset := false, phase := 0, halt := false, cold := cold, cause := if s.pw.vkeepUp then 0 else s.pw.nextCause
          vkeepUp := false, vddcFell := false, vcc33Fell := false, graveD := g, graveV := g
          graveMsg := if g then s.pw.graveMsg else 0, graveTime := if g then s.pw.graveTime else 0 } } : State).syncFlt)) ∧
    (s.inPhase 0 = true → exec .bootPhaseAEnd s = .next ((s.phaseEnds.onCore (fun c => c.armRefs.thmStart)).rest)) ∧
    (s.inPhase 1 = true →
      (s.otpOk = false → exec .bootPhaseBEnd s = .next
        (({ s.onCore (fun c => c.setLevel pgDEV 2 true) with pw := { s.pw with halt := true } } : State).rest)) ∧
      (s.otpOk = true → exec .bootPhaseBEnd s = .next (((((s.showKeys.reportBad (12 * 2048) 4096).takeMap).reportBad (14 * 2048) 4096).takeCtl).phaseEnds.rest))) ∧
    (s.inPhase 2 = true → ∀ (fails : List (Nat × Nat)) (us : Nat),
      exec (.bootPhaseCEnd fails us) s = .next (((s.onCore (fun c => c.bootBist s.pw.cold fails us)).bootCtl.phaseEnds).rest)) ∧
    (s.inPhase 3 = true → ∀ (means : Vector Int 24) (csref : Vector Bool 3),
      exec (.bootPhaseDEnd means csref) s = .next (((s.loadImage.onCore (fun c => c.bootCal means csref)).phaseEnds).rest)) ∧
    (s.inPhase 4 = true → ∀ us : Nat,
      let t := s.loadPrograms.findHead.applyHeldIf (fun h => !isBakeWrite h)
      let t : State := { t with pw := { t.pw with bootUs := min us 65535 } }
      let t := ((t.queueRecord 2 t.pw.cause 0).bootBits.onCore Core.bootHoldoff).phaseEnds
      let t := t.onCore (fun c => { c with bkh := { c.bkh with outEn := true } })
      (t.pw.grave = false → exec (.bootEnd us) s = .next
        (((if t.startUp.core.flt.dev.held then t.startUp.bakeFault else t.startUp).applyHeldIf isBakeWrite).formReport.syncFlt.rest.frameEnd)) ∧
      (t.pw.grave = true →
        let d := (t.deviceAction (msgSrc t.pw.graveMsg)).onCore (fun c => c.setSticky (msgSrc t.pw.graveMsg))
        exec (.bootEnd us) s = .next
          ((({ d with pw := d.pw.enterGrave } : State).applyHeldIf isBakeWrite).formReport.syncFlt.rest.frameEnd))) ∧
    (s.pw.isGood 0 = true → s.pw.isGood 4 = true → ∀ (k : Fin 24) (n : Fin 4),
      (s.pw.pstate = .parked → s.pin .mainen = .low ∧ s.pin (.pwm k) = .highZ ∧ s.pin (.xhg n) = .highZ ∧ s.pin (.xlg n) = .highZ) ∧
      (s.pw.pstate ≠ .parked → s.booted = false →
        s.pin .mainen = .high ∧ s.pin (.pwm k) = .mid ∧ s.pin (.xhg n) = .low ∧ s.pin (.xlg n) = .low))

/-- Shadows, retests, the background pass, recalibration and slice compares complete. While the repair block runs a shadow
of the next rail is requested after SHGAP, starts on the idle spare, and passes after 65,536 samples without a
mismatch; a retest gives its unit back or retires it and the map is queued; a background unit that fails is mapped out
and the pass goes on; a measured region gives each failing tap group its spare and the next region is measured; a
slice compare is requested with an idle spare, and its mismatch swaps a window slice at once and a phase slice when
its port is in mid; the background pass and recalibration are requested when due. In service the arbiter makes its
pass over every waiting request, each grant starting the first one that may start, and BGNOW starts a background pass.
The model's choices in it: one command makes the arbiter's whole pass, and requests act within one command (log 17);
what the background pass tests and counts in FAILS, and that a failing spare tap group or spare row is no spare any
more (logs 41, 106); how retirement goes where no spare is left (log 108). (R428, R429, R430, R431, R433, R434, R436,
R437, R445) -/
def Obligations.ShadowsRetestsAndPasses : Prop :=
  ∀ (s : State), let c := s.core
    (s.booted = true → c.rpr.depth ≠ 2 →
      (∀ (n : Fin 8) (ms j : Nat), c.nextSpare = some j → c.flag pgRPR RPR_CFG_SHEN = true → c.shadowBusy = false → c.nextShadow = some n.val →
        zeroAsOne (c.fld pgRPR RPR_CFG_SHGAP) ≤ ms → exec (.shadowRequest n ms) s = .next (s.after
          ((c.requestAct ⟨actSHADOW, n, j⟩).setFld pgRPR RPR_SHADOW_NEXT ((n + 1) % 8)))) ∧
      (c.rpr.shadowPend = true →
        let d : Core := { c with rpr := { c.rpr with shadowPend := false } }
        ∀ a j, d.rpr.running.find? (fun a => a.code = actSHADOW) = some a → d.shadowSpare = some j →
        (d.shadowable a.inst = false → exec .shadowStart s = .next (s.after (d.endAct actSHADOW a.inst))) ∧
        (d.shadowable a.inst = true →
          let e := ((d.setFld pgRPR RPR_SHADOW_ENGINE j).setFld pgRPR RPR_SHADOW_RAIL a.inst).setFld pgRPR RPR_SHADOW_SAMPLES 0
          exec .shadowStart s = .next (s.after
            (((e.modEng (e.railEng a.inst) (fun x => { x with latovr := false })).setLevel (pgE j) 1 true).syncEngines)))) ∧
      (c.fld pgRPR RPR_SHADOW_ENGINE ≠ 0xF → c.rpr.takeover = none → 65536 ≤ c.fld pgRPR RPR_SHADOW_SAMPLES →
        exec .shadowPass s = .next (s.after ((c.incSat pgRPR RPR_SHCNT_PASSES 1).endShadow 1))) ∧
      (∀ (u : Nat) (ok : Bool), c.actRuns actRETEST u = true → let d := c.endAct actRETEST u
        (u < 10 → exec (.retestDone u ok) s = .next (s.after
          (((d.modMap (fun m => { m with engSt := vmod m.engSt u (fun _ => if ok then 1 else 2) })).syncEngines).queueMap))) ∧
        (10 ≤ u → ok = true → exec (.retestDone u ok) s = .next (s.after d.queueMap)) ∧
        (10 ≤ u → ok = false → exec (.retestDone u ok) s = .next (s.after (Core.queueMap
          (if u < 32 then d.modMap (fun m => { m with wret := m.wret ||| (1#9 <<< (u - 16)) }) else d.retirePhaseBit (u - 32)))))) ∧
      (∀ (u : Nat) (ok : Bool), c.actRuns actBISTBG u = true →
        let d := c.endAct actBISTBG u
        let d : Core := { d with rpr := { d.rpr with bgLeft := d.rpr.bgLeft.filter (fun x => x ≠ u) } }
        exec (.bistbgDone u ok) s = .next (s.after (Core.backgroundNext
          (if ok || c.skipUnit u then d
           else if u < 64 then (d.bistFail false (unitKind u).1 (unitKind u).2).queueMap
           else ({ d with rpr := { d.rpr with badSpares := d.rpr.badSpares ++ [u] } } : Core).bistMaps (unitKind u).1 (unitKind u).2)))) ∧
      (∀ (r : Nat) (fails : List Nat), c.actRuns actRECAL r = true →
        let m := c.rpr.map
        let d := c.endAct actRECAL r
        let left := d.rpr.recalLeft.filter (fun x => x ≠ r)
        let bad := fails.filter (fun g => g < 64)
        let d := bad.foldl (fun (c : Core) g => c.retireTap g false false) ({ d with rpr := { d.rpr with recalLeft := left } } : Core)
        let d := if d.rpr.map = m then d else d.queueMap
        let d : Core := { d with engs := d.engs.map (fun e => { e with compNew := true }) }
        exec (.recalDone r fails) s = .next (s.after (match left with | [] => d | r :: _ => d.requestAct ⟨actRECAL, r, 0⟩))) ∧
      (∀ i t u, c.rpr.slq = i :: t → c.comparing = false → let d : Core := { c with rpr := { c.rpr with slq := t } }
        d.compareSpare i = some u → d.flag pgRPR RPR_CFG_SLCEN = true → exec .slcmpRequest s = .next (s.after (d.requestAct ⟨actSLCMP, i, u⟩))) ∧
      (∀ (i : Nat) (a : Act), c.rpr.running.find? (fun a => a.code = actSLCMP && a.inst = i) = some a → let d := c.endAct actSLCMP i
        exec (.slcmpDone i false) s = .next (s.after d) ∧
        (i < 16 → exec (.slcmpDone i true) s = .next (s.after
          ((((d.setWindow i (a.spare - 16)).raise pgRPR 2).requestAct ⟨actRETEST, 16 + vget d.rpr.map.wsl i 15, 0⟩).queueMap))) ∧
        (16 ≤ i → d.rpr.pspend.any (fun p => p.1 = i - 16 || p.2 = a.spare - 32) = false → exec (.slcmpDone i true) s = .next (s.after
          { d with rpr := { d.rpr with pspend := d.rpr.pspend ++ [(i - 16, a.spare - 32)] } }))) ∧
      (∀ min : Nat, (c.flag pgRPR RPR_BIST_BGDONE = false ∧ c.flag pgRPR RPR_BIST_FULLB = false) ∨
          (c.fld pgRPR RPR_CFG_BGP ≠ 0 ∧ c.fld pgRPR RPR_CFG_BGP ≤ min) → exec (.bistbgRun min) s = .next (s.after c.background)) ∧
      (c.rpr.bgLeft = [] → c.background =
        (({ c with rpr := { c.rpr with bgLeft := c.idleUnits } } : Core).setFld pgRPR RPR_BIST_FAILS 0).backgroundNext) ∧
      (∀ secs : Nat, c.rpr.recalLeft = [] → c.rpr.recalDue = true ∨ (c.fld pgRPR RPR_CFG_RECALP ≠ 0 ∧ c.fld pgRPR RPR_CFG_RECALP ≤ secs) →
        exec (.recalRequest secs) s = .next (s.after
          (({ c with rpr := { c.rpr with recalLeft := List.range 6, recalDue := false } } : Core).requestAct ⟨actRECAL, 0, 0⟩)))) ∧
    (s.serviceRuns = true →
      exec .maintGrant s = .next (s.after
        ((c.rpr.waiting.foldl (fun (d : Core) _ => d.releaseTests.freshCompares.grant) c).releaseTests.pumpIdents)) ∧
      (∀ (d : Core) (a : Act), d.nextGrant [] d.waitingInOrder = some a → d.grant =
        (({ d with rpr := { d.rpr with waiting := d.rpr.waiting.filter (fun b => b ≠ a) } } : Core).startAct a).syncPend) ∧
      exec .bgnow s = .next (s.wrote c.background))

/-- Freeze requests and steps and the instructions of the test access port complete. A change at the FRZ pin and a write
of OBS move the levels that the freeze follows; FULL starts full freeze, RECAP recaptures the rack in observe freeze,
every PWM output in mid is step 3 and the halt with its capture step 4. Each instruction of an open test port leaves
its code with the data it returns: boundary cells, the ID code, a register word without a side effect or a write's
DONE, the rack whole or one word of it, or the bypass bit, which a code that is not listed selects too, while BYPASS
scanned with a listed code changes nothing; the instruction register returns 0b000001; EXTEST in force drives the pins
only in full freeze and in a halted BOOT. The model's choices in it: the order of the boundary cells, captured as free
values, and the data of an access with DONE 0 or of a write (logs 6, 65). (R438, R439, R440, R441, R442, R443) -/
def Obligations.FreezesAndTheTestPort : Prop :=
  ∀ (s : State), let c := s.core
    (∀ b : Bool, let d : Core := { c with rpr := { c.rpr with pin := b } }
      (s.alive = true → exec (.frzPinChange b) s = .next (s.after d)) ∧
      (s.alive = false → exec (.frzPinChange b) s = .next { s with core := d })) ∧
    (s.regOpen = true → s.booted = true →
      (∀ b : Bool, exec (.obs b) s = .next (s.wrote (c.putFields pgRPR .rpr 0x48 (setBits (c.wordOf pgRPR 0x48) 0 1 (b2n b))))) ∧
      exec .full s = .next (s.wrote ((c.putFields pgRPR .rpr 0x48 (setBits (c.wordOf pgRPR 0x48) 1 1 1)).enterFull false)) ∧
      (c.rpr.depth = 1 → exec .recap s = .next
        (((s.onCore (fun c => c.putFields pgRPR .rpr 0x48 (setBits (c.wordOf pgRPR 0x48) 2 1 1))).onCore (fun c => { c with rpr := { c.rpr with reqAt := c.absTime } })).captureRack.rest.frameEnd))) ∧
    (s.alive = true →
      (c.rpr.depth = 2 → c.rpr.allMid = false → (∀ k < 24, (c.port k).pwm = .mid) →
        exec .freezeAllMid s = .next (s.after { c with rpr := { c.rpr with allMid := true } })) ∧
      (c.rpr.allMid = true → c.rpr.halted = false →
        exec .freezeHalt s = .next ((s.onCore (fun c => { c with rpr := { c.rpr with halted := true } })).captureRack.rest))) ∧
    (s.tapOpen = true →
      let ran (c : Core) (code : Nat) (out : List Byte) (f : Rpr → Rpr) : State := { s with core := { c with
        rpr := f { c.rpr with tapIr := code, extest := false }, hst := { c.hst with jtag := out, jtagIr := 1 } } }
      exec .tapReset s = .next { s with core := { c with
        rpr := { c.rpr with tapIr := 0x02, extest := false }, hst := { c.hst with jtag := [] } } } ∧
      exec .idcode s = .next (ran c 0x02 [0xEF, 0x89, 0x40, 0x12] id) ∧
      (∀ code : Fin 64, (tapListed code = false → exec (.bypass code) s = .next (ran c code [0] id)) ∧
        (tapListed code = true → exec (.bypass code) s = .next s)) ∧
      exec .frzScan s = .next (ran c 0x11 ((List.range 1024).flatMap (fun i => wordBytes ((c.rpr.rack[i]?).getD 0))) id) ∧
      (∀ addr : Nat, exec (.frzRead addr) s = .next (ran c 0x12
        (wordBytes ((c.rpr.rack[c.rpr.tapAddr / 4]?).getD 0) ++ toLeBytes 2 c.rpr.tapAddr) (fun r => { r with tapAddr := addr % 4096 / 4 * 4 }))) ∧
      (∀ bits : List Bool,
        let cells := (List.range bits.length).map (fun i => Config.freeBool (c.free + i))
        let scanned (code : Nat) (drives : Bool) : State := (ran c code (bitBytes cells) (fun r =>
          { r with bscan := cells, preload := bits, extest := drives })).onCore (fun d => { d with free := d.free + bits.length })
        exec (.samplePreload bits) s = .next (scanned 0x01 false) ∧
        exec (.extest bits) s = .next (scanned 0x00 true) ∧
        (scanned 0x00 true).scanDrives = (decide (c.rpr.depth = 2) || s.pw.halt)) ∧
      (∀ (pg off : Nat) (v : Word), addrOk pg off = true →
        (s.regOpen = true →
          exec (.regacc false pg off v) s = .next (ran c 0x10 (wordBytes (s.peek pg off) ++ [1]) id) ∧
          (let t := s.portWrite .jtag pg off v
           exec (.regacc true pg off v) s = .next (({ t with core := t.core.takeWord.2 } : State).tap 0x10 (wordBytes t.core.takeWord.1 ++ [1]) id))) ∧
        (s.regOpen = false → ∀ wr, exec (.regacc wr pg off v) s = .next (ran c.takeWord.2 0x10 (wordBytes c.takeWord.1 ++ [0]) id))))

/-- The interrupt summary, ALERT_N and the ALERT bit. A page's bit of HST_ISUM0 to HST_ISUM2 reads 1 exactly while the
page is implemented and STKY AND IEN is not zero. Once BOOT has ended and while no alert response has released
ALERT_N, some such page is what asserts it: with ALMASK 0 the pin is low exactly then, and the ALERT bit of the SPI
status byte is 1 exactly then. (R30) -/
def Obligations.InterruptSummary : Prop :=
  ∀ (s : State),
    let raised (pg : Nat) : Prop := (s.core.reg pg 0x0C &&& s.core.reg pg 0x10) ≠ 0
    (∀ pg < 96, bitOf (s.peek pgHST (0x40 + 4 * (pg / 32))) (pg % 32) = true ↔ (kindOf pg).isSome = true ∧ raised pg) ∧
    (s.booted = true → s.core.hst.alertRel = false →
      let some_ : Prop := ∃ pg < 96, (kindOf pg).isSome = true ∧ raised pg
      (s.core.flag pgHST HST_SMBCFG_ALMASK = false → (s.alertPin = true ↔ some_)) ∧
      (∀ hcrc dcrc page frame : Bool, (s.spiStatus hcrc dcrc page frame).getLsbD 1 = true ↔ some_))

/-- The mandatory data byte of an in-band interrupt. An interrupt of an admitted requester on a bus that is up, with no
item read in progress, and acknowledges interrupts: with bits [7:5] at 0 and a count of 1 to 31 in bits [4:0], the
requester's PENDING is that count afterwards and every other context is as before; with any other byte every context
and every overflow requester is as before, and the bus's BADMDB bit is 1. What follows at once is that of State.after.
(R142) -/
def Obligations.InterruptByteSetsPending : Prop :=
  ∀ (s : State) (b : Fin 2) (da : Nat) (mdb : Byte) (i : Nat), s.serviceRuns = true → (s.core.bus b).up = true → (s.core.bus b).reading = none →
    s.core.flag pgHST (HST_I3CCFG_IBIEN b) = true → s.core.ctxOfDa b da = some i →
    (mdb.toNat / 32 = 0 → 1 ≤ mdb.toNat % 32 → ∃ d : Core, exec (.i3cIbi b da mdb) s = .next (s.after d) ∧
      d = { s.core with cmd := d.cmd } ∧ d.pendingOf b i da = mdb.toNat % 32 ∧ (∀ j, j ≠ i → d.ctx j = s.core.ctx j) ∧
      (i < 64 → d.cmd.ovf = s.core.cmd.ovf ∧ d.ctx i = { s.core.ctx i with pending := mdb.toNat % 32 })) ∧
    (mdb.toNat / 32 ≠ 0 ∨ mdb.toNat % 32 = 0 → let d := s.core.raise pgHST (20 + b)
      exec (.i3cIbi b da mdb) s = .next (s.after d) ∧ d.cmd = s.core.cmd ∧ d.stky pgHST (20 + b) = true)

/-- Accesses to a page that is not implemented. On a page that is not implemented every register reads 0 through every
port and a write changes nothing, at every offset. An SPI frame of one word, read or write, that reaches such a page
shows PAGE_ERR in its status byte and sets HST_STKY.SPI_PAGE, and answers four zero bytes or writes nothing. An access
through the SMBus window answers four zero bytes or writes nothing, and sets bit 6 of STATUS_CML. (R33) -/
def Obligations.UnimplementedPages : Prop :=
  ∀ (s : State) (pg : Byte), kindOf pg.toNat = none →
    (∀ (p : HostPort) (off : Nat) (w : Word), s.readReg p pg.toNat off = (0, s) ∧ s.hostWrite p pg.toNat off w = s) ∧
    (∀ (cmd off hcrc dcrc : Byte) (data : List Byte) (waits : Nat), s.regOpen = true → s.core.hst.stream = none →
      crc8 [cmd, pg, off] = hcrc → frameBad cmd off = false → cmdMode cmd = 0 →
      let t : State := { s with core := s.core.raise pgHST 3 }
      let st := t.spiStatus false false true false
      st.getLsbD 4 = true ∧ t.core.stky pgHST 3 = true ∧
      (cmdWr cmd = false → exec (.spiReadSingle cmd pg off hcrc waits) s =
        .next (t.spiEnd (waitBytes (min 4 waits) ++ [st] ++ [0, 0, 0, 0] ++ [crc8 [st, 0, 0, 0, 0]]) false).frameEnd) ∧
      (cmdWr cmd = true → data.length = 4 → crc8 data = dcrc → exec (.spiWriteSingle cmd pg off hcrc data dcrc) s =
        .next (t.spiEnd (waitBytes 5 ++ [st, crc8 [st]]) false).frameEnd)) ∧
    (s.smbOpen = true → s.core.fld pgHST HST_WINADDR_PAGE = pg.toNat →
      (∀ crc : Bool, let d := s.core.setCml 6
        exec (.mfrWindowData (.read crc)) s = .next { s with core := d.smbAnswer (d.smbBytes 0xD1 crc [4, 0, 0, 0, 0]) true }) ∧
      (∀ (a b c d : Byte) (pec : Pec), s.core.pecBad pec = false → s.core.fld pgHST HST_SMBCFG_WPROT = 0 →
        exec (.mfrWindowData (.write [a, b, c, d] pec)) s =
          .next (({ s with core := (s.core.smbAnswer [] true).setCml 6 } : State).rest).frameEnd) ∧
      bitOf ((s.core.setCml 6).reg pgHST 0x3C) 6 = true)

/-- PMBus commands with PAGE at 0xFF. With the port open and PAGE at 0xFF, every rail command reads 0xFF in each byte,
with its PEC where the host clocks one, and sets bit 6 of STATUS_CML. With a good PEC and no write protection a valid
write of each writable rail command is applied to rails 0 to 7 in that order (a threshold that some rail refuses also
marks the write as invalid data), CLEAR_FAULTS clears the bits of all of them and HST_CML, and a write of 0x08 to 0xFE
to PAGE is invalid data and leaves PAGE at 0xFF. The model's choice in it: a threshold write that some rail refuses
keeps its writes to the other rails and is invalid data besides (log 110). (R56, R57, R224, R254) -/
def Obligations.PmbusPageAllRails : Prop :=
  ∀ (s : State), s.smbOpen = true → s.core.fld pgHST HST_PMBPAGE_PAGE = 0xFF →
    let ones (code : Byte) (crc : Bool) (w : Nat) : Host.Outcome State Fault Refusal :=
      .next { s with core := (s.core.smbAnswer (s.core.smbBytes code crc (List.replicate w 0xFF#8)) true).setCml 6 }
    (∀ crc, ∀ i ∈ ([(Instr.operationOn, 0x01#8), (.onOffConfig, 0x02#8), (.voutMode, 0x20#8), (.statusByte, 0x78#8), (.statusVout, 0x7A#8),
      (.statusIout, 0x7B#8), (.statusInput, 0x7C#8), (.statusTemperature, 0x7D#8)] : List ((PmOp → Instr) × Byte)),
      exec (i.1 (.read crc)) s = ones i.2 crc 1) ∧
    (∀ crc, ∀ i ∈ ([(Instr.voutCommand, 0x21#8), (.voutMax, 0x24#8), (.voutTransitionRate, 0x27#8), (.voutOvFaultLimit, 0x40#8),
      (.voutUvFaultLimit, 0x44#8), (.ioutOcFaultLimit, 0x46#8), (.otFaultLimit, 0x4F#8), (.vinOvFaultLimit, 0x55#8),
      (.vinUvFaultLimit, 0x59#8), (.statusWord, 0x79#8), (.readVin, 0x88#8), (.readIin, 0x89#8), (.readVout, 0x8B#8), (.readIout, 0x8C#8),
      (.readTemperature1, 0x8D#8), (.readPout, 0x96#8)] : List ((PmOp → Instr) × Byte)), exec (i.1 (.read crc)) s = ones i.2 crc 2) ∧
    (∀ pec : Pec, s.core.pecBad pec = false → s.core.fld pgHST HST_SMBCFG_WPROT = 0 →
      let a : State := s.answered []
      let run (t : State) : Host.Outcome State Fault Refusal := .next (t.rest).frameEnd
      let all (f : Nat → State → State) : Host.Outcome State Fault Refusal := run ((List.range 8).foldl (fun t n => f n t) a)
      let valid (f : Nat → State → Bool × State) : Host.Outcome State Fault Refusal :=
        let r := (List.range 8).foldl (fun (q : Bool × State) n => (q.1 && (f n q.2).1, (f n q.2).2)) (true, a)
        run (if r.1 then r.2 else { r.2 with core := (r.2.core.smbAnswer [] true).setCml 6 })
      exec (.operationOn (.write [0x80] pec)) s =
        all (fun n t => { t with core := t.core.writeEn n true (t.core.flag (pgV n) V_CTRL_SOFTOFF) true }) ∧
      exec (.operationSoftOff pec) s = all (fun n t => { t with core := t.core.writeEn n false true true }) ∧
      exec (.operationImmediateOff pec) s = all (fun n t => { t with core := t.core.writeEn n false false true }) ∧
      (∀ y : BitVec 16,
        let w : PmOp := .write (toLeBytes 2 y.toNat) pec
        (400 ≤ y.toNat → y.toNat ≤ 3600 →
          exec (.voutCommand w) s = all (fun n t => t.pmField (pgV n) V_TARGET_CODE y.toNat) ∧
          exec (.voutMax w) s = all (fun n t => t.pmField (pgV n) V_VMAX_CODE y.toNat) ∧
          exec (.voutOvFaultLimit w) s = valid (fun n t => t.pmThr n true (roundDiv y.toNat 16).toNat) ∧
          exec (.voutUvFaultLimit w) s = valid (fun n t => t.pmThr n false (roundDiv y.toNat 16).toNat)) ∧
        (1 / 2 ≤ linVal y.toNat → linVal y.toNat ≤ 80 → exec (.voutTransitionRate w) s =
          all (fun n t => t.pmField (pgV n) V_SLEW_RATE (roundRat (8 * linVal y.toNat)).toNat)) ∧
        (0 ≤ linVal y.toNat → linVal y.toNat ≤ 255 →
          exec (.ioutOcFaultLimit w) s = all (fun n t => t.pmField pgTRP (TRP_ROC_ROCLIM n) (roundRat (linVal y.toNat)).toNat) ∧
          exec (.otFaultLimit w) s = all (fun n t => t.pmField pgTHM (THM_OTL_OT n) (roundRat (linVal y.toNat)).toNat)) ∧
        (let code (t : State) (n : Nat) : Int := roundRat (linVal y.toNat * 16000 / ((t.core.vinDiv (t.core.vinsel n) * 5 : Nat) : Rat))
         let limit (hi : Bool) (n : Nat) (t : State) : Bool × State :=
           if 0 ≤ code t n ∧ code t n ≤ 255 then t.pmThr (32 + t.core.vinsel n) hi (code t n).toNat else (false, t)
         exec (.vinOvFaultLimit w) s = valid (limit true) ∧ exec (.vinUvFaultLimit w) s = valid (limit false))) ∧
      exec (.clearFaults pec) s = run { a with core :=
        ((List.range 8).foldl (fun (c : Core) n =>
          (c.statusBits n).foldl (fun (c : Core) p => c.clearStky p.1 (BitVec.ofNat 32 (2 ^ p.2)) 0) c) a.core).setReg pgHST 0x3C 0 } ∧
      (∀ v : Byte, 8 ≤ v.toNat → v.toNat ≠ 0xFF →
        let t : State := { a with core := (a.core.smbAnswer [] true).setCml 6 }
        exec (.page (.write [v] pec)) s = run t ∧ t.core.fld pgHST HST_PMBPAGE_PAGE = 0xFF))

/-- The collector checks each message it takes. While the core is out of reset the collector takes the oldest message of
its latch, the latch filling from the waiting senders. A message whose check bits match and whose source is at most
0x5F is classified as it is. Any other sets FLT_STKY.MSGERR, adds one to FLT_CNT.MSGERR, which saturates, and stands
for a message of source 0x5E, address 0 and kind 0 for a wrong check or 1 for a source above 0x5F, which is classified
like any message. The check bits match when bit 1 is the exclusive or of bits 31 to 17 and bit 0 that of bits 16 to 2.
(R331) -/
def Obligations.MessagesAreChecked : Prop :=
  ∀ (s : State) (w : Word) (t : List Word), s.alive = true → s.core.flt.latch = w :: t →
    let s1 := s.onCore (fun c => ({ c with flt := { c.flt with latch := t } } : Core).fillLatch [])
    let s2 := s1.onCore (fun c => (c.incSat pgFLT FLT_CNT_MSGERR 1).raise pgFLT 6)
    let chk1 := (List.range 15).foldl (fun a i => xor a (bitOf w (17 + i))) false
    let chk0 := (List.range 15).foldl (fun a i => xor a (bitOf w (2 + i))) false
    let matches_ : Prop := bitOf w 1 = chk1 ∧ bitOf w 0 = chk0
    let src := getBits w 24 8
    (matches_ → src ≤ 0x5F → exec .faultMessage s = .next (s1.classify w).rest) ∧
    (¬ matches_ → ∃ m, getBits m 24 8 = 0x5E ∧ getBits m 18 6 = 0 ∧ getBits m 2 16 = 0 ∧ msgOk m = true ∧
      exec .faultMessage s = .next (s2.classify m).rest) ∧
    (matches_ → 0x5F < src → ∃ m, getBits m 24 8 = 0x5E ∧ getBits m 18 6 = 1 ∧ getBits m 2 16 = 0 ∧ msgOk m = true ∧
      exec .faultMessage s = .next (s2.classify m).rest) ∧
    s2.core.stky pgFLT 6 = true ∧
    s2.core.fld pgFLT FLT_CNT_MSGERR = min 65535 (s1.core.fld pgFLT FLT_CNT_MSGERR + 1)

/-- Fault messages carry their fields and fail their check when one bit is wrong. A coded message reads back its source,
kind and address and passes the collector's check; with any one of its 32 bits wrong it fails that check, and the
collector then classifies a message of source 0x5E and kind 0 in its place. (R328, R331) -/
def Obligations.OneWrongBitIsNeverTakenForAMessage : Prop :=
  ∀ (src : BitVec 8) (kind : BitVec 6) (addr : BitVec 16),
    let m := mkMsg src.toNat kind.toNat addr.toNat
    msgSrc m = src.toNat ∧ msgKind m = kind.toNat ∧ msgAddr m = addr.toNat ∧ msgOk m = true ∧
    ∀ (i : Fin 32) (s : State) (t : List Word), s.alive = true →
      s.core.flt.latch = (m ^^^ BitVec.ofNat 32 (2 ^ i.val)) :: t →
      exec .faultMessage s = .next (((s.onCore (fun c => ({ c with flt := { c.flt with latch := t } } : Core).fillLatch [])).onCore
        (fun c => (c.incSat pgFLT FLT_CNT_MSGERR 1).raise pgFLT 6)).classify (mkMsg 0x5E 0 0)).rest

/-- A settled state stays as it is. What follows a command at once, the rest of State.after, does nothing in a settled
state: every port is already in the state that its causes force, or has none and no comparator side that would move
it; no soft turn-off has arrived, and a rail that does not fire draws no current; no cause holds flash writes that is
not shown; no burn could begin and no host operation could begin; no message waits to be offered and no change of
slice waits for a port in mid; no background test has a unit that has gone into service; no black-box record waits to
ask the arbiter and none is asked for without one waiting; no aux group is tripped and no channel held by a trip; no
frame waits for the ring's output; no program of the Bakehouse runs; and the depth of freeze is the one that the
levels ask for. So State.after adds nothing to a core that is settled. (R8, R21, R91, R104, R226, R252, R273, R330,
R356, R381, R438) -/
def Obligations.SettledStatesStay : Prop :=
  ∀ (s : State) (c : Core),
    (∀ k < 24, (c.forcedPwm k = some .mid ∧ (c.port k).pwm = .mid) ∨
      (c.forcedPwm k = none ∧ c.limitHi k = false ∧ c.cmpLo (8 + k) = false)) →
    (∀ n < 8, (c.rail n).rstate ≠ .softoff ∨ (c.rail n).arrived = false) →
    (∀ n < 8, (c.rail n).rstate.fires = true ∨ (c.rail n).irail = 0) → (∀ a ∈ c.rpr.running ++ c.rpr.waiting, a.code ≠ actBISTBG ∨ c.skipUnit a.inst = false) →
    (c.sec.burn = none ∨ c.sec.burnOn = true ∨ c.held = true ∨ c.rpr.depth ≠ 0) → (∀ x, c.nvm.host = some x → x.begun = true ∨ c.hostReady x.op = false) →
    (s.booted = false ∨ (if c.bkh.queue = [] then ∀ a ∈ c.rpr.running ++ c.rpr.waiting, a.code ≠ actBBWRITE else c.unwritten = 0)) →
    (c.holdCause = false ∨ c.stat pgNVM 8 = true) → c.flt.outbox = [] → c.rpr.pspend = [] → (∀ n < 4, c.tripped (8 + n) = false ∧ (c.xch n).tripHold = false) →
    c.lnk.outq = [] → c.bkh.running = false → (s.booted = false ∨ c.rpr.depth = 2 ∨ c.freezeWant = c.rpr.depth) →
    s.after c = { s with core := c }
end

