-- ==== Sys2Proof/Laws/Sparse.lean ====
section
/-! SUPPORT. Read after write, and the canonical form kept, for the sparse tables. -/
namespace Sys2Proof.Machine.Sparse

variable {α : Type} (d : Nat → α)

theorem get_erase_same (l : List (Nat × α)) (k : Nat) : get d (erase l k) k = d k := by
  induction l with
  | nil => rfl
  | cons p t ih =>
    obtain ⟨j, w⟩ := p
    by_cases h : j = k
    · simpa [erase, h] using ih
    · simpa [erase, h, get, Ne.symm h] using ih

theorem get_erase_other (l : List (Nat × α)) {k i : Nat} (h : i ≠ k) : get d (erase l k) i = get d l i := by
  induction l with
  | nil => rfl
  | cons p t ih =>
    obtain ⟨j, w⟩ := p
    by_cases hj : j = k
    · subst hj; simpa [erase, get, h] using ih
    · have e : erase ((j, w) :: t) k = (j, w) :: erase t k := by simp [erase, hj]
      rw [e]; simp only [get, ih]

theorem get_insert_other (l : List (Nat × α)) {k i : Nat} (v : α) (h : i ≠ k) :
    get d (insert l k v) i = get d l i := by
  induction l with
  | nil => simp [insert, get, h]
  | cons p t ih =>
    obtain ⟨j, w⟩ := p
    by_cases hj : k < j
    · simp [insert, hj, get, h]
    · simp [insert, hj, get, ih]

theorem get_insert_erase_same (l : List (Nat × α)) (k : Nat) (v : α) :
    get d (insert (erase l k) k v) k = v := by
  induction l with
  | nil => simp [erase, insert, get]
  | cons p t ih =>
    obtain ⟨j, w⟩ := p
    by_cases hj : j = k
    · simpa [erase, hj] using ih
    · by_cases hk : k < j
      · simp [erase, hj, insert, hk, get]
      · simpa [erase, hj, insert, hk, get, Ne.symm hj] using ih

/-- A read after a write of the same key gives the value written. -/
@[simp] theorem get_put_same [DecidableEq α] (l : List (Nat × α)) (k : Nat) (v : α) : get d (put d l k v) k = v := by
  unfold put
  split
  · rw [get_erase_same]; exact (by assumption : v = d k).symm
  · exact get_insert_erase_same d l k v

/-- A write leaves every other key alone. -/
theorem get_put_other [DecidableEq α] (l : List (Nat × α)) {k i : Nat} (v : α) (h : i ≠ k) : get d (put d l k v) i = get d l i := by
  unfold put
  split
  · exact get_erase_other d l h
  · rw [get_insert_other d _ v h, get_erase_other d l h]

theorem above_erase {j : Nat} (k : Nat) {l : List (Nat × α)} (h : above j l = true) : above j (erase l k) = true := by
  simp only [above, erase, List.all_eq_true, List.mem_filter] at h ⊢
  intro p hp; exact h p hp.1

theorem above_insert {j k : Nat} {l : List (Nat × α)} (v : α) (h : above j l = true) (hk : j < k) :
    above j (insert l k v) = true := by
  induction l with
  | nil => simp [insert, above, hk]
  | cons p t ih =>
    obtain ⟨i, w⟩ := p
    simp only [above, List.all_cons, Bool.and_eq_true] at h ih
    by_cases hi : k < i
    · simp only [insert, hi, if_true, above, List.all_cons, Bool.and_eq_true]
      exact ⟨by simpa using hk, h⟩
    · simp only [insert, hi, if_false, above, List.all_cons, Bool.and_eq_true]
      exact ⟨h.1, ih h.2⟩

theorem wf_erase [DecidableEq α] {l : List (Nat × α)} (k : Nat) (h : wf d l = true) : wf d (erase l k) = true := by
  induction l with
  | nil => rfl
  | cons p t ih =>
    obtain ⟨j, w⟩ := p
    simp only [wf, Bool.and_eq_true] at h
    by_cases hj : j = k
    · simpa [erase, hj] using ih h.2
    · have := ih h.2
      have ha := above_erase k h.1.2
      simp only [erase] at this ha ⊢
      simp only [ne_eq, hj, not_false_eq_true, decide_true, List.filter_cons_of_pos, wf, Bool.and_eq_true]
      exact ⟨⟨h.1.1, ha⟩, this⟩

theorem wf_insert_erase [DecidableEq α] {l : List (Nat × α)} {k : Nat} {v : α} (hv : v ≠ d k) (h : wf d l = true) :
    wf d (insert (erase l k) k v) = true := by
  induction l with
  | nil => simp [erase, insert, wf, above, hv]
  | cons p t ih =>
    obtain ⟨j, w⟩ := p
    simp only [wf, Bool.and_eq_true] at h
    by_cases hj : j = k
    · simpa [erase, hj] using ih h.2
    · have hw : wf d (erase t k) = true := wf_erase d k h.2
      have ha := above_erase k h.1.2
      by_cases hk : k < j
      · have e : erase ((j, w) :: t) k = (j, w) :: erase t k := by simp [erase, hj]
        rw [e]; simp only [insert, hk, if_true, wf, Bool.and_eq_true]
        refine ⟨⟨by simpa using hv, ?_⟩, ⟨h.1.1, ha⟩, hw⟩
        simp only [above, List.all_cons, Bool.and_eq_true, List.all_eq_true] at ha ⊢
        exact ⟨by simpa using hk, fun p hp => by
          have := ha p hp; simp at this ⊢; omega⟩
      · have e : erase ((j, w) :: t) k = (j, w) :: erase t k := by simp [erase, hj]
        rw [e]; simp only [insert, hk, if_false, wf, Bool.and_eq_true]
        exact ⟨⟨h.1.1, above_insert v ha (by omega)⟩, ih h.2⟩

/-- A write keeps the canonical form. -/
theorem wf_put [DecidableEq α] {l : List (Nat × α)} (k : Nat) (v : α) (h : wf d l = true) : wf d (put d l k v) = true := by
  unfold put
  split
  · exact wf_erase d k h
  · exact wf_insert_erase d (by assumption) h

end Sys2Proof.Machine.Sparse
end

