-- ==== Sys2Proof/Laws/State.lean ====
section
/-! SUPPORT. The fields of the state after each update, one lemma per field and update; the gates of the paths; and what
a register reads as after a write. -/
namespace Sys2Proof.Machine

/-! ## Fields that an update leaves -/

@[simp] theorem Core.setReg_time (c : Core) (pg off : Nat) (w : Word) : (c.setReg pg off w).time = c.time := rfl
@[simp] theorem Core.setReg_free (c : Core) (pg off : Nat) (w : Word) : (c.setReg pg off w).free = c.free := rfl
@[simp] theorem Core.setReg_rails (c : Core) (pg off : Nat) (w : Word) : (c.setReg pg off w).rails = c.rails := rfl
@[simp] theorem Core.setReg_ports (c : Core) (pg off : Nat) (w : Word) : (c.setReg pg off w).ports = c.ports := rfl
@[simp] theorem Core.setReg_guards (c : Core) (pg off : Nat) (w : Word) : (c.setReg pg off w).guards = c.guards := rfl
@[simp] theorem Core.setReg_engs (c : Core) (pg off : Nat) (w : Word) : (c.setReg pg off w).engs = c.engs := rfl
@[simp] theorem Core.setReg_prot (c : Core) (pg off : Nat) (w : Word) : (c.setReg pg off w).prot = c.prot := rfl
@[simp] theorem Core.setReg_flt (c : Core) (pg off : Nat) (w : Word) : (c.setReg pg off w).flt = c.flt := rfl
@[simp] theorem Core.setReg_crb (c : Core) (pg off : Nat) (w : Word) : (c.setReg pg off w).crb = c.crb := rfl
@[simp] theorem Core.setReg_cmd (c : Core) (pg off : Nat) (w : Word) : (c.setReg pg off w).cmd = c.cmd := rfl
@[simp] theorem Core.setReg_lnk (c : Core) (pg off : Nat) (w : Word) : (c.setReg pg off w).lnk = c.lnk := rfl
@[simp] theorem Core.setReg_tlm (c : Core) (pg off : Nat) (w : Word) : (c.setReg pg off w).tlm = c.tlm := rfl
@[simp] theorem Core.setReg_aux (c : Core) (pg off : Nat) (w : Word) : (c.setReg pg off w).aux = c.aux := rfl
@[simp] theorem Core.setReg_thm (c : Core) (pg off : Nat) (w : Word) : (c.setReg pg off w).thm = c.thm := rfl
@[simp] theorem Core.setReg_bkh (c : Core) (pg off : Nat) (w : Word) : (c.setReg pg off w).bkh = c.bkh := rfl
@[simp] theorem Core.setReg_nvm (c : Core) (pg off : Nat) (w : Word) : (c.setReg pg off w).nvm = c.nvm := rfl
@[simp] theorem Core.setReg_sec (c : Core) (pg off : Nat) (w : Word) : (c.setReg pg off w).sec = c.sec := rfl
@[simp] theorem Core.setReg_rpr (c : Core) (pg off : Nat) (w : Word) : (c.setReg pg off w).rpr = c.rpr := rfl
@[simp] theorem Core.setReg_hst (c : Core) (pg off : Nat) (w : Word) : (c.setReg pg off w).hst = c.hst := rfl

@[simp] theorem Core.setFld_time (c : Core) (pg : Nat) (f : Field) (v : Nat) : (c.setFld pg f v).time = c.time := Core.setReg_time ..
@[simp] theorem Core.setFld_free (c : Core) (pg : Nat) (f : Field) (v : Nat) : (c.setFld pg f v).free = c.free := Core.setReg_free ..
@[simp] theorem Core.setFld_rails (c : Core) (pg : Nat) (f : Field) (v : Nat) : (c.setFld pg f v).rails = c.rails := Core.setReg_rails ..
@[simp] theorem Core.setFld_ports (c : Core) (pg : Nat) (f : Field) (v : Nat) : (c.setFld pg f v).ports = c.ports := Core.setReg_ports ..
@[simp] theorem Core.setFld_guards (c : Core) (pg : Nat) (f : Field) (v : Nat) : (c.setFld pg f v).guards = c.guards := Core.setReg_guards ..
@[simp] theorem Core.setFld_engs (c : Core) (pg : Nat) (f : Field) (v : Nat) : (c.setFld pg f v).engs = c.engs := Core.setReg_engs ..
@[simp] theorem Core.setFld_prot (c : Core) (pg : Nat) (f : Field) (v : Nat) : (c.setFld pg f v).prot = c.prot := Core.setReg_prot ..
@[simp] theorem Core.setFld_flt (c : Core) (pg : Nat) (f : Field) (v : Nat) : (c.setFld pg f v).flt = c.flt := Core.setReg_flt ..
@[simp] theorem Core.setFld_crb (c : Core) (pg : Nat) (f : Field) (v : Nat) : (c.setFld pg f v).crb = c.crb := Core.setReg_crb ..
@[simp] theorem Core.setFld_cmd (c : Core) (pg : Nat) (f : Field) (v : Nat) : (c.setFld pg f v).cmd = c.cmd := Core.setReg_cmd ..
@[simp] theorem Core.setFld_lnk (c : Core) (pg : Nat) (f : Field) (v : Nat) : (c.setFld pg f v).lnk = c.lnk := Core.setReg_lnk ..
@[simp] theorem Core.setFld_tlm (c : Core) (pg : Nat) (f : Field) (v : Nat) : (c.setFld pg f v).tlm = c.tlm := Core.setReg_tlm ..
@[simp] theorem Core.setFld_aux (c : Core) (pg : Nat) (f : Field) (v : Nat) : (c.setFld pg f v).aux = c.aux := Core.setReg_aux ..
@[simp] theorem Core.setFld_thm (c : Core) (pg : Nat) (f : Field) (v : Nat) : (c.setFld pg f v).thm = c.thm := Core.setReg_thm ..
@[simp] theorem Core.setFld_bkh (c : Core) (pg : Nat) (f : Field) (v : Nat) : (c.setFld pg f v).bkh = c.bkh := Core.setReg_bkh ..
@[simp] theorem Core.setFld_nvm (c : Core) (pg : Nat) (f : Field) (v : Nat) : (c.setFld pg f v).nvm = c.nvm := Core.setReg_nvm ..
@[simp] theorem Core.setFld_sec (c : Core) (pg : Nat) (f : Field) (v : Nat) : (c.setFld pg f v).sec = c.sec := Core.setReg_sec ..
@[simp] theorem Core.setFld_rpr (c : Core) (pg : Nat) (f : Field) (v : Nat) : (c.setFld pg f v).rpr = c.rpr := Core.setReg_rpr ..
@[simp] theorem Core.setFld_hst (c : Core) (pg : Nat) (f : Field) (v : Nat) : (c.setFld pg f v).hst = c.hst := Core.setReg_hst ..

@[simp] theorem Core.setSfld_time (c : Core) (pg : Nat) (f : Field) (x : Int) : (c.setSfld pg f x).time = c.time := Core.setFld_time ..
@[simp] theorem Core.setSfld_free (c : Core) (pg : Nat) (f : Field) (x : Int) : (c.setSfld pg f x).free = c.free := Core.setFld_free ..
@[simp] theorem Core.setSfld_rails (c : Core) (pg : Nat) (f : Field) (x : Int) : (c.setSfld pg f x).rails = c.rails := Core.setFld_rails ..
@[simp] theorem Core.setSfld_ports (c : Core) (pg : Nat) (f : Field) (x : Int) : (c.setSfld pg f x).ports = c.ports := Core.setFld_ports ..
@[simp] theorem Core.setSfld_guards (c : Core) (pg : Nat) (f : Field) (x : Int) : (c.setSfld pg f x).guards = c.guards := Core.setFld_guards ..
@[simp] theorem Core.setSfld_engs (c : Core) (pg : Nat) (f : Field) (x : Int) : (c.setSfld pg f x).engs = c.engs := Core.setFld_engs ..
@[simp] theorem Core.setSfld_prot (c : Core) (pg : Nat) (f : Field) (x : Int) : (c.setSfld pg f x).prot = c.prot := Core.setFld_prot ..
@[simp] theorem Core.setSfld_flt (c : Core) (pg : Nat) (f : Field) (x : Int) : (c.setSfld pg f x).flt = c.flt := Core.setFld_flt ..
@[simp] theorem Core.setSfld_crb (c : Core) (pg : Nat) (f : Field) (x : Int) : (c.setSfld pg f x).crb = c.crb := Core.setFld_crb ..
@[simp] theorem Core.setSfld_cmd (c : Core) (pg : Nat) (f : Field) (x : Int) : (c.setSfld pg f x).cmd = c.cmd := Core.setFld_cmd ..
@[simp] theorem Core.setSfld_lnk (c : Core) (pg : Nat) (f : Field) (x : Int) : (c.setSfld pg f x).lnk = c.lnk := Core.setFld_lnk ..
@[simp] theorem Core.setSfld_tlm (c : Core) (pg : Nat) (f : Field) (x : Int) : (c.setSfld pg f x).tlm = c.tlm := Core.setFld_tlm ..
@[simp] theorem Core.setSfld_aux (c : Core) (pg : Nat) (f : Field) (x : Int) : (c.setSfld pg f x).aux = c.aux := Core.setFld_aux ..
@[simp] theorem Core.setSfld_thm (c : Core) (pg : Nat) (f : Field) (x : Int) : (c.setSfld pg f x).thm = c.thm := Core.setFld_thm ..
@[simp] theorem Core.setSfld_bkh (c : Core) (pg : Nat) (f : Field) (x : Int) : (c.setSfld pg f x).bkh = c.bkh := Core.setFld_bkh ..
@[simp] theorem Core.setSfld_nvm (c : Core) (pg : Nat) (f : Field) (x : Int) : (c.setSfld pg f x).nvm = c.nvm := Core.setFld_nvm ..
@[simp] theorem Core.setSfld_sec (c : Core) (pg : Nat) (f : Field) (x : Int) : (c.setSfld pg f x).sec = c.sec := Core.setFld_sec ..
@[simp] theorem Core.setSfld_rpr (c : Core) (pg : Nat) (f : Field) (x : Int) : (c.setSfld pg f x).rpr = c.rpr := Core.setFld_rpr ..
@[simp] theorem Core.setSfld_hst (c : Core) (pg : Nat) (f : Field) (x : Int) : (c.setSfld pg f x).hst = c.hst := Core.setFld_hst ..

@[simp] theorem Core.incSat_time (c : Core) (pg : Nat) (f : Field) (k : Nat) : (c.incSat pg f k).time = c.time := Core.setFld_time ..
@[simp] theorem Core.incSat_free (c : Core) (pg : Nat) (f : Field) (k : Nat) : (c.incSat pg f k).free = c.free := Core.setFld_free ..
@[simp] theorem Core.incSat_rails (c : Core) (pg : Nat) (f : Field) (k : Nat) : (c.incSat pg f k).rails = c.rails := Core.setFld_rails ..
@[simp] theorem Core.incSat_ports (c : Core) (pg : Nat) (f : Field) (k : Nat) : (c.incSat pg f k).ports = c.ports := Core.setFld_ports ..
@[simp] theorem Core.incSat_guards (c : Core) (pg : Nat) (f : Field) (k : Nat) : (c.incSat pg f k).guards = c.guards := Core.setFld_guards ..
@[simp] theorem Core.incSat_engs (c : Core) (pg : Nat) (f : Field) (k : Nat) : (c.incSat pg f k).engs = c.engs := Core.setFld_engs ..
@[simp] theorem Core.incSat_prot (c : Core) (pg : Nat) (f : Field) (k : Nat) : (c.incSat pg f k).prot = c.prot := Core.setFld_prot ..
@[simp] theorem Core.incSat_flt (c : Core) (pg : Nat) (f : Field) (k : Nat) : (c.incSat pg f k).flt = c.flt := Core.setFld_flt ..
@[simp] theorem Core.incSat_crb (c : Core) (pg : Nat) (f : Field) (k : Nat) : (c.incSat pg f k).crb = c.crb := Core.setFld_crb ..
@[simp] theorem Core.incSat_cmd (c : Core) (pg : Nat) (f : Field) (k : Nat) : (c.incSat pg f k).cmd = c.cmd := Core.setFld_cmd ..
@[simp] theorem Core.incSat_lnk (c : Core) (pg : Nat) (f : Field) (k : Nat) : (c.incSat pg f k).lnk = c.lnk := Core.setFld_lnk ..
@[simp] theorem Core.incSat_tlm (c : Core) (pg : Nat) (f : Field) (k : Nat) : (c.incSat pg f k).tlm = c.tlm := Core.setFld_tlm ..
@[simp] theorem Core.incSat_aux (c : Core) (pg : Nat) (f : Field) (k : Nat) : (c.incSat pg f k).aux = c.aux := Core.setFld_aux ..
@[simp] theorem Core.incSat_thm (c : Core) (pg : Nat) (f : Field) (k : Nat) : (c.incSat pg f k).thm = c.thm := Core.setFld_thm ..
@[simp] theorem Core.incSat_bkh (c : Core) (pg : Nat) (f : Field) (k : Nat) : (c.incSat pg f k).bkh = c.bkh := Core.setFld_bkh ..
@[simp] theorem Core.incSat_nvm (c : Core) (pg : Nat) (f : Field) (k : Nat) : (c.incSat pg f k).nvm = c.nvm := Core.setFld_nvm ..
@[simp] theorem Core.incSat_sec (c : Core) (pg : Nat) (f : Field) (k : Nat) : (c.incSat pg f k).sec = c.sec := Core.setFld_sec ..
@[simp] theorem Core.incSat_rpr (c : Core) (pg : Nat) (f : Field) (k : Nat) : (c.incSat pg f k).rpr = c.rpr := Core.setFld_rpr ..
@[simp] theorem Core.incSat_hst (c : Core) (pg : Nat) (f : Field) (k : Nat) : (c.incSat pg f k).hst = c.hst := Core.setFld_hst ..

@[simp] theorem Core.incWrap_time (c : Core) (pg : Nat) (f : Field) (k : Nat) : (c.incWrap pg f k).time = c.time := Core.setFld_time ..
@[simp] theorem Core.incWrap_free (c : Core) (pg : Nat) (f : Field) (k : Nat) : (c.incWrap pg f k).free = c.free := Core.setFld_free ..
@[simp] theorem Core.incWrap_rails (c : Core) (pg : Nat) (f : Field) (k : Nat) : (c.incWrap pg f k).rails = c.rails := Core.setFld_rails ..
@[simp] theorem Core.incWrap_ports (c : Core) (pg : Nat) (f : Field) (k : Nat) : (c.incWrap pg f k).ports = c.ports := Core.setFld_ports ..
@[simp] theorem Core.incWrap_guards (c : Core) (pg : Nat) (f : Field) (k : Nat) : (c.incWrap pg f k).guards = c.guards := Core.setFld_guards ..
@[simp] theorem Core.incWrap_engs (c : Core) (pg : Nat) (f : Field) (k : Nat) : (c.incWrap pg f k).engs = c.engs := Core.setFld_engs ..
@[simp] theorem Core.incWrap_prot (c : Core) (pg : Nat) (f : Field) (k : Nat) : (c.incWrap pg f k).prot = c.prot := Core.setFld_prot ..
@[simp] theorem Core.incWrap_flt (c : Core) (pg : Nat) (f : Field) (k : Nat) : (c.incWrap pg f k).flt = c.flt := Core.setFld_flt ..
@[simp] theorem Core.incWrap_crb (c : Core) (pg : Nat) (f : Field) (k : Nat) : (c.incWrap pg f k).crb = c.crb := Core.setFld_crb ..
@[simp] theorem Core.incWrap_cmd (c : Core) (pg : Nat) (f : Field) (k : Nat) : (c.incWrap pg f k).cmd = c.cmd := Core.setFld_cmd ..
@[simp] theorem Core.incWrap_lnk (c : Core) (pg : Nat) (f : Field) (k : Nat) : (c.incWrap pg f k).lnk = c.lnk := Core.setFld_lnk ..
@[simp] theorem Core.incWrap_tlm (c : Core) (pg : Nat) (f : Field) (k : Nat) : (c.incWrap pg f k).tlm = c.tlm := Core.setFld_tlm ..
@[simp] theorem Core.incWrap_aux (c : Core) (pg : Nat) (f : Field) (k : Nat) : (c.incWrap pg f k).aux = c.aux := Core.setFld_aux ..
@[simp] theorem Core.incWrap_thm (c : Core) (pg : Nat) (f : Field) (k : Nat) : (c.incWrap pg f k).thm = c.thm := Core.setFld_thm ..
@[simp] theorem Core.incWrap_bkh (c : Core) (pg : Nat) (f : Field) (k : Nat) : (c.incWrap pg f k).bkh = c.bkh := Core.setFld_bkh ..
@[simp] theorem Core.incWrap_nvm (c : Core) (pg : Nat) (f : Field) (k : Nat) : (c.incWrap pg f k).nvm = c.nvm := Core.setFld_nvm ..
@[simp] theorem Core.incWrap_sec (c : Core) (pg : Nat) (f : Field) (k : Nat) : (c.incWrap pg f k).sec = c.sec := Core.setFld_sec ..
@[simp] theorem Core.incWrap_rpr (c : Core) (pg : Nat) (f : Field) (k : Nat) : (c.incWrap pg f k).rpr = c.rpr := Core.setFld_rpr ..
@[simp] theorem Core.incWrap_hst (c : Core) (pg : Nat) (f : Field) (k : Nat) : (c.incWrap pg f k).hst = c.hst := Core.setFld_hst ..

@[simp] theorem Core.setStat_time (c : Core) (pg bit : Nat) (b : Bool) : (c.setStat pg bit b).time = c.time := Core.setReg_time ..
@[simp] theorem Core.setStat_free (c : Core) (pg bit : Nat) (b : Bool) : (c.setStat pg bit b).free = c.free := Core.setReg_free ..
@[simp] theorem Core.setStat_rails (c : Core) (pg bit : Nat) (b : Bool) : (c.setStat pg bit b).rails = c.rails := Core.setReg_rails ..
@[simp] theorem Core.setStat_ports (c : Core) (pg bit : Nat) (b : Bool) : (c.setStat pg bit b).ports = c.ports := Core.setReg_ports ..
@[simp] theorem Core.setStat_guards (c : Core) (pg bit : Nat) (b : Bool) : (c.setStat pg bit b).guards = c.guards := Core.setReg_guards ..
@[simp] theorem Core.setStat_engs (c : Core) (pg bit : Nat) (b : Bool) : (c.setStat pg bit b).engs = c.engs := Core.setReg_engs ..
@[simp] theorem Core.setStat_prot (c : Core) (pg bit : Nat) (b : Bool) : (c.setStat pg bit b).prot = c.prot := Core.setReg_prot ..
@[simp] theorem Core.setStat_flt (c : Core) (pg bit : Nat) (b : Bool) : (c.setStat pg bit b).flt = c.flt := Core.setReg_flt ..
@[simp] theorem Core.setStat_crb (c : Core) (pg bit : Nat) (b : Bool) : (c.setStat pg bit b).crb = c.crb := Core.setReg_crb ..
@[simp] theorem Core.setStat_cmd (c : Core) (pg bit : Nat) (b : Bool) : (c.setStat pg bit b).cmd = c.cmd := Core.setReg_cmd ..
@[simp] theorem Core.setStat_lnk (c : Core) (pg bit : Nat) (b : Bool) : (c.setStat pg bit b).lnk = c.lnk := Core.setReg_lnk ..
@[simp] theorem Core.setStat_tlm (c : Core) (pg bit : Nat) (b : Bool) : (c.setStat pg bit b).tlm = c.tlm := Core.setReg_tlm ..
@[simp] theorem Core.setStat_aux (c : Core) (pg bit : Nat) (b : Bool) : (c.setStat pg bit b).aux = c.aux := Core.setReg_aux ..
@[simp] theorem Core.setStat_thm (c : Core) (pg bit : Nat) (b : Bool) : (c.setStat pg bit b).thm = c.thm := Core.setReg_thm ..
@[simp] theorem Core.setStat_bkh (c : Core) (pg bit : Nat) (b : Bool) : (c.setStat pg bit b).bkh = c.bkh := Core.setReg_bkh ..
@[simp] theorem Core.setStat_nvm (c : Core) (pg bit : Nat) (b : Bool) : (c.setStat pg bit b).nvm = c.nvm := Core.setReg_nvm ..
@[simp] theorem Core.setStat_sec (c : Core) (pg bit : Nat) (b : Bool) : (c.setStat pg bit b).sec = c.sec := Core.setReg_sec ..
@[simp] theorem Core.setStat_rpr (c : Core) (pg bit : Nat) (b : Bool) : (c.setStat pg bit b).rpr = c.rpr := Core.setReg_rpr ..
@[simp] theorem Core.setStat_hst (c : Core) (pg bit : Nat) (b : Bool) : (c.setStat pg bit b).hst = c.hst := Core.setReg_hst ..

@[simp] theorem Core.countEvc_time (c : Core) (pg k : Nat) : (c.countEvc pg k).time = c.time := Core.incSat_time ..
@[simp] theorem Core.countEvc_free (c : Core) (pg k : Nat) : (c.countEvc pg k).free = c.free := Core.incSat_free ..
@[simp] theorem Core.countEvc_rails (c : Core) (pg k : Nat) : (c.countEvc pg k).rails = c.rails := Core.incSat_rails ..
@[simp] theorem Core.countEvc_ports (c : Core) (pg k : Nat) : (c.countEvc pg k).ports = c.ports := Core.incSat_ports ..
@[simp] theorem Core.countEvc_guards (c : Core) (pg k : Nat) : (c.countEvc pg k).guards = c.guards := Core.incSat_guards ..
@[simp] theorem Core.countEvc_engs (c : Core) (pg k : Nat) : (c.countEvc pg k).engs = c.engs := Core.incSat_engs ..
@[simp] theorem Core.countEvc_prot (c : Core) (pg k : Nat) : (c.countEvc pg k).prot = c.prot := Core.incSat_prot ..
@[simp] theorem Core.countEvc_flt (c : Core) (pg k : Nat) : (c.countEvc pg k).flt = c.flt := Core.incSat_flt ..
@[simp] theorem Core.countEvc_crb (c : Core) (pg k : Nat) : (c.countEvc pg k).crb = c.crb := Core.incSat_crb ..
@[simp] theorem Core.countEvc_cmd (c : Core) (pg k : Nat) : (c.countEvc pg k).cmd = c.cmd := Core.incSat_cmd ..
@[simp] theorem Core.countEvc_lnk (c : Core) (pg k : Nat) : (c.countEvc pg k).lnk = c.lnk := Core.incSat_lnk ..
@[simp] theorem Core.countEvc_tlm (c : Core) (pg k : Nat) : (c.countEvc pg k).tlm = c.tlm := Core.incSat_tlm ..
@[simp] theorem Core.countEvc_aux (c : Core) (pg k : Nat) : (c.countEvc pg k).aux = c.aux := Core.incSat_aux ..
@[simp] theorem Core.countEvc_thm (c : Core) (pg k : Nat) : (c.countEvc pg k).thm = c.thm := Core.incSat_thm ..
@[simp] theorem Core.countEvc_bkh (c : Core) (pg k : Nat) : (c.countEvc pg k).bkh = c.bkh := Core.incSat_bkh ..
@[simp] theorem Core.countEvc_nvm (c : Core) (pg k : Nat) : (c.countEvc pg k).nvm = c.nvm := Core.incSat_nvm ..
@[simp] theorem Core.countEvc_sec (c : Core) (pg k : Nat) : (c.countEvc pg k).sec = c.sec := Core.incSat_sec ..
@[simp] theorem Core.countEvc_rpr (c : Core) (pg k : Nat) : (c.countEvc pg k).rpr = c.rpr := Core.incSat_rpr ..
@[simp] theorem Core.countEvc_hst (c : Core) (pg k : Nat) : (c.countEvc pg k).hst = c.hst := Core.incSat_hst ..

@[simp] theorem Core.closeLocks_time (c : Core) (pg : Nat) (w : Word) : (c.closeLocks pg w).time = c.time := Core.setReg_time ..
@[simp] theorem Core.closeLocks_free (c : Core) (pg : Nat) (w : Word) : (c.closeLocks pg w).free = c.free := Core.setReg_free ..
@[simp] theorem Core.closeLocks_rails (c : Core) (pg : Nat) (w : Word) : (c.closeLocks pg w).rails = c.rails := Core.setReg_rails ..
@[simp] theorem Core.closeLocks_ports (c : Core) (pg : Nat) (w : Word) : (c.closeLocks pg w).ports = c.ports := Core.setReg_ports ..
@[simp] theorem Core.closeLocks_guards (c : Core) (pg : Nat) (w : Word) : (c.closeLocks pg w).guards = c.guards := Core.setReg_guards ..
@[simp] theorem Core.closeLocks_engs (c : Core) (pg : Nat) (w : Word) : (c.closeLocks pg w).engs = c.engs := Core.setReg_engs ..
@[simp] theorem Core.closeLocks_prot (c : Core) (pg : Nat) (w : Word) : (c.closeLocks pg w).prot = c.prot := Core.setReg_prot ..
@[simp] theorem Core.closeLocks_flt (c : Core) (pg : Nat) (w : Word) : (c.closeLocks pg w).flt = c.flt := Core.setReg_flt ..
@[simp] theorem Core.closeLocks_crb (c : Core) (pg : Nat) (w : Word) : (c.closeLocks pg w).crb = c.crb := Core.setReg_crb ..
@[simp] theorem Core.closeLocks_cmd (c : Core) (pg : Nat) (w : Word) : (c.closeLocks pg w).cmd = c.cmd := Core.setReg_cmd ..
@[simp] theorem Core.closeLocks_lnk (c : Core) (pg : Nat) (w : Word) : (c.closeLocks pg w).lnk = c.lnk := Core.setReg_lnk ..
@[simp] theorem Core.closeLocks_tlm (c : Core) (pg : Nat) (w : Word) : (c.closeLocks pg w).tlm = c.tlm := Core.setReg_tlm ..
@[simp] theorem Core.closeLocks_aux (c : Core) (pg : Nat) (w : Word) : (c.closeLocks pg w).aux = c.aux := Core.setReg_aux ..
@[simp] theorem Core.closeLocks_thm (c : Core) (pg : Nat) (w : Word) : (c.closeLocks pg w).thm = c.thm := Core.setReg_thm ..
@[simp] theorem Core.closeLocks_bkh (c : Core) (pg : Nat) (w : Word) : (c.closeLocks pg w).bkh = c.bkh := Core.setReg_bkh ..
@[simp] theorem Core.closeLocks_nvm (c : Core) (pg : Nat) (w : Word) : (c.closeLocks pg w).nvm = c.nvm := Core.setReg_nvm ..
@[simp] theorem Core.closeLocks_sec (c : Core) (pg : Nat) (w : Word) : (c.closeLocks pg w).sec = c.sec := Core.setReg_sec ..
@[simp] theorem Core.closeLocks_rpr (c : Core) (pg : Nat) (w : Word) : (c.closeLocks pg w).rpr = c.rpr := Core.setReg_rpr ..
@[simp] theorem Core.closeLocks_hst (c : Core) (pg : Nat) (w : Word) : (c.closeLocks pg w).hst = c.hst := Core.setReg_hst ..

@[simp] theorem Core.writeIen_time (c : Core) (pg : Nat) (w : Word) : (c.writeIen pg w).time = c.time := Core.setReg_time ..
@[simp] theorem Core.writeIen_free (c : Core) (pg : Nat) (w : Word) : (c.writeIen pg w).free = c.free := Core.setReg_free ..
@[simp] theorem Core.writeIen_rails (c : Core) (pg : Nat) (w : Word) : (c.writeIen pg w).rails = c.rails := Core.setReg_rails ..
@[simp] theorem Core.writeIen_ports (c : Core) (pg : Nat) (w : Word) : (c.writeIen pg w).ports = c.ports := Core.setReg_ports ..
@[simp] theorem Core.writeIen_guards (c : Core) (pg : Nat) (w : Word) : (c.writeIen pg w).guards = c.guards := Core.setReg_guards ..
@[simp] theorem Core.writeIen_engs (c : Core) (pg : Nat) (w : Word) : (c.writeIen pg w).engs = c.engs := Core.setReg_engs ..
@[simp] theorem Core.writeIen_prot (c : Core) (pg : Nat) (w : Word) : (c.writeIen pg w).prot = c.prot := Core.setReg_prot ..
@[simp] theorem Core.writeIen_flt (c : Core) (pg : Nat) (w : Word) : (c.writeIen pg w).flt = c.flt := Core.setReg_flt ..
@[simp] theorem Core.writeIen_crb (c : Core) (pg : Nat) (w : Word) : (c.writeIen pg w).crb = c.crb := Core.setReg_crb ..
@[simp] theorem Core.writeIen_cmd (c : Core) (pg : Nat) (w : Word) : (c.writeIen pg w).cmd = c.cmd := Core.setReg_cmd ..
@[simp] theorem Core.writeIen_lnk (c : Core) (pg : Nat) (w : Word) : (c.writeIen pg w).lnk = c.lnk := Core.setReg_lnk ..
@[simp] theorem Core.writeIen_tlm (c : Core) (pg : Nat) (w : Word) : (c.writeIen pg w).tlm = c.tlm := Core.setReg_tlm ..
@[simp] theorem Core.writeIen_aux (c : Core) (pg : Nat) (w : Word) : (c.writeIen pg w).aux = c.aux := Core.setReg_aux ..
@[simp] theorem Core.writeIen_thm (c : Core) (pg : Nat) (w : Word) : (c.writeIen pg w).thm = c.thm := Core.setReg_thm ..
@[simp] theorem Core.writeIen_bkh (c : Core) (pg : Nat) (w : Word) : (c.writeIen pg w).bkh = c.bkh := Core.setReg_bkh ..
@[simp] theorem Core.writeIen_nvm (c : Core) (pg : Nat) (w : Word) : (c.writeIen pg w).nvm = c.nvm := Core.setReg_nvm ..
@[simp] theorem Core.writeIen_sec (c : Core) (pg : Nat) (w : Word) : (c.writeIen pg w).sec = c.sec := Core.setReg_sec ..
@[simp] theorem Core.writeIen_rpr (c : Core) (pg : Nat) (w : Word) : (c.writeIen pg w).rpr = c.rpr := Core.setReg_rpr ..
@[simp] theorem Core.writeIen_hst (c : Core) (pg : Nat) (w : Word) : (c.writeIen pg w).hst = c.hst := Core.setReg_hst ..

@[simp] theorem Core.clearEvc_time (c : Core) (pg k : Nat) : (c.clearEvc pg k).time = c.time := (Core.countEvc_time ..).trans (Core.setFld_time ..)
@[simp] theorem Core.clearEvc_free (c : Core) (pg k : Nat) : (c.clearEvc pg k).free = c.free := (Core.countEvc_free ..).trans (Core.setFld_free ..)
@[simp] theorem Core.clearEvc_rails (c : Core) (pg k : Nat) : (c.clearEvc pg k).rails = c.rails := (Core.countEvc_rails ..).trans (Core.setFld_rails ..)
@[simp] theorem Core.clearEvc_ports (c : Core) (pg k : Nat) : (c.clearEvc pg k).ports = c.ports := (Core.countEvc_ports ..).trans (Core.setFld_ports ..)
@[simp] theorem Core.clearEvc_guards (c : Core) (pg k : Nat) : (c.clearEvc pg k).guards = c.guards := (Core.countEvc_guards ..).trans (Core.setFld_guards ..)
@[simp] theorem Core.clearEvc_engs (c : Core) (pg k : Nat) : (c.clearEvc pg k).engs = c.engs := (Core.countEvc_engs ..).trans (Core.setFld_engs ..)
@[simp] theorem Core.clearEvc_prot (c : Core) (pg k : Nat) : (c.clearEvc pg k).prot = c.prot := (Core.countEvc_prot ..).trans (Core.setFld_prot ..)
@[simp] theorem Core.clearEvc_flt (c : Core) (pg k : Nat) : (c.clearEvc pg k).flt = c.flt := (Core.countEvc_flt ..).trans (Core.setFld_flt ..)
@[simp] theorem Core.clearEvc_crb (c : Core) (pg k : Nat) : (c.clearEvc pg k).crb = c.crb := (Core.countEvc_crb ..).trans (Core.setFld_crb ..)
@[simp] theorem Core.clearEvc_cmd (c : Core) (pg k : Nat) : (c.clearEvc pg k).cmd = c.cmd := (Core.countEvc_cmd ..).trans (Core.setFld_cmd ..)
@[simp] theorem Core.clearEvc_lnk (c : Core) (pg k : Nat) : (c.clearEvc pg k).lnk = c.lnk := (Core.countEvc_lnk ..).trans (Core.setFld_lnk ..)
@[simp] theorem Core.clearEvc_tlm (c : Core) (pg k : Nat) : (c.clearEvc pg k).tlm = c.tlm := (Core.countEvc_tlm ..).trans (Core.setFld_tlm ..)
@[simp] theorem Core.clearEvc_aux (c : Core) (pg k : Nat) : (c.clearEvc pg k).aux = c.aux := (Core.countEvc_aux ..).trans (Core.setFld_aux ..)
@[simp] theorem Core.clearEvc_thm (c : Core) (pg k : Nat) : (c.clearEvc pg k).thm = c.thm := (Core.countEvc_thm ..).trans (Core.setFld_thm ..)
@[simp] theorem Core.clearEvc_bkh (c : Core) (pg k : Nat) : (c.clearEvc pg k).bkh = c.bkh := (Core.countEvc_bkh ..).trans (Core.setFld_bkh ..)
@[simp] theorem Core.clearEvc_nvm (c : Core) (pg k : Nat) : (c.clearEvc pg k).nvm = c.nvm := (Core.countEvc_nvm ..).trans (Core.setFld_nvm ..)
@[simp] theorem Core.clearEvc_sec (c : Core) (pg k : Nat) : (c.clearEvc pg k).sec = c.sec := (Core.countEvc_sec ..).trans (Core.setFld_sec ..)
@[simp] theorem Core.clearEvc_rpr (c : Core) (pg k : Nat) : (c.clearEvc pg k).rpr = c.rpr := (Core.countEvc_rpr ..).trans (Core.setFld_rpr ..)
@[simp] theorem Core.clearEvc_hst (c : Core) (pg k : Nat) : (c.clearEvc pg k).hst = c.hst := (Core.countEvc_hst ..).trans (Core.setFld_hst ..)

@[simp] theorem Core.freeFld_time (c : Core) (pg : Nat) (f : Field) : (c.freeFld pg f).time = c.time := Core.setFld_time ..
@[simp] theorem Core.freeFld_rails (c : Core) (pg : Nat) (f : Field) : (c.freeFld pg f).rails = c.rails := Core.setFld_rails ..
@[simp] theorem Core.freeFld_ports (c : Core) (pg : Nat) (f : Field) : (c.freeFld pg f).ports = c.ports := Core.setFld_ports ..
@[simp] theorem Core.freeFld_guards (c : Core) (pg : Nat) (f : Field) : (c.freeFld pg f).guards = c.guards := Core.setFld_guards ..
@[simp] theorem Core.freeFld_engs (c : Core) (pg : Nat) (f : Field) : (c.freeFld pg f).engs = c.engs := Core.setFld_engs ..
@[simp] theorem Core.freeFld_prot (c : Core) (pg : Nat) (f : Field) : (c.freeFld pg f).prot = c.prot := Core.setFld_prot ..
@[simp] theorem Core.freeFld_flt (c : Core) (pg : Nat) (f : Field) : (c.freeFld pg f).flt = c.flt := Core.setFld_flt ..
@[simp] theorem Core.freeFld_crb (c : Core) (pg : Nat) (f : Field) : (c.freeFld pg f).crb = c.crb := Core.setFld_crb ..
@[simp] theorem Core.freeFld_cmd (c : Core) (pg : Nat) (f : Field) : (c.freeFld pg f).cmd = c.cmd := Core.setFld_cmd ..
@[simp] theorem Core.freeFld_lnk (c : Core) (pg : Nat) (f : Field) : (c.freeFld pg f).lnk = c.lnk := Core.setFld_lnk ..
@[simp] theorem Core.freeFld_tlm (c : Core) (pg : Nat) (f : Field) : (c.freeFld pg f).tlm = c.tlm := Core.setFld_tlm ..
@[simp] theorem Core.freeFld_aux (c : Core) (pg : Nat) (f : Field) : (c.freeFld pg f).aux = c.aux := Core.setFld_aux ..
@[simp] theorem Core.freeFld_thm (c : Core) (pg : Nat) (f : Field) : (c.freeFld pg f).thm = c.thm := Core.setFld_thm ..
@[simp] theorem Core.freeFld_bkh (c : Core) (pg : Nat) (f : Field) : (c.freeFld pg f).bkh = c.bkh := Core.setFld_bkh ..
@[simp] theorem Core.freeFld_nvm (c : Core) (pg : Nat) (f : Field) : (c.freeFld pg f).nvm = c.nvm := Core.setFld_nvm ..
@[simp] theorem Core.freeFld_sec (c : Core) (pg : Nat) (f : Field) : (c.freeFld pg f).sec = c.sec := Core.setFld_sec ..
@[simp] theorem Core.freeFld_rpr (c : Core) (pg : Nat) (f : Field) : (c.freeFld pg f).rpr = c.rpr := Core.setFld_rpr ..
@[simp] theorem Core.freeFld_hst (c : Core) (pg : Nat) (f : Field) : (c.freeFld pg f).hst = c.hst := Core.setFld_hst ..

@[simp] theorem Core.modRail_regs (c : Core) (n : Nat) (f : Rail → Rail) : (c.modRail n f).regs = c.regs := rfl
@[simp] theorem Core.modRail_time (c : Core) (n : Nat) (f : Rail → Rail) : (c.modRail n f).time = c.time := rfl
@[simp] theorem Core.modRail_free (c : Core) (n : Nat) (f : Rail → Rail) : (c.modRail n f).free = c.free := rfl
@[simp] theorem Core.modRail_ports (c : Core) (n : Nat) (f : Rail → Rail) : (c.modRail n f).ports = c.ports := rfl
@[simp] theorem Core.modRail_guards (c : Core) (n : Nat) (f : Rail → Rail) : (c.modRail n f).guards = c.guards := rfl
@[simp] theorem Core.modRail_engs (c : Core) (n : Nat) (f : Rail → Rail) : (c.modRail n f).engs = c.engs := rfl
@[simp] theorem Core.modRail_prot (c : Core) (n : Nat) (f : Rail → Rail) : (c.modRail n f).prot = c.prot := rfl
@[simp] theorem Core.modRail_flt (c : Core) (n : Nat) (f : Rail → Rail) : (c.modRail n f).flt = c.flt := rfl
@[simp] theorem Core.modRail_crb (c : Core) (n : Nat) (f : Rail → Rail) : (c.modRail n f).crb = c.crb := rfl
@[simp] theorem Core.modRail_cmd (c : Core) (n : Nat) (f : Rail → Rail) : (c.modRail n f).cmd = c.cmd := rfl
@[simp] theorem Core.modRail_lnk (c : Core) (n : Nat) (f : Rail → Rail) : (c.modRail n f).lnk = c.lnk := rfl
@[simp] theorem Core.modRail_tlm (c : Core) (n : Nat) (f : Rail → Rail) : (c.modRail n f).tlm = c.tlm := rfl
@[simp] theorem Core.modRail_aux (c : Core) (n : Nat) (f : Rail → Rail) : (c.modRail n f).aux = c.aux := rfl
@[simp] theorem Core.modRail_thm (c : Core) (n : Nat) (f : Rail → Rail) : (c.modRail n f).thm = c.thm := rfl
@[simp] theorem Core.modRail_bkh (c : Core) (n : Nat) (f : Rail → Rail) : (c.modRail n f).bkh = c.bkh := rfl
@[simp] theorem Core.modRail_nvm (c : Core) (n : Nat) (f : Rail → Rail) : (c.modRail n f).nvm = c.nvm := rfl
@[simp] theorem Core.modRail_sec (c : Core) (n : Nat) (f : Rail → Rail) : (c.modRail n f).sec = c.sec := rfl
@[simp] theorem Core.modRail_rpr (c : Core) (n : Nat) (f : Rail → Rail) : (c.modRail n f).rpr = c.rpr := rfl
@[simp] theorem Core.modRail_hst (c : Core) (n : Nat) (f : Rail → Rail) : (c.modRail n f).hst = c.hst := rfl

@[simp] theorem Core.modPort_regs (c : Core) (k : Nat) (f : Port → Port) : (c.modPort k f).regs = c.regs := rfl
@[simp] theorem Core.modPort_time (c : Core) (k : Nat) (f : Port → Port) : (c.modPort k f).time = c.time := rfl
@[simp] theorem Core.modPort_free (c : Core) (k : Nat) (f : Port → Port) : (c.modPort k f).free = c.free := rfl
@[simp] theorem Core.modPort_rails (c : Core) (k : Nat) (f : Port → Port) : (c.modPort k f).rails = c.rails := rfl
@[simp] theorem Core.modPort_guards (c : Core) (k : Nat) (f : Port → Port) : (c.modPort k f).guards = c.guards := rfl
@[simp] theorem Core.modPort_engs (c : Core) (k : Nat) (f : Port → Port) : (c.modPort k f).engs = c.engs := rfl
@[simp] theorem Core.modPort_prot (c : Core) (k : Nat) (f : Port → Port) : (c.modPort k f).prot = c.prot := rfl
@[simp] theorem Core.modPort_flt (c : Core) (k : Nat) (f : Port → Port) : (c.modPort k f).flt = c.flt := rfl
@[simp] theorem Core.modPort_crb (c : Core) (k : Nat) (f : Port → Port) : (c.modPort k f).crb = c.crb := rfl
@[simp] theorem Core.modPort_cmd (c : Core) (k : Nat) (f : Port → Port) : (c.modPort k f).cmd = c.cmd := rfl
@[simp] theorem Core.modPort_lnk (c : Core) (k : Nat) (f : Port → Port) : (c.modPort k f).lnk = c.lnk := rfl
@[simp] theorem Core.modPort_tlm (c : Core) (k : Nat) (f : Port → Port) : (c.modPort k f).tlm = c.tlm := rfl
@[simp] theorem Core.modPort_aux (c : Core) (k : Nat) (f : Port → Port) : (c.modPort k f).aux = c.aux := rfl
@[simp] theorem Core.modPort_thm (c : Core) (k : Nat) (f : Port → Port) : (c.modPort k f).thm = c.thm := rfl
@[simp] theorem Core.modPort_bkh (c : Core) (k : Nat) (f : Port → Port) : (c.modPort k f).bkh = c.bkh := rfl
@[simp] theorem Core.modPort_nvm (c : Core) (k : Nat) (f : Port → Port) : (c.modPort k f).nvm = c.nvm := rfl
@[simp] theorem Core.modPort_sec (c : Core) (k : Nat) (f : Port → Port) : (c.modPort k f).sec = c.sec := rfl
@[simp] theorem Core.modPort_rpr (c : Core) (k : Nat) (f : Port → Port) : (c.modPort k f).rpr = c.rpr := rfl
@[simp] theorem Core.modPort_hst (c : Core) (k : Nat) (f : Port → Port) : (c.modPort k f).hst = c.hst := rfl

@[simp] theorem Core.modGuard_regs (c : Core) (k : Nat) (f : PortGuard → PortGuard) : (c.modGuard k f).regs = c.regs := rfl
@[simp] theorem Core.modGuard_time (c : Core) (k : Nat) (f : PortGuard → PortGuard) : (c.modGuard k f).time = c.time := rfl
@[simp] theorem Core.modGuard_free (c : Core) (k : Nat) (f : PortGuard → PortGuard) : (c.modGuard k f).free = c.free := rfl
@[simp] theorem Core.modGuard_rails (c : Core) (k : Nat) (f : PortGuard → PortGuard) : (c.modGuard k f).rails = c.rails := rfl
@[simp] theorem Core.modGuard_ports (c : Core) (k : Nat) (f : PortGuard → PortGuard) : (c.modGuard k f).ports = c.ports := rfl
@[simp] theorem Core.modGuard_engs (c : Core) (k : Nat) (f : PortGuard → PortGuard) : (c.modGuard k f).engs = c.engs := rfl
@[simp] theorem Core.modGuard_prot (c : Core) (k : Nat) (f : PortGuard → PortGuard) : (c.modGuard k f).prot = c.prot := rfl
@[simp] theorem Core.modGuard_flt (c : Core) (k : Nat) (f : PortGuard → PortGuard) : (c.modGuard k f).flt = c.flt := rfl
@[simp] theorem Core.modGuard_crb (c : Core) (k : Nat) (f : PortGuard → PortGuard) : (c.modGuard k f).crb = c.crb := rfl
@[simp] theorem Core.modGuard_cmd (c : Core) (k : Nat) (f : PortGuard → PortGuard) : (c.modGuard k f).cmd = c.cmd := rfl
@[simp] theorem Core.modGuard_lnk (c : Core) (k : Nat) (f : PortGuard → PortGuard) : (c.modGuard k f).lnk = c.lnk := rfl
@[simp] theorem Core.modGuard_tlm (c : Core) (k : Nat) (f : PortGuard → PortGuard) : (c.modGuard k f).tlm = c.tlm := rfl
@[simp] theorem Core.modGuard_aux (c : Core) (k : Nat) (f : PortGuard → PortGuard) : (c.modGuard k f).aux = c.aux := rfl
@[simp] theorem Core.modGuard_thm (c : Core) (k : Nat) (f : PortGuard → PortGuard) : (c.modGuard k f).thm = c.thm := rfl
@[simp] theorem Core.modGuard_bkh (c : Core) (k : Nat) (f : PortGuard → PortGuard) : (c.modGuard k f).bkh = c.bkh := rfl
@[simp] theorem Core.modGuard_nvm (c : Core) (k : Nat) (f : PortGuard → PortGuard) : (c.modGuard k f).nvm = c.nvm := rfl
@[simp] theorem Core.modGuard_sec (c : Core) (k : Nat) (f : PortGuard → PortGuard) : (c.modGuard k f).sec = c.sec := rfl
@[simp] theorem Core.modGuard_rpr (c : Core) (k : Nat) (f : PortGuard → PortGuard) : (c.modGuard k f).rpr = c.rpr := rfl
@[simp] theorem Core.modGuard_hst (c : Core) (k : Nat) (f : PortGuard → PortGuard) : (c.modGuard k f).hst = c.hst := rfl

@[simp] theorem Core.modEng_regs (c : Core) (j : Nat) (f : Eng → Eng) : (c.modEng j f).regs = c.regs := rfl
@[simp] theorem Core.modEng_time (c : Core) (j : Nat) (f : Eng → Eng) : (c.modEng j f).time = c.time := rfl
@[simp] theorem Core.modEng_free (c : Core) (j : Nat) (f : Eng → Eng) : (c.modEng j f).free = c.free := rfl
@[simp] theorem Core.modEng_rails (c : Core) (j : Nat) (f : Eng → Eng) : (c.modEng j f).rails = c.rails := rfl
@[simp] theorem Core.modEng_ports (c : Core) (j : Nat) (f : Eng → Eng) : (c.modEng j f).ports = c.ports := rfl
@[simp] theorem Core.modEng_guards (c : Core) (j : Nat) (f : Eng → Eng) : (c.modEng j f).guards = c.guards := rfl
@[simp] theorem Core.modEng_prot (c : Core) (j : Nat) (f : Eng → Eng) : (c.modEng j f).prot = c.prot := rfl
@[simp] theorem Core.modEng_flt (c : Core) (j : Nat) (f : Eng → Eng) : (c.modEng j f).flt = c.flt := rfl
@[simp] theorem Core.modEng_crb (c : Core) (j : Nat) (f : Eng → Eng) : (c.modEng j f).crb = c.crb := rfl
@[simp] theorem Core.modEng_cmd (c : Core) (j : Nat) (f : Eng → Eng) : (c.modEng j f).cmd = c.cmd := rfl
@[simp] theorem Core.modEng_lnk (c : Core) (j : Nat) (f : Eng → Eng) : (c.modEng j f).lnk = c.lnk := rfl
@[simp] theorem Core.modEng_tlm (c : Core) (j : Nat) (f : Eng → Eng) : (c.modEng j f).tlm = c.tlm := rfl
@[simp] theorem Core.modEng_aux (c : Core) (j : Nat) (f : Eng → Eng) : (c.modEng j f).aux = c.aux := rfl
@[simp] theorem Core.modEng_thm (c : Core) (j : Nat) (f : Eng → Eng) : (c.modEng j f).thm = c.thm := rfl
@[simp] theorem Core.modEng_bkh (c : Core) (j : Nat) (f : Eng → Eng) : (c.modEng j f).bkh = c.bkh := rfl
@[simp] theorem Core.modEng_nvm (c : Core) (j : Nat) (f : Eng → Eng) : (c.modEng j f).nvm = c.nvm := rfl
@[simp] theorem Core.modEng_sec (c : Core) (j : Nat) (f : Eng → Eng) : (c.modEng j f).sec = c.sec := rfl
@[simp] theorem Core.modEng_rpr (c : Core) (j : Nat) (f : Eng → Eng) : (c.modEng j f).rpr = c.rpr := rfl
@[simp] theorem Core.modEng_hst (c : Core) (j : Nat) (f : Eng → Eng) : (c.modEng j f).hst = c.hst := rfl

@[simp] theorem Core.modXch_regs (c : Core) (n : Nat) (f : AuxCh → AuxCh) : (c.modXch n f).regs = c.regs := rfl
@[simp] theorem Core.modXch_time (c : Core) (n : Nat) (f : AuxCh → AuxCh) : (c.modXch n f).time = c.time := rfl
@[simp] theorem Core.modXch_free (c : Core) (n : Nat) (f : AuxCh → AuxCh) : (c.modXch n f).free = c.free := rfl
@[simp] theorem Core.modXch_rails (c : Core) (n : Nat) (f : AuxCh → AuxCh) : (c.modXch n f).rails = c.rails := rfl
@[simp] theorem Core.modXch_ports (c : Core) (n : Nat) (f : AuxCh → AuxCh) : (c.modXch n f).ports = c.ports := rfl
@[simp] theorem Core.modXch_guards (c : Core) (n : Nat) (f : AuxCh → AuxCh) : (c.modXch n f).guards = c.guards := rfl
@[simp] theorem Core.modXch_engs (c : Core) (n : Nat) (f : AuxCh → AuxCh) : (c.modXch n f).engs = c.engs := rfl
@[simp] theorem Core.modXch_prot (c : Core) (n : Nat) (f : AuxCh → AuxCh) : (c.modXch n f).prot = c.prot := rfl
@[simp] theorem Core.modXch_flt (c : Core) (n : Nat) (f : AuxCh → AuxCh) : (c.modXch n f).flt = c.flt := rfl
@[simp] theorem Core.modXch_crb (c : Core) (n : Nat) (f : AuxCh → AuxCh) : (c.modXch n f).crb = c.crb := rfl
@[simp] theorem Core.modXch_cmd (c : Core) (n : Nat) (f : AuxCh → AuxCh) : (c.modXch n f).cmd = c.cmd := rfl
@[simp] theorem Core.modXch_lnk (c : Core) (n : Nat) (f : AuxCh → AuxCh) : (c.modXch n f).lnk = c.lnk := rfl
@[simp] theorem Core.modXch_tlm (c : Core) (n : Nat) (f : AuxCh → AuxCh) : (c.modXch n f).tlm = c.tlm := rfl
@[simp] theorem Core.modXch_thm (c : Core) (n : Nat) (f : AuxCh → AuxCh) : (c.modXch n f).thm = c.thm := rfl
@[simp] theorem Core.modXch_bkh (c : Core) (n : Nat) (f : AuxCh → AuxCh) : (c.modXch n f).bkh = c.bkh := rfl
@[simp] theorem Core.modXch_nvm (c : Core) (n : Nat) (f : AuxCh → AuxCh) : (c.modXch n f).nvm = c.nvm := rfl
@[simp] theorem Core.modXch_sec (c : Core) (n : Nat) (f : AuxCh → AuxCh) : (c.modXch n f).sec = c.sec := rfl
@[simp] theorem Core.modXch_rpr (c : Core) (n : Nat) (f : AuxCh → AuxCh) : (c.modXch n f).rpr = c.rpr := rfl
@[simp] theorem Core.modXch_hst (c : Core) (n : Nat) (f : AuxCh → AuxCh) : (c.modXch n f).hst = c.hst := rfl

@[simp] theorem Core.modCtx_regs (c : Core) (i : Nat) (f : Ctx → Ctx) : (c.modCtx i f).regs = c.regs := rfl
@[simp] theorem Core.modCtx_time (c : Core) (i : Nat) (f : Ctx → Ctx) : (c.modCtx i f).time = c.time := rfl
@[simp] theorem Core.modCtx_free (c : Core) (i : Nat) (f : Ctx → Ctx) : (c.modCtx i f).free = c.free := rfl
@[simp] theorem Core.modCtx_rails (c : Core) (i : Nat) (f : Ctx → Ctx) : (c.modCtx i f).rails = c.rails := rfl
@[simp] theorem Core.modCtx_ports (c : Core) (i : Nat) (f : Ctx → Ctx) : (c.modCtx i f).ports = c.ports := rfl
@[simp] theorem Core.modCtx_guards (c : Core) (i : Nat) (f : Ctx → Ctx) : (c.modCtx i f).guards = c.guards := rfl
@[simp] theorem Core.modCtx_engs (c : Core) (i : Nat) (f : Ctx → Ctx) : (c.modCtx i f).engs = c.engs := rfl
@[simp] theorem Core.modCtx_prot (c : Core) (i : Nat) (f : Ctx → Ctx) : (c.modCtx i f).prot = c.prot := rfl
@[simp] theorem Core.modCtx_flt (c : Core) (i : Nat) (f : Ctx → Ctx) : (c.modCtx i f).flt = c.flt := rfl
@[simp] theorem Core.modCtx_crb (c : Core) (i : Nat) (f : Ctx → Ctx) : (c.modCtx i f).crb = c.crb := rfl
@[simp] theorem Core.modCtx_lnk (c : Core) (i : Nat) (f : Ctx → Ctx) : (c.modCtx i f).lnk = c.lnk := rfl
@[simp] theorem Core.modCtx_tlm (c : Core) (i : Nat) (f : Ctx → Ctx) : (c.modCtx i f).tlm = c.tlm := rfl
@[simp] theorem Core.modCtx_aux (c : Core) (i : Nat) (f : Ctx → Ctx) : (c.modCtx i f).aux = c.aux := rfl
@[simp] theorem Core.modCtx_thm (c : Core) (i : Nat) (f : Ctx → Ctx) : (c.modCtx i f).thm = c.thm := rfl
@[simp] theorem Core.modCtx_bkh (c : Core) (i : Nat) (f : Ctx → Ctx) : (c.modCtx i f).bkh = c.bkh := rfl
@[simp] theorem Core.modCtx_nvm (c : Core) (i : Nat) (f : Ctx → Ctx) : (c.modCtx i f).nvm = c.nvm := rfl
@[simp] theorem Core.modCtx_sec (c : Core) (i : Nat) (f : Ctx → Ctx) : (c.modCtx i f).sec = c.sec := rfl
@[simp] theorem Core.modCtx_rpr (c : Core) (i : Nat) (f : Ctx → Ctx) : (c.modCtx i f).rpr = c.rpr := rfl
@[simp] theorem Core.modCtx_hst (c : Core) (i : Nat) (f : Ctx → Ctx) : (c.modCtx i f).hst = c.hst := rfl

@[simp] theorem Core.modItem_regs (c : Core) (t : Nat) (f : Item → Item) : (c.modItem t f).regs = c.regs := rfl
@[simp] theorem Core.modItem_time (c : Core) (t : Nat) (f : Item → Item) : (c.modItem t f).time = c.time := rfl
@[simp] theorem Core.modItem_free (c : Core) (t : Nat) (f : Item → Item) : (c.modItem t f).free = c.free := rfl
@[simp] theorem Core.modItem_rails (c : Core) (t : Nat) (f : Item → Item) : (c.modItem t f).rails = c.rails := rfl
@[simp] theorem Core.modItem_ports (c : Core) (t : Nat) (f : Item → Item) : (c.modItem t f).ports = c.ports := rfl
@[simp] theorem Core.modItem_guards (c : Core) (t : Nat) (f : Item → Item) : (c.modItem t f).guards = c.guards := rfl
@[simp] theorem Core.modItem_engs (c : Core) (t : Nat) (f : Item → Item) : (c.modItem t f).engs = c.engs := rfl
@[simp] theorem Core.modItem_prot (c : Core) (t : Nat) (f : Item → Item) : (c.modItem t f).prot = c.prot := rfl
@[simp] theorem Core.modItem_flt (c : Core) (t : Nat) (f : Item → Item) : (c.modItem t f).flt = c.flt := rfl
@[simp] theorem Core.modItem_crb (c : Core) (t : Nat) (f : Item → Item) : (c.modItem t f).crb = c.crb := rfl
@[simp] theorem Core.modItem_lnk (c : Core) (t : Nat) (f : Item → Item) : (c.modItem t f).lnk = c.lnk := rfl
@[simp] theorem Core.modItem_tlm (c : Core) (t : Nat) (f : Item → Item) : (c.modItem t f).tlm = c.tlm := rfl
@[simp] theorem Core.modItem_aux (c : Core) (t : Nat) (f : Item → Item) : (c.modItem t f).aux = c.aux := rfl
@[simp] theorem Core.modItem_thm (c : Core) (t : Nat) (f : Item → Item) : (c.modItem t f).thm = c.thm := rfl
@[simp] theorem Core.modItem_bkh (c : Core) (t : Nat) (f : Item → Item) : (c.modItem t f).bkh = c.bkh := rfl
@[simp] theorem Core.modItem_nvm (c : Core) (t : Nat) (f : Item → Item) : (c.modItem t f).nvm = c.nvm := rfl
@[simp] theorem Core.modItem_sec (c : Core) (t : Nat) (f : Item → Item) : (c.modItem t f).sec = c.sec := rfl
@[simp] theorem Core.modItem_rpr (c : Core) (t : Nat) (f : Item → Item) : (c.modItem t f).rpr = c.rpr := rfl
@[simp] theorem Core.modItem_hst (c : Core) (t : Nat) (f : Item → Item) : (c.modItem t f).hst = c.hst := rfl

@[simp] theorem Core.modBus_regs (c : Core) (b : Nat) (f : Bus → Bus) : (c.modBus b f).regs = c.regs := rfl
@[simp] theorem Core.modBus_time (c : Core) (b : Nat) (f : Bus → Bus) : (c.modBus b f).time = c.time := rfl
@[simp] theorem Core.modBus_free (c : Core) (b : Nat) (f : Bus → Bus) : (c.modBus b f).free = c.free := rfl
@[simp] theorem Core.modBus_rails (c : Core) (b : Nat) (f : Bus → Bus) : (c.modBus b f).rails = c.rails := rfl
@[simp] theorem Core.modBus_ports (c : Core) (b : Nat) (f : Bus → Bus) : (c.modBus b f).ports = c.ports := rfl
@[simp] theorem Core.modBus_guards (c : Core) (b : Nat) (f : Bus → Bus) : (c.modBus b f).guards = c.guards := rfl
@[simp] theorem Core.modBus_engs (c : Core) (b : Nat) (f : Bus → Bus) : (c.modBus b f).engs = c.engs := rfl
@[simp] theorem Core.modBus_prot (c : Core) (b : Nat) (f : Bus → Bus) : (c.modBus b f).prot = c.prot := rfl
@[simp] theorem Core.modBus_flt (c : Core) (b : Nat) (f : Bus → Bus) : (c.modBus b f).flt = c.flt := rfl
@[simp] theorem Core.modBus_crb (c : Core) (b : Nat) (f : Bus → Bus) : (c.modBus b f).crb = c.crb := rfl
@[simp] theorem Core.modBus_lnk (c : Core) (b : Nat) (f : Bus → Bus) : (c.modBus b f).lnk = c.lnk := rfl
@[simp] theorem Core.modBus_tlm (c : Core) (b : Nat) (f : Bus → Bus) : (c.modBus b f).tlm = c.tlm := rfl
@[simp] theorem Core.modBus_aux (c : Core) (b : Nat) (f : Bus → Bus) : (c.modBus b f).aux = c.aux := rfl
@[simp] theorem Core.modBus_thm (c : Core) (b : Nat) (f : Bus → Bus) : (c.modBus b f).thm = c.thm := rfl
@[simp] theorem Core.modBus_bkh (c : Core) (b : Nat) (f : Bus → Bus) : (c.modBus b f).bkh = c.bkh := rfl
@[simp] theorem Core.modBus_nvm (c : Core) (b : Nat) (f : Bus → Bus) : (c.modBus b f).nvm = c.nvm := rfl
@[simp] theorem Core.modBus_sec (c : Core) (b : Nat) (f : Bus → Bus) : (c.modBus b f).sec = c.sec := rfl
@[simp] theorem Core.modBus_rpr (c : Core) (b : Nat) (f : Bus → Bus) : (c.modBus b f).rpr = c.rpr := rfl
@[simp] theorem Core.modBus_hst (c : Core) (b : Nat) (f : Bus → Bus) : (c.modBus b f).hst = c.hst := rfl

@[simp] theorem Core.setLive_regs (c : Core) (src addr : Nat) (b : Bool) : (c.setLive src addr b).regs = c.regs := rfl
@[simp] theorem Core.setLive_time (c : Core) (src addr : Nat) (b : Bool) : (c.setLive src addr b).time = c.time := rfl
@[simp] theorem Core.setLive_free (c : Core) (src addr : Nat) (b : Bool) : (c.setLive src addr b).free = c.free := rfl
@[simp] theorem Core.setLive_rails (c : Core) (src addr : Nat) (b : Bool) : (c.setLive src addr b).rails = c.rails := rfl
@[simp] theorem Core.setLive_ports (c : Core) (src addr : Nat) (b : Bool) : (c.setLive src addr b).ports = c.ports := rfl
@[simp] theorem Core.setLive_guards (c : Core) (src addr : Nat) (b : Bool) : (c.setLive src addr b).guards = c.guards := rfl
@[simp] theorem Core.setLive_engs (c : Core) (src addr : Nat) (b : Bool) : (c.setLive src addr b).engs = c.engs := rfl
@[simp] theorem Core.setLive_prot (c : Core) (src addr : Nat) (b : Bool) : (c.setLive src addr b).prot = c.prot := rfl
@[simp] theorem Core.setLive_crb (c : Core) (src addr : Nat) (b : Bool) : (c.setLive src addr b).crb = c.crb := rfl
@[simp] theorem Core.setLive_cmd (c : Core) (src addr : Nat) (b : Bool) : (c.setLive src addr b).cmd = c.cmd := rfl
@[simp] theorem Core.setLive_lnk (c : Core) (src addr : Nat) (b : Bool) : (c.setLive src addr b).lnk = c.lnk := rfl
@[simp] theorem Core.setLive_tlm (c : Core) (src addr : Nat) (b : Bool) : (c.setLive src addr b).tlm = c.tlm := rfl
@[simp] theorem Core.setLive_aux (c : Core) (src addr : Nat) (b : Bool) : (c.setLive src addr b).aux = c.aux := rfl
@[simp] theorem Core.setLive_thm (c : Core) (src addr : Nat) (b : Bool) : (c.setLive src addr b).thm = c.thm := rfl
@[simp] theorem Core.setLive_bkh (c : Core) (src addr : Nat) (b : Bool) : (c.setLive src addr b).bkh = c.bkh := rfl
@[simp] theorem Core.setLive_nvm (c : Core) (src addr : Nat) (b : Bool) : (c.setLive src addr b).nvm = c.nvm := rfl
@[simp] theorem Core.setLive_sec (c : Core) (src addr : Nat) (b : Bool) : (c.setLive src addr b).sec = c.sec := rfl
@[simp] theorem Core.setLive_rpr (c : Core) (src addr : Nat) (b : Bool) : (c.setLive src addr b).rpr = c.rpr := rfl
@[simp] theorem Core.setLive_hst (c : Core) (src addr : Nat) (b : Bool) : (c.setLive src addr b).hst = c.hst := rfl

@[simp] theorem Core.setPwm_regs (c : Core) (k : Nat) (p : Pwm) : (c.setPwm k p).regs = c.regs := Core.modPort_regs ..
@[simp] theorem Core.setPwm_time (c : Core) (k : Nat) (p : Pwm) : (c.setPwm k p).time = c.time := Core.modPort_time ..
@[simp] theorem Core.setPwm_free (c : Core) (k : Nat) (p : Pwm) : (c.setPwm k p).free = c.free := Core.modPort_free ..
@[simp] theorem Core.setPwm_rails (c : Core) (k : Nat) (p : Pwm) : (c.setPwm k p).rails = c.rails := Core.modPort_rails ..
@[simp] theorem Core.setPwm_guards (c : Core) (k : Nat) (p : Pwm) : (c.setPwm k p).guards = c.guards := Core.modPort_guards ..
@[simp] theorem Core.setPwm_engs (c : Core) (k : Nat) (p : Pwm) : (c.setPwm k p).engs = c.engs := Core.modPort_engs ..
@[simp] theorem Core.setPwm_prot (c : Core) (k : Nat) (p : Pwm) : (c.setPwm k p).prot = c.prot := Core.modPort_prot ..
@[simp] theorem Core.setPwm_flt (c : Core) (k : Nat) (p : Pwm) : (c.setPwm k p).flt = c.flt := Core.modPort_flt ..
@[simp] theorem Core.setPwm_crb (c : Core) (k : Nat) (p : Pwm) : (c.setPwm k p).crb = c.crb := Core.modPort_crb ..
@[simp] theorem Core.setPwm_cmd (c : Core) (k : Nat) (p : Pwm) : (c.setPwm k p).cmd = c.cmd := Core.modPort_cmd ..
@[simp] theorem Core.setPwm_lnk (c : Core) (k : Nat) (p : Pwm) : (c.setPwm k p).lnk = c.lnk := Core.modPort_lnk ..
@[simp] theorem Core.setPwm_tlm (c : Core) (k : Nat) (p : Pwm) : (c.setPwm k p).tlm = c.tlm := Core.modPort_tlm ..
@[simp] theorem Core.setPwm_aux (c : Core) (k : Nat) (p : Pwm) : (c.setPwm k p).aux = c.aux := Core.modPort_aux ..
@[simp] theorem Core.setPwm_thm (c : Core) (k : Nat) (p : Pwm) : (c.setPwm k p).thm = c.thm := Core.modPort_thm ..
@[simp] theorem Core.setPwm_bkh (c : Core) (k : Nat) (p : Pwm) : (c.setPwm k p).bkh = c.bkh := Core.modPort_bkh ..
@[simp] theorem Core.setPwm_nvm (c : Core) (k : Nat) (p : Pwm) : (c.setPwm k p).nvm = c.nvm := Core.modPort_nvm ..
@[simp] theorem Core.setPwm_sec (c : Core) (k : Nat) (p : Pwm) : (c.setPwm k p).sec = c.sec := Core.modPort_sec ..
@[simp] theorem Core.setPwm_rpr (c : Core) (k : Nat) (p : Pwm) : (c.setPwm k p).rpr = c.rpr := Core.modPort_rpr ..
@[simp] theorem Core.setPwm_hst (c : Core) (k : Nat) (p : Pwm) : (c.setPwm k p).hst = c.hst := Core.modPort_hst ..

@[simp] theorem Core.smbAnswer_regs (c : Core) (l : List Byte) (ack : Bool) : (c.smbAnswer l ack).regs = c.regs := rfl
@[simp] theorem Core.smbAnswer_time (c : Core) (l : List Byte) (ack : Bool) : (c.smbAnswer l ack).time = c.time := rfl
@[simp] theorem Core.smbAnswer_free (c : Core) (l : List Byte) (ack : Bool) : (c.smbAnswer l ack).free = c.free := rfl
@[simp] theorem Core.smbAnswer_rails (c : Core) (l : List Byte) (ack : Bool) : (c.smbAnswer l ack).rails = c.rails := rfl
@[simp] theorem Core.smbAnswer_ports (c : Core) (l : List Byte) (ack : Bool) : (c.smbAnswer l ack).ports = c.ports := rfl
@[simp] theorem Core.smbAnswer_guards (c : Core) (l : List Byte) (ack : Bool) : (c.smbAnswer l ack).guards = c.guards := rfl
@[simp] theorem Core.smbAnswer_engs (c : Core) (l : List Byte) (ack : Bool) : (c.smbAnswer l ack).engs = c.engs := rfl
@[simp] theorem Core.smbAnswer_prot (c : Core) (l : List Byte) (ack : Bool) : (c.smbAnswer l ack).prot = c.prot := rfl
@[simp] theorem Core.smbAnswer_flt (c : Core) (l : List Byte) (ack : Bool) : (c.smbAnswer l ack).flt = c.flt := rfl
@[simp] theorem Core.smbAnswer_crb (c : Core) (l : List Byte) (ack : Bool) : (c.smbAnswer l ack).crb = c.crb := rfl
@[simp] theorem Core.smbAnswer_cmd (c : Core) (l : List Byte) (ack : Bool) : (c.smbAnswer l ack).cmd = c.cmd := rfl
@[simp] theorem Core.smbAnswer_lnk (c : Core) (l : List Byte) (ack : Bool) : (c.smbAnswer l ack).lnk = c.lnk := rfl
@[simp] theorem Core.smbAnswer_tlm (c : Core) (l : List Byte) (ack : Bool) : (c.smbAnswer l ack).tlm = c.tlm := rfl
@[simp] theorem Core.smbAnswer_aux (c : Core) (l : List Byte) (ack : Bool) : (c.smbAnswer l ack).aux = c.aux := rfl
@[simp] theorem Core.smbAnswer_thm (c : Core) (l : List Byte) (ack : Bool) : (c.smbAnswer l ack).thm = c.thm := rfl
@[simp] theorem Core.smbAnswer_bkh (c : Core) (l : List Byte) (ack : Bool) : (c.smbAnswer l ack).bkh = c.bkh := rfl
@[simp] theorem Core.smbAnswer_nvm (c : Core) (l : List Byte) (ack : Bool) : (c.smbAnswer l ack).nvm = c.nvm := rfl
@[simp] theorem Core.smbAnswer_sec (c : Core) (l : List Byte) (ack : Bool) : (c.smbAnswer l ack).sec = c.sec := rfl
@[simp] theorem Core.smbAnswer_rpr (c : Core) (l : List Byte) (ack : Bool) : (c.smbAnswer l ack).rpr = c.rpr := rfl

@[simp] theorem Core.modSlot_regs (c : Core) (n dev port : Nat) (f : Slot → Slot) : (c.modSlot n dev port f).regs = c.regs := Core.modRail_regs ..
@[simp] theorem Core.modSlot_time (c : Core) (n dev port : Nat) (f : Slot → Slot) : (c.modSlot n dev port f).time = c.time := Core.modRail_time ..
@[simp] theorem Core.modSlot_free (c : Core) (n dev port : Nat) (f : Slot → Slot) : (c.modSlot n dev port f).free = c.free := Core.modRail_free ..
@[simp] theorem Core.modSlot_ports (c : Core) (n dev port : Nat) (f : Slot → Slot) : (c.modSlot n dev port f).ports = c.ports := Core.modRail_ports ..
@[simp] theorem Core.modSlot_guards (c : Core) (n dev port : Nat) (f : Slot → Slot) : (c.modSlot n dev port f).guards = c.guards := Core.modRail_guards ..
@[simp] theorem Core.modSlot_engs (c : Core) (n dev port : Nat) (f : Slot → Slot) : (c.modSlot n dev port f).engs = c.engs := Core.modRail_engs ..
@[simp] theorem Core.modSlot_prot (c : Core) (n dev port : Nat) (f : Slot → Slot) : (c.modSlot n dev port f).prot = c.prot := Core.modRail_prot ..
@[simp] theorem Core.modSlot_flt (c : Core) (n dev port : Nat) (f : Slot → Slot) : (c.modSlot n dev port f).flt = c.flt := Core.modRail_flt ..
@[simp] theorem Core.modSlot_crb (c : Core) (n dev port : Nat) (f : Slot → Slot) : (c.modSlot n dev port f).crb = c.crb := Core.modRail_crb ..
@[simp] theorem Core.modSlot_cmd (c : Core) (n dev port : Nat) (f : Slot → Slot) : (c.modSlot n dev port f).cmd = c.cmd := Core.modRail_cmd ..
@[simp] theorem Core.modSlot_lnk (c : Core) (n dev port : Nat) (f : Slot → Slot) : (c.modSlot n dev port f).lnk = c.lnk := Core.modRail_lnk ..
@[simp] theorem Core.modSlot_tlm (c : Core) (n dev port : Nat) (f : Slot → Slot) : (c.modSlot n dev port f).tlm = c.tlm := Core.modRail_tlm ..
@[simp] theorem Core.modSlot_aux (c : Core) (n dev port : Nat) (f : Slot → Slot) : (c.modSlot n dev port f).aux = c.aux := Core.modRail_aux ..
@[simp] theorem Core.modSlot_thm (c : Core) (n dev port : Nat) (f : Slot → Slot) : (c.modSlot n dev port f).thm = c.thm := Core.modRail_thm ..
@[simp] theorem Core.modSlot_bkh (c : Core) (n dev port : Nat) (f : Slot → Slot) : (c.modSlot n dev port f).bkh = c.bkh := Core.modRail_bkh ..
@[simp] theorem Core.modSlot_nvm (c : Core) (n dev port : Nat) (f : Slot → Slot) : (c.modSlot n dev port f).nvm = c.nvm := Core.modRail_nvm ..
@[simp] theorem Core.modSlot_sec (c : Core) (n dev port : Nat) (f : Slot → Slot) : (c.modSlot n dev port f).sec = c.sec := Core.modRail_sec ..
@[simp] theorem Core.modSlot_rpr (c : Core) (n dev port : Nat) (f : Slot → Slot) : (c.modSlot n dev port f).rpr = c.rpr := Core.modRail_rpr ..
@[simp] theorem Core.modSlot_hst (c : Core) (n dev port : Nat) (f : Slot → Slot) : (c.modSlot n dev port f).hst = c.hst := Core.modRail_hst ..

@[simp] theorem State.onCore_pw (s : State) (g : Core → Core) : (s.onCore g).pw = s.pw := rfl
@[simp] theorem State.onCore_st (s : State) (g : Core → Core) : (s.onCore g).st = s.st := rfl
@[simp] theorem State.onCore_pending (s : State) (g : Core → Core) : (s.onCore g).pending = s.pending := rfl
@[simp] theorem State.onCore_core (s : State) (g : Core → Core) : (s.onCore g).core = g s.core := rfl

/-! ## Changes of the register file alone -/

/-- The second core differs from the first in its register file only. -/
def Core.RegsOnly (c d : Core) : Prop := d = { c with regs := d.regs }

theorem Core.RegsOnly.refl (c : Core) : c.RegsOnly c := rfl

theorem Core.RegsOnly.trans {a b c : Core} (h : a.RegsOnly b) (h' : b.RegsOnly c) : a.RegsOnly c := by
  unfold Core.RegsOnly at *; rw [h', h]

theorem Core.setReg_regsOnly (c : Core) (pg off : Nat) (w : Word) : c.RegsOnly (c.setReg pg off w) := rfl

theorem Core.setFld_regsOnly (c : Core) (pg : Nat) (f : Field) (v : Nat) : c.RegsOnly (c.setFld pg f v) :=
  Core.setReg_regsOnly ..

theorem Core.foldl_regsOnly {α : Type} (l : List α) (g : Core → α → Core) (hg : ∀ (c : Core) (x : α), c.RegsOnly (g c x)) (c : Core) :
    c.RegsOnly (l.foldl g c) := by
  induction l generalizing c with
  | nil => exact .refl c
  | cons x t ih => exact (hg c x).trans (ih _)

theorem Core.putFields_regsOnly (c : Core) (pg : Nat) (k : PageKind) (off : Nat) (w : Word) : c.RegsOnly (c.putFields pg k off w) := by
  refine Core.foldl_regsOnly _ _ (fun c f => ?_) c
  dsimp only
  split
  · exact Core.setFld_regsOnly ..
  · split
    · exact .refl c
    · exact Core.setFld_regsOnly ..
  · exact .refl c

theorem Core.resetPage_regsOnly (c : Core) (pg : Nat) (keep : Field → Bool) : c.RegsOnly (c.resetPage pg keep) := by
  unfold Core.resetPage
  split
  · exact .refl c
  · refine .trans ?_ (.trans (Core.setReg_regsOnly ..) (.trans (Core.setReg_regsOnly ..) (Core.setFld_regsOnly ..)))
    refine Core.foldl_regsOnly _ _ (fun c f => ?_) c
    split
    · exact .refl c
    · exact Core.setFld_regsOnly ..

@[simp] theorem Core.resetPage_time (c : Core) (pg : Nat) (keep : Field → Bool) : (c.resetPage pg keep).time = c.time := by
  rw [Core.resetPage_regsOnly c pg keep]
@[simp] theorem Core.putFields_time (c : Core) (pg : Nat) (k : PageKind) (off : Nat) (w : Word) : (c.putFields pg k off w).time = c.time := by
  rw [Core.putFields_regsOnly c pg k off w]
@[simp] theorem Core.resetPage_free (c : Core) (pg : Nat) (keep : Field → Bool) : (c.resetPage pg keep).free = c.free := by
  rw [Core.resetPage_regsOnly c pg keep]
@[simp] theorem Core.putFields_free (c : Core) (pg : Nat) (k : PageKind) (off : Nat) (w : Word) : (c.putFields pg k off w).free = c.free := by
  rw [Core.putFields_regsOnly c pg k off w]
@[simp] theorem Core.resetPage_rails (c : Core) (pg : Nat) (keep : Field → Bool) : (c.resetPage pg keep).rails = c.rails := by
  rw [Core.resetPage_regsOnly c pg keep]
@[simp] theorem Core.putFields_rails (c : Core) (pg : Nat) (k : PageKind) (off : Nat) (w : Word) : (c.putFields pg k off w).rails = c.rails := by
  rw [Core.putFields_regsOnly c pg k off w]
@[simp] theorem Core.resetPage_ports (c : Core) (pg : Nat) (keep : Field → Bool) : (c.resetPage pg keep).ports = c.ports := by
  rw [Core.resetPage_regsOnly c pg keep]
@[simp] theorem Core.putFields_ports (c : Core) (pg : Nat) (k : PageKind) (off : Nat) (w : Word) : (c.putFields pg k off w).ports = c.ports := by
  rw [Core.putFields_regsOnly c pg k off w]
@[simp] theorem Core.resetPage_guards (c : Core) (pg : Nat) (keep : Field → Bool) : (c.resetPage pg keep).guards = c.guards := by
  rw [Core.resetPage_regsOnly c pg keep]
@[simp] theorem Core.putFields_guards (c : Core) (pg : Nat) (k : PageKind) (off : Nat) (w : Word) : (c.putFields pg k off w).guards = c.guards := by
  rw [Core.putFields_regsOnly c pg k off w]
@[simp] theorem Core.resetPage_engs (c : Core) (pg : Nat) (keep : Field → Bool) : (c.resetPage pg keep).engs = c.engs := by
  rw [Core.resetPage_regsOnly c pg keep]
@[simp] theorem Core.putFields_engs (c : Core) (pg : Nat) (k : PageKind) (off : Nat) (w : Word) : (c.putFields pg k off w).engs = c.engs := by
  rw [Core.putFields_regsOnly c pg k off w]
@[simp] theorem Core.resetPage_prot (c : Core) (pg : Nat) (keep : Field → Bool) : (c.resetPage pg keep).prot = c.prot := by
  rw [Core.resetPage_regsOnly c pg keep]
@[simp] theorem Core.putFields_prot (c : Core) (pg : Nat) (k : PageKind) (off : Nat) (w : Word) : (c.putFields pg k off w).prot = c.prot := by
  rw [Core.putFields_regsOnly c pg k off w]
@[simp] theorem Core.resetPage_flt (c : Core) (pg : Nat) (keep : Field → Bool) : (c.resetPage pg keep).flt = c.flt := by
  rw [Core.resetPage_regsOnly c pg keep]
@[simp] theorem Core.putFields_flt (c : Core) (pg : Nat) (k : PageKind) (off : Nat) (w : Word) : (c.putFields pg k off w).flt = c.flt := by
  rw [Core.putFields_regsOnly c pg k off w]
@[simp] theorem Core.resetPage_crb (c : Core) (pg : Nat) (keep : Field → Bool) : (c.resetPage pg keep).crb = c.crb := by
  rw [Core.resetPage_regsOnly c pg keep]
@[simp] theorem Core.putFields_crb (c : Core) (pg : Nat) (k : PageKind) (off : Nat) (w : Word) : (c.putFields pg k off w).crb = c.crb := by
  rw [Core.putFields_regsOnly c pg k off w]
@[simp] theorem Core.resetPage_cmd (c : Core) (pg : Nat) (keep : Field → Bool) : (c.resetPage pg keep).cmd = c.cmd := by
  rw [Core.resetPage_regsOnly c pg keep]
@[simp] theorem Core.putFields_cmd (c : Core) (pg : Nat) (k : PageKind) (off : Nat) (w : Word) : (c.putFields pg k off w).cmd = c.cmd := by
  rw [Core.putFields_regsOnly c pg k off w]
@[simp] theorem Core.resetPage_lnk (c : Core) (pg : Nat) (keep : Field → Bool) : (c.resetPage pg keep).lnk = c.lnk := by
  rw [Core.resetPage_regsOnly c pg keep]
@[simp] theorem Core.putFields_lnk (c : Core) (pg : Nat) (k : PageKind) (off : Nat) (w : Word) : (c.putFields pg k off w).lnk = c.lnk := by
  rw [Core.putFields_regsOnly c pg k off w]
@[simp] theorem Core.resetPage_tlm (c : Core) (pg : Nat) (keep : Field → Bool) : (c.resetPage pg keep).tlm = c.tlm := by
  rw [Core.resetPage_regsOnly c pg keep]
@[simp] theorem Core.putFields_tlm (c : Core) (pg : Nat) (k : PageKind) (off : Nat) (w : Word) : (c.putFields pg k off w).tlm = c.tlm := by
  rw [Core.putFields_regsOnly c pg k off w]
@[simp] theorem Core.resetPage_aux (c : Core) (pg : Nat) (keep : Field → Bool) : (c.resetPage pg keep).aux = c.aux := by
  rw [Core.resetPage_regsOnly c pg keep]
@[simp] theorem Core.putFields_aux (c : Core) (pg : Nat) (k : PageKind) (off : Nat) (w : Word) : (c.putFields pg k off w).aux = c.aux := by
  rw [Core.putFields_regsOnly c pg k off w]
@[simp] theorem Core.resetPage_thm (c : Core) (pg : Nat) (keep : Field → Bool) : (c.resetPage pg keep).thm = c.thm := by
  rw [Core.resetPage_regsOnly c pg keep]
@[simp] theorem Core.putFields_thm (c : Core) (pg : Nat) (k : PageKind) (off : Nat) (w : Word) : (c.putFields pg k off w).thm = c.thm := by
  rw [Core.putFields_regsOnly c pg k off w]
@[simp] theorem Core.resetPage_bkh (c : Core) (pg : Nat) (keep : Field → Bool) : (c.resetPage pg keep).bkh = c.bkh := by
  rw [Core.resetPage_regsOnly c pg keep]
@[simp] theorem Core.putFields_bkh (c : Core) (pg : Nat) (k : PageKind) (off : Nat) (w : Word) : (c.putFields pg k off w).bkh = c.bkh := by
  rw [Core.putFields_regsOnly c pg k off w]
@[simp] theorem Core.resetPage_nvm (c : Core) (pg : Nat) (keep : Field → Bool) : (c.resetPage pg keep).nvm = c.nvm := by
  rw [Core.resetPage_regsOnly c pg keep]
@[simp] theorem Core.putFields_nvm (c : Core) (pg : Nat) (k : PageKind) (off : Nat) (w : Word) : (c.putFields pg k off w).nvm = c.nvm := by
  rw [Core.putFields_regsOnly c pg k off w]
@[simp] theorem Core.resetPage_sec (c : Core) (pg : Nat) (keep : Field → Bool) : (c.resetPage pg keep).sec = c.sec := by
  rw [Core.resetPage_regsOnly c pg keep]
@[simp] theorem Core.putFields_sec (c : Core) (pg : Nat) (k : PageKind) (off : Nat) (w : Word) : (c.putFields pg k off w).sec = c.sec := by
  rw [Core.putFields_regsOnly c pg k off w]
@[simp] theorem Core.resetPage_rpr (c : Core) (pg : Nat) (keep : Field → Bool) : (c.resetPage pg keep).rpr = c.rpr := by
  rw [Core.resetPage_regsOnly c pg keep]
@[simp] theorem Core.putFields_rpr (c : Core) (pg : Nat) (k : PageKind) (off : Nat) (w : Word) : (c.putFields pg k off w).rpr = c.rpr := by
  rw [Core.putFields_regsOnly c pg k off w]
@[simp] theorem Core.resetPage_hst (c : Core) (pg : Nat) (keep : Field → Bool) : (c.resetPage pg keep).hst = c.hst := by
  rw [Core.resetPage_regsOnly c pg keep]
@[simp] theorem Core.putFields_hst (c : Core) (pg : Nat) (k : PageKind) (off : Nat) (w : Word) : (c.putFields pg k off w).hst = c.hst := by
  rw [Core.putFields_regsOnly c pg k off w]
/-! ## Gates -/

theorem State.serviceRuns_booted {s : State} (h : s.serviceRuns = true) : s.booted = true := by
  simp only [State.serviceRuns, Bool.and_eq_true] at h; exact h.1

theorem State.serviceRuns_depth {s : State} (h : s.serviceRuns = true) : s.core.rpr.depth = 0 := by
  simp only [State.serviceRuns, Bool.and_eq_true, decide_eq_true_eq] at h; exact h.2

theorem State.booted_alive {s : State} (h : s.booted = true) : s.alive = true := by
  simp only [State.booted, State.alive, Bool.and_eq_true, decide_eq_true_eq] at h ⊢
  exact ⟨h.1, by omega⟩

theorem State.serviceRuns_alive {s : State} (h : s.serviceRuns = true) : s.alive = true :=
  State.booted_alive (State.serviceRuns_booted h)

theorem State.serviceRuns_control {s : State} (h : s.serviceRuns = true) : s.controlRuns = true := by
  simp [State.controlRuns, State.serviceRuns_alive h, State.serviceRuns_depth h]

theorem State.control_alive {s : State} (h : s.controlRuns = true) : s.alive = true := by
  simp only [State.controlRuns, Bool.and_eq_true] at h; exact h.1

theorem State.serviceRuns_regOpen {s : State} (h : s.serviceRuns = true) : s.regOpen = true := by
  simp [State.regOpen, State.serviceRuns_alive h, State.serviceRuns_booted h, State.serviceRuns_depth h]

theorem State.serviceRuns_tapOpen {s : State} (h : s.serviceRuns = true) : s.tapOpen = true := by
  simp [State.tapOpen, State.serviceRuns_alive h, State.serviceRuns_booted h]

/-! ## What a gate lets through -/

theorem State.control_eq {s : State} (h : s.controlRuns = true) (f : Core → Core) : s.control f = s.after (f s.core) := by
  simp [State.control, h, State.after, State.onCore]

theorem State.protect_eq {s : State} (h : s.alive = true) (f : Core → Core) : s.protect f = s.after (f s.core) := by
  simp [State.protect, h, State.after, State.onCore]

theorem State.service_eq {s : State} (h : s.serviceRuns = true) (f : Core → Core) : s.service f = s.after (f s.core) := by
  simp [State.service, h, State.after, State.onCore]

theorem State.ringIn_eq {s : State} (h : s.serviceRuns = true) (f : Core → Core) : s.ringIn f = s.after (f s.core) := by
  simp [State.ringIn, State.serviceRuns_booted h, State.serviceRuns_depth h, State.after, State.onCore]

theorem State.hostWrite_eq {s : State} (h : s.serviceRuns = true) (p : HostPort) {pg : Nat} (off : Nat) (w : Word)
    (hk : (kindOf pg).isSome = true) : s.hostWrite p pg off w = (s.writeNow pg off w).rest := by
  have hk' : (kindOf pg).isNone = false := by cases hx : kindOf pg <;> simp_all
  have hd : (s.onCore fun c => c.dropHeld pg off) = s := by simp [State.onCore, Core.dropHeld, State.serviceRuns_depth h]
  rw [State.hostWrite, hd]
  simp [State.serviceRuns_booted h, State.serviceRuns_depth h, hk']

theorem State.regWrite_eq {s : State} (h : s.serviceRuns = true) {pg : Nat} (off : Nat) (w : Word) (hk : (kindOf pg).isSome = true) :
    s.regWrite pg off w = ((s.writeNow pg off w).rest).frameEnd := by
  simp [State.regWrite, State.serviceRuns_regOpen h, State.hostWrite_eq h .spi off w hk]

theorem State.writeNow_eq (s : State) {pg off : Nat} (w : Word) (h : pg ≠ pgRPR ∨ off ≠ 0x48) :
    s.writeNow pg off w = s.writeReg pg off w := by
  have : ¬(pg = pgRPR ∧ off = 0x48) := by rcases h with h | h <;> simp [h]
  simp [State.writeNow, this]

/-- A register write whose effect is a change of the core. -/
theorem State.regWrite_core {s : State} (h : s.serviceRuns = true) {pg off : Nat} {w : Word} {c : Core}
    (hk : (kindOf pg).isSome = true) (hp : pg ≠ pgRPR ∨ off ≠ 0x48) (hw : s.writeReg pg off w = { s with core := c }) :
    s.regWrite pg off w = s.wrote c := by
  rw [State.regWrite_eq h off w hk, State.writeNow_eq s w hp, hw]; rfl

/-- An event changes registers and the release of ALERT_N alone. -/
theorem Core.raise_only (c : Core) (pg bit : Nat) : c.raise pg bit = { c with regs := (c.raise pg bit).regs, hst := (c.raise pg bit).hst } := by
  unfold Core.raise
  split
  · rfl
  · unfold Core.realert
    split <;> rfl
@[simp] theorem Core.raise_time (c : Core) (pg bit : Nat) : (c.raise pg bit).time = c.time := by rw [Core.raise_only]
@[simp] theorem Core.raise_free (c : Core) (pg bit : Nat) : (c.raise pg bit).free = c.free := by rw [Core.raise_only]
@[simp] theorem Core.raise_rails (c : Core) (pg bit : Nat) : (c.raise pg bit).rails = c.rails := by rw [Core.raise_only]
@[simp] theorem Core.raise_ports (c : Core) (pg bit : Nat) : (c.raise pg bit).ports = c.ports := by rw [Core.raise_only]
@[simp] theorem Core.raise_guards (c : Core) (pg bit : Nat) : (c.raise pg bit).guards = c.guards := by rw [Core.raise_only]
@[simp] theorem Core.raise_engs (c : Core) (pg bit : Nat) : (c.raise pg bit).engs = c.engs := by rw [Core.raise_only]
@[simp] theorem Core.raise_prot (c : Core) (pg bit : Nat) : (c.raise pg bit).prot = c.prot := by rw [Core.raise_only]
@[simp] theorem Core.raise_flt (c : Core) (pg bit : Nat) : (c.raise pg bit).flt = c.flt := by rw [Core.raise_only]
@[simp] theorem Core.raise_crb (c : Core) (pg bit : Nat) : (c.raise pg bit).crb = c.crb := by rw [Core.raise_only]
@[simp] theorem Core.raise_cmd (c : Core) (pg bit : Nat) : (c.raise pg bit).cmd = c.cmd := by rw [Core.raise_only]
@[simp] theorem Core.raise_lnk (c : Core) (pg bit : Nat) : (c.raise pg bit).lnk = c.lnk := by rw [Core.raise_only]
@[simp] theorem Core.raise_tlm (c : Core) (pg bit : Nat) : (c.raise pg bit).tlm = c.tlm := by rw [Core.raise_only]
@[simp] theorem Core.raise_aux (c : Core) (pg bit : Nat) : (c.raise pg bit).aux = c.aux := by rw [Core.raise_only]
@[simp] theorem Core.raise_thm (c : Core) (pg bit : Nat) : (c.raise pg bit).thm = c.thm := by rw [Core.raise_only]
@[simp] theorem Core.raise_bkh (c : Core) (pg bit : Nat) : (c.raise pg bit).bkh = c.bkh := by rw [Core.raise_only]
@[simp] theorem Core.raise_nvm (c : Core) (pg bit : Nat) : (c.raise pg bit).nvm = c.nvm := by rw [Core.raise_only]
@[simp] theorem Core.raise_sec (c : Core) (pg bit : Nat) : (c.raise pg bit).sec = c.sec := by rw [Core.raise_only]
@[simp] theorem Core.raise_rpr (c : Core) (pg bit : Nat) : (c.raise pg bit).rpr = c.rpr := by rw [Core.raise_only]

end Sys2Proof.Machine
end

