-- ==== Sys2Proof/Laws/RegMap.lean ====
section
/-! SUPPORT. The register map and register fields: bits read back after a write, fields of a page that do not overlap, the
value a field holds after a write of itself, of another field or of another register, and what the head's operations do. -/
namespace Sys2Proof.Machine

/-! ## Bits of a word -/

theorem testBit_setBits (w : Word) (lo len v i : Nat) (h : lo + len ≤ 32) :
    (setBits w lo len v).toNat.testBit i = if lo ≤ i ∧ i < lo + len then v.testBit (i - lo) else w.toNat.testBit i := by
  have e : w.toNat % 2 ^ lo + v % 2 ^ len * 2 ^ lo + w.toNat / 2 ^ (lo + len) * 2 ^ (lo + len) =
      2 ^ lo * (2 ^ len * (w.toNat / 2 ^ (lo + len)) + v % 2 ^ len) + w.toNat % 2 ^ lo := by
    rw [Nat.pow_add]; ring
  have hm : w.toNat % 2 ^ lo < 2 ^ lo := Nat.mod_lt _ (by positivity)
  have hv : v % 2 ^ len < 2 ^ len := Nat.mod_lt _ (by positivity)
  have hb : ∀ i, 32 ≤ i → w.toNat.testBit i = false := fun i hi =>
    Nat.testBit_lt_two_pow (lt_of_lt_of_le w.isLt (Nat.pow_le_pow_right (by omega) hi))
  simp only [setBits, BitVec.toNat_ofNat, Nat.testBit_mod_two_pow]
  rw [e, Nat.testBit_two_pow_mul_add _ hm, Nat.testBit_two_pow_mul_add _ hv]
  by_cases h1 : i < lo
  · have : ¬(lo ≤ i ∧ i < lo + len) := by omega
    simp [h1, this, Nat.testBit_mod_two_pow, show i < 32 by omega]
  · by_cases h2 : i - lo < len
    · have : lo ≤ i ∧ i < lo + len := by omega
      simp [h1, h2, this, Nat.testBit_mod_two_pow, show i < 32 by omega]
    · have : ¬(lo ≤ i ∧ i < lo + len) := by omega
      simp only [h1, h2, this, if_false, Nat.testBit_div_two_pow]
      rw [show i - lo - len + (lo + len) = i by omega]
      by_cases h3 : i < 32
      · simp [h3]
      · simp [h3, hb i (by omega)]

theorem testBit_getBits (w : Word) (lo len i : Nat) :
    (getBits w lo len).testBit i = (decide (i < len) && w.toNat.testBit (i + lo)) := by
  simp [getBits, Nat.testBit_mod_two_pow, Nat.testBit_div_two_pow]

theorem getBits_setBits_same (w : Word) (lo len v : Nat) (h : lo + len ≤ 32) : getBits (setBits w lo len v) lo len = v % 2 ^ len := by
  apply Nat.eq_of_testBit_eq; intro i
  rw [testBit_getBits, testBit_setBits _ _ _ _ _ h, Nat.testBit_mod_two_pow]
  by_cases hi : i < len
  · rw [if_pos ⟨by omega, by omega⟩]; simp [hi]
  · simp [hi]

theorem getBits_setBits_other (w : Word) (lo len v lo' len' : Nat) (h : lo + len ≤ 32) (hd : lo + len ≤ lo' ∨ lo' + len' ≤ lo) :
    getBits (setBits w lo len v) lo' len' = getBits w lo' len' := by
  apply Nat.eq_of_testBit_eq; intro i
  rw [testBit_getBits, testBit_getBits, testBit_setBits _ _ _ _ _ h]
  by_cases hi : i < len'
  · have : ¬(lo ≤ i + lo' ∧ i + lo' < lo + len) := by omega
    simp [this]
  · simp [hi]

theorem bitOf_eq (w : Word) (i : Nat) : bitOf w i = w.toNat.testBit i := rfl

theorem bitOf_putBit_same (w : Word) (i : Nat) (b : Bool) (h : i < 32) : bitOf (putBit w i b) i = b := by
  rw [bitOf_eq, putBit, testBit_setBits _ _ _ _ _ (by omega)]
  cases b <;> simp

theorem bitOf_putBit_other (w : Word) (i j : Nat) (b : Bool) (h : i < 32) (hj : j ≠ i) : bitOf (putBit w i b) j = bitOf w j := by
  rw [bitOf_eq, bitOf_eq, putBit, testBit_setBits _ _ _ _ _ (by omega)]
  exact if_neg (by omega)

/-- Two words with the same bits are the same word. -/
theorem word_ext {a b : Word} (h : ∀ i < 32, bitOf a i = bitOf b i) : a = b := by
  apply BitVec.eq_of_getLsbD_eq; intro i hi; exact h i hi

/-! ## Registers -/

theorem regKey_inj {p o p' o' : Nat} (h : o < 256) (h' : o' < 256) : regKey p o = regKey p' o' ↔ p = p' ∧ o = o' := by
  simp only [regKey]; omega

@[simp] theorem Core.reg_setReg_same (c : Core) (pg off : Nat) (w : Word) : (c.setReg pg off w).reg pg off = w :=
  Sparse.get_put_same ..

theorem Core.reg_setReg_other (c : Core) {pg off p o : Nat} (w : Word) (ho : off < 256) (ho' : o < 256) (h : p ≠ pg ∨ o ≠ off) :
    (c.setReg pg off w).reg p o = c.reg p o := by
  apply Sparse.get_put_other
  rw [Ne, regKey_inj ho' ho]; tauto

/-! ## The fields of the map -/

/-- Two fields share no bit of a register. -/
def Field.apart (f g : Field) : Bool := f.off ≠ g.off || f.lo + f.len ≤ g.lo || g.lo + g.len ≤ f.lo

/-- A field lies within a register of a page. -/
def Field.placed (f : Field) : Bool := f.off % 4 = 0 && f.off < 256 && f.lo + f.len ≤ 32 && 0 < f.len && f.rst < 2 ^ f.len

/-- No two fields of a list share a bit. -/
def allApart : List Field → Bool
  | [] => true
  | f :: t => t.all f.apart && allApart t

theorem fields_placed_all : ∀ k : PageKind, (fieldsOf k).all Field.placed = true := by intro k; cases k <;> decide +kernel

theorem fields_apart_all : ∀ k : PageKind, allApart (fieldsOf k) = true := by intro k; cases k <;> decide +kernel

theorem fields_reset_all : ∀ k : PageKind, (fieldsOf k).all (fun f => getBits (resetWordOf k f.off) f.lo f.len = f.rst) = true := by
  intro k; cases k <;> decide +kernel

theorem field_placed {k : PageKind} {f : Field} (h : f ∈ fieldsOf k) :
    f.off % 4 = 0 ∧ f.off < 256 ∧ f.lo + f.len ≤ 32 ∧ 0 < f.len ∧ f.rst < 2 ^ f.len := by
  have := List.all_eq_true.mp (fields_placed_all k) f h
  simpa [Field.placed, and_assoc] using this

theorem apart_symm {f g : Field} (h : f.apart g = true) : g.apart f = true := by
  simp only [Field.apart, Bool.or_eq_true, decide_eq_true_eq] at h ⊢
  rcases h with (h | h) | h
  · exact .inl (.inl (Ne.symm h))
  · exact .inr h
  · exact .inl (.inr h)

theorem allApart_pairs : ∀ {l : List Field}, allApart l = true → l.Pairwise (fun f g => f.apart g = true)
  | [], _ => .nil
  | f :: t, h => by
    simp only [allApart, Bool.and_eq_true, List.all_eq_true] at h
    exact .cons h.1 (allApart_pairs h.2)

theorem kindOf_le {pg : Nat} {k : PageKind} (h : kindOf pg = some k) : pg ≤ 0x48 := by
  by_contra hc
  unfold kindOf at h
  split at h
  all_goals first | omega | skip
  rw [if_neg (by omega), if_neg (by omega), if_neg (by omega)] at h
  split at h
  · cases h
  rw [if_neg (by omega), if_neg (by omega), if_neg (by omega)] at h
  cases h

theorem resetWord_key {pg off : Nat} {k : PageKind} (h : kindOf pg = some k) (ho : off < 256) :
    resetWord (regKey pg off) = resetWordOf k off := by
  have h1 : regKey pg off / 256 = pg := by simp only [regKey]; omega
  have h2 : regKey pg off % 256 = off := by simp only [regKey]; omega
  simp only [resetWord, h1, h2, h]

/-- A register file that lists nothing reads every field at its reset value. -/
theorem fld_reset {c : Core} (hc : c.regs = []) {pg : Nat} {k : PageKind} (h : kindOf pg = some k) {f : Field} (hf : f ∈ fieldsOf k) :
    c.fld pg f = f.rst := by
  have := List.all_eq_true.mp (fields_reset_all k) f hf
  simp only [Core.fld, Core.reg, hc, Sparse.get, resetWord_key h (field_placed hf).2.1]
  simpa using this

/-! ## Fields after a write -/

theorem Core.fld_setFld_same (c : Core) (pg : Nat) (f : Field) (v : Nat) (h : f.lo + f.len ≤ 32) :
    (c.setFld pg f v).fld pg f = v % 2 ^ f.len := by
  simp only [Core.fld, Core.setFld, Core.reg_setReg_same]; exact getBits_setBits_same _ _ _ _ h

theorem Core.fld_setFld_other (c : Core) {pg p : Nat} {f g : Field} (v : Nat) (h : f.lo + f.len ≤ 32) (hf : f.off < 256)
    (hg : g.off < 256) (hd : p ≠ pg ∨ f.apart g = true) : (c.setFld pg f v).fld p g = c.fld p g := by
  by_cases he : p = pg ∧ g.off = f.off
  · obtain ⟨rfl, he⟩ := he
    have hd : f.apart g = true := by tauto
    simp only [Core.fld, Core.setFld, he, Core.reg_setReg_same]
    simp only [Field.apart, he, ne_eq, not_true, decide_false, Bool.false_or, Bool.or_eq_true, decide_eq_true_eq] at hd
    exact getBits_setBits_other _ _ _ _ _ _ h hd
  · simp only [Core.fld, Core.setFld]
    rw [Core.reg_setReg_other _ _ hf hg (by tauto)]

theorem Core.fld_setReg_other (c : Core) {pg off p : Nat} {g : Field} (w : Word) (ho : off < 256) (hg : g.off < 256)
    (hd : p ≠ pg ∨ g.off ≠ off) : (c.setReg pg off w).fld p g = c.fld p g := by
  simp only [Core.fld]; rw [Core.reg_setReg_other _ _ ho hg hd]

/-! ## What register writes and page resets leave -/

theorem fields_apart {k : PageKind} {f g : Field} (hf : f ∈ fieldsOf k) (hg : g ∈ fieldsOf k) (h : f ≠ g) : f.apart g = true := by
  have key : ∀ l : List Field, allApart l = true → f ∈ l → g ∈ l → f.apart g = true := by
    intro l; induction l with
    | nil => intro _ h; cases h
    | cons x t ih =>
      intro hl h1 h2
      simp only [allApart, Bool.and_eq_true, List.all_eq_true] at hl
      rcases List.mem_cons.mp h1 with e | h1'
      · rw [e]; exact hl.1 _ ((List.mem_cons.mp h2).resolve_left (fun e' => h (e.trans e'.symm)))
      · rcases List.mem_cons.mp h2 with e | h2'
        · rw [e]; exact apart_symm (hl.1 _ h1')
        · exact ih hl.2 h1' h2'
  exact key _ (fields_apart_all k) hf hg

theorem fields_off_all : ∀ k : PageKind, (fieldsOf k).all (fun f => f.off = 4 || 0x20 ≤ f.off) = true := by
  intro k; cases k <;> decide +kernel

theorem field_off {k : PageKind} {f : Field} (h : f ∈ fieldsOf k) : f.off = 4 ∨ 0x20 ≤ f.off := by
  have := List.all_eq_true.mp (fields_off_all k) f h
  simpa using this

/-- A fold that changes at most the field it is at: each field ends as its own change leaves it. -/
theorem fold_fields {pg : Nat} {k : PageKind} (g : Core → Field → Core) (val : Core → Field → Nat)
    (hsame : ∀ c, ∀ f ∈ fieldsOf k, (g c f).fld pg f = val c f)
    (hother : ∀ c, ∀ f ∈ fieldsOf k, ∀ x ∈ fieldsOf k, x ≠ f → (g c f).fld pg x = c.fld pg x)
    (hlock : ∀ c, ∀ f ∈ fieldsOf k, ∀ o < 32, o ≠ 4 → (g c f).reg pg o = c.reg pg o)
    (hval : ∀ c d : Core, ∀ f ∈ fieldsOf k, c.reg pg 0x18 = d.reg pg 0x18 → c.fld pg f = d.fld pg f → val c f = val d f)
    (l : List Field) (hl : ∀ f ∈ l, f ∈ fieldsOf k) (hn : allApart l = true) (c : Core) :
    (∀ o < 32, o ≠ 4 → (l.foldl g c).reg pg o = c.reg pg o) ∧
    (∀ f ∈ fieldsOf k, (l.foldl g c).fld pg f = if f ∈ l then val c f else c.fld pg f) := by
  induction l generalizing c with
  | nil => exact ⟨fun _ _ _ => rfl, fun _ _ => by simp⟩
  | cons x t ih =>
    have hx : x ∈ fieldsOf k := hl x (by simp)
    simp only [allApart, Bool.and_eq_true, List.all_eq_true] at hn
    have := ih (fun f hf => hl f (by simp [hf])) hn.2 (g c x)
    refine ⟨fun o ho h4 => (this.1 o ho h4).trans (hlock c x hx o ho h4), fun f hf => ?_⟩
    rw [List.foldl_cons, this.2 f hf]
    have hnot : x ∉ t := by
      intro h
      have h1 := hn.1 x h
      have := (field_placed hx).2.2.2.1
      simp only [Field.apart, ne_eq, not_true, decide_false, Bool.false_or, Bool.or_eq_true, decide_eq_true_eq] at h1
      omega
    by_cases hfx : f = x
    · subst hfx; simp [hnot, hsame c f hx]
    · have e := hother c x hx f hf hfx
      by_cases hft : f ∈ t
      · rw [if_pos hft, if_pos (by simp [hft])]
        exact hval _ _ f hf (hlock c x hx 0x18 (by decide) (by decide)) e
      · rw [if_neg hft, if_neg (by simp [hft, hfx]), e]

theorem allApart_filter {p : Field → Bool} : ∀ {l : List Field}, allApart l = true → allApart (l.filter p) = true
  | [], _ => rfl
  | f :: t, h => by
    simp only [allApart, Bool.and_eq_true, List.all_eq_true] at h
    simp only [List.filter]
    split
    · simp only [allApart, Bool.and_eq_true, List.all_eq_true]
      exact ⟨fun g hg => h.1 g (List.mem_of_mem_filter hg), allApart_filter h.2⟩
    · exact allApart_filter h.2

theorem Core.reg_setFld_other (c : Core) {pg p o : Nat} {f : Field} (v : Nat) (hf : f.off < 256) (ho : o < 256) (h : p ≠ pg ∨ o ≠ f.off) :
    (c.setFld pg f v).reg p o = c.reg p o := Core.reg_setReg_other _ _ hf ho h

/-- What a field holds after a write of its register (R7, R10, R29). -/
theorem Core.fld_putFields (c : Core) {pg : Nat} {k : PageKind} (off : Nat) (w : Word) {f : Field}
    (hf : f ∈ fieldsOf k) : (c.putFields pg k off w).fld pg f =
      (if f.off ≠ off then c.fld pg f
       else match f.acc with
        | .rw => storedAs k f (getBits w f.lo f.len) % 2 ^ f.len
        | .rwl g => if bitOf (c.reg pg 0x18) g then c.fld pg f else storedAs k f (getBits w f.lo f.len) % 2 ^ f.len
        | .ro | .w1c | .w1s | .au => c.fld pg f) := by
  have := fold_fields (pg := pg) (k := k)
    (fun c f =>
      let v := storedAs k f (getBits w f.lo f.len)
      match f.acc with
      | .rw => c.setFld pg f v
      | .rwl g => if bitOf (c.reg pg 0x18) g then c else c.setFld pg f v
      | _ => c)
    (fun c f => match f.acc with
        | .rw => storedAs k f (getBits w f.lo f.len) % 2 ^ f.len
        | .rwl g => if bitOf (c.reg pg 0x18) g then c.fld pg f else storedAs k f (getBits w f.lo f.len) % 2 ^ f.len
        | .ro | .w1c | .w1s | .au => c.fld pg f)
    (by
      intro c f hf
      have := Core.fld_setFld_same c pg f (storedAs k f (getBits w f.lo f.len)) (field_placed hf).2.2.1
      dsimp only
      cases f.acc <;> dsimp only <;> first | rfl | exact this | (split <;> first | rfl | exact this))
    (by
      intro c f hf x hx hne
      have := Core.fld_setFld_other c (pg := pg) (p := pg) (storedAs k f (getBits w f.lo f.len)) (field_placed hf).2.2.1 (field_placed hf).2.1
        (field_placed hx).2.1 (.inr (fields_apart hf hx (Ne.symm hne)))
      dsimp only
      cases f.acc <;> dsimp only <;> first | rfl | exact this | (split <;> first | rfl | exact this))
    (by
      intro c f hf o ho h4
      have := Core.reg_setFld_other c (pg := pg) (p := pg) (o := o) (f := f) (storedAs k f (getBits w f.lo f.len)) (field_placed hf).2.1
        (by omega) (.inr (by have := field_off hf; omega))
      dsimp only
      cases f.acc <;> dsimp only <;> first | rfl | exact this | (split <;> first | rfl | exact this))
    (by intro c d f _ h1 h2; cases f.acc <;> simp [h1, h2])
    (fieldsAt k off) (fun f hf => List.mem_of_mem_filter hf) (allApart_filter (fields_apart_all k)) c
  have := this.2 f hf
  have e : c.putFields pg k off w = (fieldsAt k off).foldl _ c := rfl
  rw [e]
  refine this.trans ?_
  by_cases ho : f.off = off
  · simp [fieldsAt, hf, ho]
  · simp [fieldsAt, ho]

/-- What a page reset does to each register of its page (R25, R26, R29, R417). -/
theorem Core.resetPage_spec (c : Core) {pg : Nat} {k : PageKind} (hk : kindOf pg = some k) (keep : Field → Bool) :
    (∀ f ∈ fieldsOf k, (c.resetPage pg keep).fld pg f = if keep f || c.locked pg f then c.fld pg f else f.rst) ∧
    (c.resetPage pg keep).reg pg 0x0C = c.reg pg 0x0C &&& c.reg pg 0x08 ∧ (c.resetPage pg keep).reg pg 0x08 = c.reg pg 0x08 ∧
    (c.resetPage pg keep).reg pg 0x10 = BitVec.ofNat 32 (ienReset k) ∧ (c.resetPage pg keep).reg pg 0x18 = c.reg pg 0x18 ∧
    (c.resetPage pg keep).fld pg H_EVC_COUNT = 0 := by
  have := fold_fields (pg := pg) (k := k) (fun c f => if keep f || c.locked pg f then c else c.setFld pg f f.rst)
    (fun c f => if keep f || c.locked pg f then c.fld pg f else f.rst)
    (by
      intro c f hf
      have := Core.fld_setFld_same c pg f f.rst (field_placed hf).2.2.1
      rw [Nat.mod_eq_of_lt (field_placed hf).2.2.2.2] at this
      split
      · rfl
      · exact this)
    (by
      intro c f hf x hx hne
      have := Core.fld_setFld_other c (pg := pg) (p := pg) f.rst (field_placed hf).2.2.1 (field_placed hf).2.1
        (field_placed hx).2.1 (.inr (fields_apart hf hx (Ne.symm hne)))
      split
      · rfl
      · exact this)
    (by
      intro c f hf o ho h4
      have := Core.reg_setFld_other c (pg := pg) (p := pg) (o := o) (f := f) f.rst (field_placed hf).2.1
        (by omega) (.inr (by have := field_off hf; omega))
      split
      · rfl
      · exact this)
    (by intro c d f _ h1 h2; simp [Core.locked, h1, h2])
    (fieldsOf k) (fun _ h => h) (fields_apart_all k) c
  obtain ⟨h1, h2⟩ := this
  simp only [Core.resetPage, hk]
  generalize hd : ((fieldsOf k).foldl (fun (c : Core) f => if keep f || c.locked pg f then c else c.setFld pg f f.rst) c) = d at h1 h2 ⊢
  have r8 := h1 8 (by decide) (by decide)
  have r18 := h1 0x18 (by decide) (by decide)
  have r0C := h1 0x0C (by decide) (by decide)
  have off (e : Core) {o o' : Nat} (w : Word) (a : o < 256) (b : o' < 256) (hne : o' ≠ o) : (e.setReg pg o w).reg pg o' = e.reg pg o' :=
    Core.reg_setReg_other e w a b (.inr hne)
  have ev (e : Core) (o : Nat) (a : o < 256) (hne : o ≠ 0x1C) : (e.setFld pg H_EVC_COUNT 0).reg pg o = e.reg pg o :=
    off e _ (by decide) a hne
  refine ⟨fun f hf => ?_, ?_, ?_, ?_, ?_, ?_⟩
  · have hp := (field_placed hf).2.1
    have ho := field_off hf
    rw [Core.fld, ev _ _ hp (by omega), off _ _ (by decide) hp (by omega), off _ _ (by decide) hp (by omega)]
    have := h2 f hf
    rw [if_pos hf] at this
    exact this
  · rw [ev _ _ (by decide) (by decide), off _ _ (by decide) (by decide) (by decide), Core.reg_setReg_same, r0C, r8]
  · rw [ev _ _ (by decide) (by decide), off _ _ (by decide) (by decide) (by decide), off _ _ (by decide) (by decide) (by decide), r8]
  · rw [ev _ _ (by decide) (by decide), Core.reg_setReg_same]
  · rw [ev _ _ (by decide) (by decide), off _ _ (by decide) (by decide) (by decide), off _ _ (by decide) (by decide) (by decide), r18]
  · exact Core.fld_setFld_same _ _ _ _ (by decide)

end Sys2Proof.Machine
end

