-- ==== Sys2Proof/Laws/Head.lean ====
section
/-! SUPPORT. The page head: what an event, a level and a clear write do to STAT, STKY and EVC (R8, R26, R27). -/
namespace Sys2Proof.Machine

theorem Core.countEvc_reg (c : Core) (pg k : Nat) {o : Nat} (h : o < 256) (hn : o ≠ 0x1C) : (c.countEvc pg k).reg pg o = c.reg pg o :=
  Core.reg_setReg_other _ _ (by decide) h (.inr hn)

theorem Core.countEvc_evc (c : Core) (pg k : Nat) : (c.countEvc pg k).fld pg H_EVC_COUNT = min 0xFFFF (c.fld pg H_EVC_COUNT + k) := by
  rw [Core.countEvc, Core.incSat, Core.fld_setFld_same _ _ _ _ (by decide)]
  show min 65535 _ % 65536 = _
  omega

theorem Core.setReg_evc (c : Core) (pg o : Nat) (w : Word) (h : o < 256) (hn : o ≠ 0x1C) :
    (c.setReg pg o w).fld pg H_EVC_COUNT = c.fld pg H_EVC_COUNT :=
  Core.fld_setReg_other c w h (by decide) (.inr (Ne.symm hn))

/-- Driving ALERT_N again changes no register (R51). -/
@[simp] theorem Core.realert_reg (c : Core) (pg bit p o : Nat) : (c.realert pg bit).reg p o = c.reg p o := by
  unfold Core.realert; split <;> rfl
@[simp] theorem Core.realert_fld (c : Core) (pg bit p : Nat) (f : Field) : (c.realert pg bit).fld p f = c.fld p f := by
  unfold Core.realert; split <;> rfl

/-- A bit of STKY that a clear write meets at the instant of an event is 1 afterwards, and EVC counts both (R8, R26, R27). -/
theorem Core.clearSticky_coinc (c : Core) (pg : Nat) {bit : Nat} (hb : bit < 32) :
    (c.clearSticky pg bit true).stky pg bit = true ∧
    (c.clearSticky pg bit true).fld pg H_EVC_COUNT = min 0xFFFF (c.fld pg H_EVC_COUNT + 2) ∧
    ∀ b, b ≠ bit → (c.clearSticky pg bit true).stky pg b = c.stky pg b := by
  unfold Core.clearSticky
  simp only [if_true]
  split
  · rename_i h
    refine ⟨?_, Core.countEvc_evc .., fun b _ => ?_⟩
    · simp only [Core.stky, Core.countEvc_reg c pg 2 (o := 0x0C) (by decide) (by decide)] at h ⊢; exact h
    · simp only [Core.stky, Core.countEvc_reg c pg 2 (o := 0x0C) (by decide) (by decide)]
  · refine ⟨?_, ?_, fun b hne => ?_⟩
    · simp only [Core.stky, Core.realert_reg]
      rw [Core.countEvc_reg _ _ _ (by decide) (by decide), Core.reg_setReg_same]; exact bitOf_putBit_same _ _ _ hb
    · rw [Core.realert_fld, Core.countEvc_evc, Core.setReg_evc _ _ _ _ (by decide) (by decide)]
    · simp only [Core.stky, Core.realert_reg]
      rw [Core.countEvc_reg _ _ _ (by decide) (by decide), Core.reg_setReg_same]; exact bitOf_putBit_other _ _ _ _ hb hne

/-- An event changes STKY, EVC and the release of ALERT_N at most. -/
theorem Core.raise_reg (c : Core) (pg bit : Nat) {o : Nat} (h : o < 256) (h1 : o ≠ 0x1C) (h2 : o ≠ 0x0C) :
    (c.raise pg bit).reg pg o = c.reg pg o := by
  have A : ((c.setReg pg 0x0C (putBit (c.reg pg 0x0C) bit true)).countEvc pg 1).reg pg o = c.reg pg o := by
    rw [Core.countEvc_reg _ _ _ h h1, Core.reg_setReg_other _ _ (by decide) h (.inr h2)]
  unfold Core.raise
  split
  · rfl
  · unfold Core.realert; split <;> exact A

theorem Core.raise_eq (c : Core) (pg bit : Nat) (h : c.stky pg bit = true) : c.raise pg bit = c := by simp [Core.raise, h]

theorem Core.raise_stkyReg (c : Core) (pg bit : Nat) (h : c.stky pg bit = false) :
    (c.raise pg bit).reg pg 0x0C = putBit (c.reg pg 0x0C) bit true := by
  have B : ((c.setReg pg 0x0C (putBit (c.reg pg 0x0C) bit true)).countEvc pg 1).reg pg 0x0C = putBit (c.reg pg 0x0C) bit true := by
    rw [Core.countEvc_reg _ _ _ (by decide) (by decide), Core.reg_setReg_same]
  simp only [Core.raise, Core.realert, h, Bool.false_eq_true, if_false]
  split <;> exact B

theorem Core.raise_evc (c : Core) (pg bit : Nat) (h : c.stky pg bit = false) :
    (c.raise pg bit).fld pg H_EVC_COUNT = min 0xFFFF (c.fld pg H_EVC_COUNT + 1) := by
  have C : ((c.setReg pg 0x0C (putBit (c.reg pg 0x0C) bit true)).countEvc pg 1).fld pg H_EVC_COUNT =
      min 0xFFFF (c.fld pg H_EVC_COUNT + 1) := by
    rw [Core.countEvc_evc, Core.setReg_evc _ _ _ _ (by decide) (by decide)]
  simp only [Core.raise, Core.realert, h, Bool.false_eq_true, if_false]
  split <;> exact C

theorem Core.raise_stky (c : Core) (pg : Nat) {bit : Nat} (hb : bit < 32) : (c.raise pg bit).stky pg bit = true := by
  by_cases h : c.stky pg bit = true
  · rw [Core.raise_eq _ _ _ h]; exact h
  · rw [Core.stky, Core.raise_stkyReg _ _ _ (by simpa using h)]; exact bitOf_putBit_same _ _ _ hb

theorem Core.raise_stky_other (c : Core) (pg : Nat) {bit b : Nat} (hb : bit < 32) (hne : b ≠ bit) :
    (c.raise pg bit).stky pg b = c.stky pg b := by
  by_cases h : c.stky pg bit = true
  · rw [Core.raise_eq _ _ _ h]
  · rw [Core.stky, Core.raise_stkyReg _ _ _ (by simpa using h)]; exact bitOf_putBit_other _ _ _ _ hb hne

theorem Core.raise_stat (c : Core) (pg bit b : Nat) : (c.raise pg bit).stat pg b = c.stat pg b := by
  rw [Core.stat, Core.raise_reg _ _ _ (by decide) (by decide) (by decide)]; rfl

theorem Core.setStat_stat (c : Core) (pg : Nat) {bit : Nat} (x : Bool) (hb : bit < 32) : (c.setStat pg bit x).stat pg bit = x := by
  rw [Core.setStat, Core.stat, Core.reg_setReg_same]; exact bitOf_putBit_same _ _ _ hb

theorem Core.setStat_stat_other (c : Core) (pg : Nat) {bit b : Nat} (x : Bool) (hb : bit < 32) (hne : b ≠ bit) :
    (c.setStat pg bit x).stat pg b = c.stat pg b := by
  rw [Core.setStat, Core.stat, Core.reg_setReg_same]; exact bitOf_putBit_other _ _ _ _ hb hne

theorem Core.setStat_stky (c : Core) (pg bit b : Nat) (x : Bool) : (c.setStat pg bit x).stky pg b = c.stky pg b := by
  rw [Core.setStat, Core.stky, Core.reg_setReg_other _ _ (by decide) (by decide) (.inr (by decide))]; rfl

theorem Core.setStat_evc (c : Core) (pg bit : Nat) (x : Bool) : (c.setStat pg bit x).fld pg H_EVC_COUNT = c.fld pg H_EVC_COUNT :=
  Core.setReg_evc _ _ _ _ (by decide) (by decide)

/-- A level is a STAT bit, and its rise is an event. -/
theorem Core.setLevel_eq (c : Core) (pg bit : Nat) (x : Bool) :
    c.setLevel pg bit x = if x && !c.stat pg bit then (c.setStat pg bit x).raise pg bit else c.setStat pg bit x := rfl

/-! ## CTRL registers -/

theorem bitOf_setBits_other (w : Word) (lo len v i : Nat) (h : lo + len ≤ 32) (hi : i < lo ∨ lo + len ≤ i) :
    bitOf (setBits w lo len v) i = bitOf w i := by
  rw [bitOf_eq, testBit_setBits _ _ _ _ _ h, if_neg (by omega), bitOf_eq]

theorem bitOf_setBits_one (w : Word) (i v : Nat) (h : i < 32) : bitOf (setBits w i 1 v) i = decide (v % 2 = 1) := by
  rw [bitOf_eq, testBit_setBits _ _ _ _ _ (by omega), if_pos (by omega), Nat.sub_self, Nat.testBit_zero]

/-- A write of a field of CTRL is no page reset. -/
theorem Core.wordOf_prst (c : Core) (pg lo len v : Nat) (h : lo + len ≤ 31) : bitOf (setBits (c.wordOf pg 0x04) lo len v) 31 = false := by
  rw [bitOf_setBits_other _ _ _ _ _ (by omega) (by omega)]
  exact bitOf_putBit_same _ _ _ (by decide)

theorem bitOf_getBits (w : Word) (i : Nat) : bitOf w i = decide (getBits w i 1 ≠ 0) := by
  have h : getBits w i 1 = 0 ∨ getBits w i 1 = 1 := by
    have : getBits w i 1 < 2 := Nat.mod_lt _ (by decide)
    omega
  have e := testBit_getBits w i 1 0
  simp only [Nat.zero_add, Nat.zero_lt_one, decide_true, Bool.true_and] at e
  rw [bitOf_eq, ← e]
  rcases h with h | h <;> rw [h] <;> rfl

end Sys2Proof.Machine
end

