-- ==== Sys2Proof/Laws/Writes.lean ====
section
/-! SUPPORT. A field written by a host: the word that goes to the register, and the write as a change of the core. -/
namespace Sys2Proof.Machine

theorem bitOf_clearW1s : ∀ (l : List Field) (w : Word) (i : Nat), l.all (fun f => f.lo + f.len ≤ 32) = true →
    bitOf (clearW1s l w) i = (bitOf w i && !l.any (fun f => f.acc = .w1s && f.lo ≤ i && i < f.lo + f.len)) := by
  intro l
  induction l with
  | nil => intro w i _; simp [clearW1s]
  | cons f l ih =>
    intro w i h
    simp only [List.all_cons, Bool.and_eq_true, decide_eq_true_eq] at h
    have e : clearW1s (f :: l) w = clearW1s l (if f.acc = .w1s then setBits w f.lo f.len 0 else w) := rfl
    rw [e, ih _ _ h.2, List.any_cons]
    by_cases hf : f.acc = .w1s
    · rw [if_pos hf, bitOf_eq, testBit_setBits _ _ _ _ _ h.1]
      by_cases hi : f.lo ≤ i ∧ i < f.lo + f.len
      · rw [if_pos hi]; simp [hf, hi.1, hi.2]
      · rw [if_neg hi, bitOf_eq]
        have : (decide (f.lo ≤ i) && decide (i < f.lo + f.len)) = false := by
          simp only [Bool.and_eq_false_iff, decide_eq_false_iff_not]; omega
        simp [hf, Bool.and_assoc, this]
    · simp [hf]

theorem fieldsAt_len : ∀ k off, (fieldsAt k off).all (fun f => f.lo + f.len ≤ 32) = true := by
  intro k off
  rw [List.all_eq_true]
  intro f hf
  have h := field_placed (List.mem_filter.mp hf).1
  simp only [decide_eq_true_eq]
  omega

/-- A bit of the word that goes back: its own in the register, unless it belongs to a field that reads 0. -/
theorem bitOf_wordOf (c : Core) {pg : Nat} {k : PageKind} (off i : Nat) (hk : kindOf pg = some k) :
    bitOf (c.wordOf pg off) i = (bitOf (c.reg pg off) i && !(fieldsAt k off).any (fun f => f.acc = .w1s && f.lo ≤ i && i < f.lo + f.len) &&
      !(off = 4 && i = 31)) := by
  simp only [Core.wordOf, hk]
  by_cases h4 : off = 0x04
  · rw [if_pos h4]
    by_cases hi : i = 31
    · subst hi; rw [bitOf_putBit_same _ _ _ (by decide)]; simp [h4]
    · rw [bitOf_putBit_other _ _ _ _ (by decide) hi, bitOf_clearW1s _ _ _ (fieldsAt_len _ _)]; simp [hi]
  · rw [if_neg h4, bitOf_clearW1s _ _ _ (fieldsAt_len _ _)]; simp [h4]

/-- A field of the word that goes back, where no field that reads 0 overlaps it. -/
theorem getBits_wordOf (c : Core) {pg : Nat} {k : PageKind} (off lo len : Nat) (hk : kindOf pg = some k) (h31 : off ≠ 4 ∨ lo + len ≤ 31)
    (h : (fieldsAt k off).all (fun f => f.acc ≠ .w1s || f.lo + f.len ≤ lo || lo + len ≤ f.lo) = true) :
    getBits (c.wordOf pg off) lo len = getBits (c.reg pg off) lo len := by
  apply Nat.eq_of_testBit_eq; intro i
  rw [testBit_getBits, testBit_getBits]
  by_cases hi : i < len
  · have e := bitOf_wordOf c off (i + lo) hk
    rw [bitOf_eq, bitOf_eq] at e
    rw [e]
    have n1 : (fieldsAt k off).any (fun f => f.acc = .w1s && f.lo ≤ i + lo && i + lo < f.lo + f.len) = false := by
      rw [List.any_eq_false]
      intro f hf
      have := List.all_eq_true.mp h f hf
      simp only [Bool.or_eq_true, decide_eq_true_eq, Bool.and_eq_true, ne_eq] at this ⊢
      rintro ⟨⟨h1, h2⟩, h3⟩
      rcases this with (h4 | h4) | h4
      · exact h4 h1
      · omega
      · omega
    have n2 : (decide (off = 4) && decide (i + lo = 31)) = false := by
      simp only [Bool.and_eq_false_iff, decide_eq_false_iff_not]; omega
    simp [n1, n2]
  · simp [hi]

/-- A field written by a host goes to its register as a change of the core. -/
theorem State.fieldWrite_core {s : State} (h : s.serviceRuns = true) {pg : Nat} {f : Field} {v : Nat} {c : Core}
    (hk : (kindOf pg).isSome = true) (hp : pg ≠ pgRPR ∨ f.off ≠ 0x48)
    (hw : s.writeReg pg f.off (setBits (s.core.wordOf pg f.off) f.lo f.len v) = { s with core := c }) : s.fieldWrite pg f v = s.wrote c :=
  State.regWrite_core h hk hp hw

/-- A write of a CTRL register that is no page reset goes to the page. -/
theorem State.writeReg_ctrl (s : State) (pg : Nat) (w : Word) (h : bitOf w 31 = false) : s.writeReg pg 0x04 w = s.writePage pg 0x04 w := by
  simp only [State.writeReg, h, Bool.false_eq_true, if_false]

/-- A field of CTRL written by a host goes to its page as a change of the core. -/
theorem State.fieldWrite_ctrl {s : State} (h : s.serviceRuns = true) {pg : Nat} {f : Field} {v : Nat} {c : Core}
    (hk : (kindOf pg).isSome = true) (ho : f.off = 0x04) (hl : f.lo + f.len ≤ 31)
    (hw : s.writePage pg 0x04 (setBits (s.core.wordOf pg 0x04) f.lo f.len v) = { s with core := c }) : s.fieldWrite pg f v = s.wrote c := by
  refine State.fieldWrite_core h hk (.inr (by rw [ho]; decide)) ?_
  rw [ho, State.writeReg_ctrl _ _ _ (Core.wordOf_prst _ _ _ _ _ hl), hw]

end Sys2Proof.Machine
end

