-- ==== Sys2Proof/Laws/AuxChan.lean ====
section
/-! SUPPORT. What the operations of the auxiliary channels can do. -/
namespace Sys2Proof.Machine

/-- EN rises in OFF (R266). -/
theorem Core.xWriteEn_start (c : Core) (n : Nat) (h : c.flag pgAUX (AUX_CTRL_EN n) = false) (h1 : (c.xch n).st = .off) :
    c.xWriteEn n true =
      (((c.setFld pgAUX (AUX_CTRL_EN n) 1).modXch n (fun x => { x with st := .start, ssceil := 0 })).xSync n).xOv n := by
  unfold Core.xWriteEn
  refine if_pos ?_
  rw [h, show ((c.setFld pgAUX (AUX_CTRL_EN n) (b2n true)).xch n).st = .off from h1]; decide

/-- EN falls in START or RUN (R266). -/
theorem Core.xWriteEn_end (c : Core) (n : Nat) (h : c.flag pgAUX (AUX_CTRL_EN n) = true) (h1 : (c.xch n).runs = true) :
    c.xWriteEn n false = (c.setFld pgAUX (AUX_CTRL_EN n) 0).modXch n (fun x => { x with offPend := true }) := by
  unfold Core.xWriteEn
  refine (if_neg (by simp)).trans (if_pos ?_)
  rw [h, show ((c.setFld pgAUX (AUX_CTRL_EN n) (b2n false)).xch n).runs = true from h1]; decide

/-- EN written as it stands (R266). -/
theorem Core.xWriteEn_same (c : Core) (n : Nat) (en : Bool) (h : en = c.flag pgAUX (AUX_CTRL_EN n)) :
    c.xWriteEn n en = c.setFld pgAUX (AUX_CTRL_EN n) (b2n en) := by
  unfold Core.xWriteEn
  rw [← h]
  cases en <;> simp

/-- EN rises outside OFF, or falls outside START and RUN: it is stored and starts nothing (R266). -/
theorem Core.xWriteEn_stored (c : Core) (n : Nat) (en : Bool) (h : if en then (c.xch n).st ≠ .off else (c.xch n).runs = false) :
    c.xWriteEn n en = c.setFld pgAUX (AUX_CTRL_EN n) (b2n en) := by
  have e : (c.setFld pgAUX (AUX_CTRL_EN n) (b2n en)).xch n = c.xch n := rfl
  unfold Core.xWriteEn
  dsimp only
  rw [e]
  cases en
  · rw [if_neg Bool.false_ne_true] at h
    exact (if_neg (by simp)).trans (if_neg (by rw [h]; simp))
  · rw [if_pos rfl] at h
    exact (if_neg (by rw [decide_eq_false h]; simp)).trans (if_neg (by simp))

theorem State.writeAux_force (s : State) (n : Fin 4) (v : Word) :
    s.writeReg pgAUX (0x38 + 32 * n.val) v = { s with core := s.core.xWriteForce n v } := by
  fin_cases n <;> rfl

/-- The bits of AUX_CTRL that read 0: the reload requests (R264). -/
theorem aux_ctrl_w1s : ∀ m < 9, ((fieldsAt PageKind.aux 4).any fun f => f.acc = Access.w1s && f.lo ≤ m && m < f.lo + f.len) = decide (4 ≤ m ∧ m < 8) := by
  decide +kernel

/-- A bit of the word a write of one AUX_CTRL bit carries. -/
theorem Core.aux_ctrl_write (c : Core) (i v m : Nat) (hi : i < 8) (hm : m < 9) :
    bitOf (setBits (c.wordOf pgAUX 4) i 1 v) m =
      if m = i then decide (v % 2 = 1) else if 4 ≤ m ∧ m < 8 then false else bitOf (c.reg pgAUX 4) m := by
  by_cases h : m = i
  · subst h; rw [if_pos rfl, bitOf_setBits_one _ _ _ (by omega)]
  · rw [if_neg h, bitOf_setBits_other _ _ _ _ _ (by omega) (by omega), bitOf_wordOf _ _ _ (show kindOf pgAUX = some .aux from rfl), aux_ctrl_w1s m hm]
    by_cases h4 : 4 ≤ m ∧ m < 8
    · rw [if_pos h4, decide_eq_true h4]; cases bitOf (c.reg pgAUX 4) m <;> rfl
    · rw [if_neg h4, decide_eq_false h4, decide_eq_false (show ¬ m = 31 by omega)]; cases bitOf (c.reg pgAUX 4) m <;> rfl

/-- Such a write leaves the fan as it stands. -/
theorem Core.aux_fan_write (c : Core) (i v : Nat) (hi : i < 8) :
    getBits (setBits (c.wordOf pgAUX 4) i 1 v) 8 1 = c.fld pgAUX AUX_CTRL_FANEN := by
  rw [getBits_setBits_other _ _ _ _ _ _ (by omega) (by omega),
    getBits_wordOf _ _ _ _ (show kindOf pgAUX = some .aux from rfl) (.inr (by decide)) (by decide +kernel)]
  rfl

/-- What a write of AUX_CTRL does (R264, R266, R277). -/
theorem Core.auxCtrl_eq (c : Core) (w : Word) : c.auxCtrl w =
    (if bitOf w 8 then ((List.range 4).foldl (fun (c : Core) n =>
      if bitOf w (4 + n) then (c.xWriteEn n (bitOf w n)).setFld pgAUX (AUX_CTRL_RLD n) 1 else c.xWriteEn n (bitOf w n)) c).setFld pgAUX AUX_CTRL_FANEN (getBits w 8 1)
    else (((List.range 4).foldl (fun (c : Core) n =>
      if bitOf w (4 + n) then (c.xWriteEn n (bitOf w n)).setFld pgAUX (AUX_CTRL_RLD n) 1 else c.xWriteEn n (bitOf w n)) c).setFld pgAUX AUX_CTRL_FANEN (getBits w 8 1)).fanUnstall) := by
  unfold Core.auxCtrl; rfl

theorem Core.writeAux_ctrl (c : Core) (w : Word) : c.writeAux 4 w = c.auxCtrl w := by
  unfold Core.writeAux; exact (if_neg (by decide)).trans (if_pos rfl)

/-- A write of one bit of AUX_CTRL. -/
theorem State.auxCtrl_write {s : State} (hs : s.serviceRuns = true) (f : Field) (v : Nat) (h1 : f.off = 4) (h2 : f.len = 1) (h3 : f.lo < 8) :
    s.fieldWrite pgAUX f v = s.wrote (s.core.auxCtrl (setBits (s.core.wordOf pgAUX 4) f.lo 1 v)) := by
  refine State.fieldWrite_ctrl hs (by decide) h1 (by omega) ?_
  rw [h2]
  show ({ s with core := s.core.writeAux 4 (setBits (s.core.wordOf pgAUX 4) f.lo 1 v) } : State) = _
  rw [Core.writeAux_ctrl]
/-- A reload that is asked for is taken at the capture point (R264). -/
theorem Core.xReload_asked (c : Core) (n : Nat) (h1 : c.flag pgAUX (AUX_CTRL_RLD n) = true) :
    c.xReload n = (c.xLoad n).setFld pgAUX (AUX_CTRL_RLD n) 0 := by
  unfold Core.xReload; exact if_pos h1

/-- In the direct mode the values are taken at each capture point (R264). -/
theorem Core.xReload_direct (c : Core) (n : Nat) (h1 : c.flag pgAUX (AUX_CTRL_RLD n) = false) (h2 : c.flag pgAUX (AUX_XCFG_RLDMODE n) = false) :
    c.xReload n = c.xLoad n := by
  unfold Core.xReload; exact (if_neg (by rw [h1]; decide)).trans (if_pos (by rw [h2]; rfl))

/-- A new duty misses its first capture point (R265). -/
theorem Core.xReload_missed (c : Core) (n : Nat) (h1 : c.flag pgAUX (AUX_CTRL_RLD n) = false) (h2 : c.flag pgAUX (AUX_XCFG_RLDMODE n) = true)
    (h3 : (c.xch n).dutyNew = true) (h4 : (c.xch n).dutyMiss = false) :
    c.xReload n = ((c.modXch n (fun x => { x with dutyMiss := true })).setFld pgAUX (AUX_XMON_LATE n) 1).raise pgAUX 26 := by
  unfold Core.xReload
  exact ((if_neg (by rw [h1]; decide)).trans (if_neg (by rw [h2]; decide))).trans (if_pos (by rw [h3, h4]; rfl))

/-- Without a reload the values wait (R264). -/
theorem Core.xReload_waits (c : Core) (n : Nat) (h1 : c.flag pgAUX (AUX_CTRL_RLD n) = false) (h2 : c.flag pgAUX (AUX_XCFG_RLDMODE n) = true)
    (h3 : (c.xch n).dutyNew = false ∨ (c.xch n).dutyMiss = true) : c.xReload n = c := by
  unfold Core.xReload
  refine ((if_neg (by rw [h1]; decide)).trans (if_neg (by rw [h2]; decide))).trans (if_neg ?_)
  rcases h3 with h3 | h3 <;> rw [h3] <;> simp

/-- The duty instant of a channel that switches (R261, R276). -/
theorem Core.xDutyInstant_eq (c : Core) (n : Nat) (h1 : (c.xch n).runs = true) :
    c.xDutyInstant n =
      (let d := c.xTakeForce n
       let x := d.xch n
       if x.isHeld || x.revHold then d
       else if x.forced then d.xForceGates n
       else if !x.lowDue then (if (c.xch n).forced && x.highDue then d.xHighOn n else d)
       else if x.xl || x.dead = 2 then d
       else d.modGate n (fun x => { x with xh := false, dead := 2 })) := by
  unfold Core.xDutyInstant
  exact if_neg (by rw [h1]; decide)

theorem Core.xRise_free (c : Core) (n : Nat) (h : c.xHiLim n = false) : c.xRise n = c.modXch n AuxCh.riseHigh := by
  unfold Core.xRise; rw [h]; rfl

theorem Core.xRise_limited (c : Core) (n : Nat) (h : c.xHiLim n = true) : c.xRise n = c.modXch n (fun x => { x with dead := 0 }.limit) := by
  unfold Core.xRise; rw [h]; rfl

/-- The overcurrent logic takes a channel that switches to OFF (R271). -/
theorem Core.xOver_eq (c : Core) (n : Nat) (h1 : (c.xch n).runs = true) (h2 : c.fld pgAUX (AUX_XCFG_XOCN n) ≠ 0)
    (h3 : c.fld pgAUX (AUX_XCFG_XOCN n) ≤ (c.xch n).limRow) (h4 : ((c.setFld pgAUX (AUX_CTRL_EN n) 0).xch n).runs = true) :
    c.xOver n =
      (let d := c.setFld pgAUX (AUX_CTRL_EN n) 0
       let d := (d.modGate n (fun x => ({ x with tripHold := x.tripHold && d.tripped (8 + n) } : AuxCh).gatesEnd)).xToOff n
       (d.raise pgAUX (12 + n)).send 0x1B 0 (mkAddr 7 n)) := by
  have e : c.xOcOff n = (let d := c.setFld pgAUX (AUX_CTRL_EN n) 0
      (d.modGate n (fun x => ({ x with tripHold := x.tripHold && d.tripped (8 + n) } : AuxCh).gatesEnd)).xToOff n) := by
    unfold Core.xOcOff; exact if_pos h4
  unfold Core.xOver
  refine (if_pos (by rw [h1, decide_eq_true h2, decide_eq_true h3]; rfl)).trans ?_
  rw [e]

/-- A tach edge ends a stall, and a whole number of revolutions since shows PERIOD and RPM (R278). -/
theorem Core.fanTach_eq (c : Core) (t : Nat) :
    let e := ({ c with aux := { c.aux with tach := (c.time.toNat :: c.aux.tach).take 16 } } : Core).fanUnstall
    e.aux.tach[zeroAsOne (e.fld pgAUX AUX_FANCFG_PPR)]? = some t → 400 ≤ e.time.toNat - t →
    c.fanTach = (e.setFld pgAUX AUX_FANTACH_PERIOD (min 0xFFFF ((e.time.toNat - t) / 400))).setFld pgAUX AUX_FANTACH_RPM
      (60000000 / min 0xFFFF ((e.time.toNat - t) / 400)) := by
  intro e h1 h3
  have h4 : min 0xFFFF ((e.time.toNat - t) / 400) ≠ 0 := by omega
  unfold Core.fanTach Core.fanMeasure
  rw [h1]
  exact if_neg h4

/-- An edge with no whole revolution behind it (R278). -/
theorem Core.fanTach_first (c : Core) :
    let e := ({ c with aux := { c.aux with tach := (c.time.toNat :: c.aux.tach).take 16 } } : Core).fanUnstall
    e.aux.tach[zeroAsOne (e.fld pgAUX AUX_FANCFG_PPR)]? = none → c.fanTach = e := by
  intro e h1
  unfold Core.fanTach Core.fanMeasure
  rw [h1]

theorem Core.fanStall_eq (c : Core) (ms : Nat) (h1 : c.flag pgAUX AUX_CTRL_FANEN = true) (h2 : 0 < c.aux.fanCur)
    (h3 : c.fld pgAUX AUX_FANSTALL_STALLT ≠ 0) (h4 : c.fld pgAUX AUX_FANSTALL_STALLT ≤ ms) (h5 : c.stat pgAUX 24 = false) :
    c.fanStall ms =
      ((((({ c with aux := { c.aux with rpm := c.fld pgAUX AUX_FANTACH_RPM } } : Core).setLevel pgAUX 24 true).setLive 0x1C 0 true).setFld
        pgAUX AUX_FANTACH_RPM 0).send 0x1C 0 0) := by
  unfold Core.fanStall
  exact if_pos (by rw [h1, h5, decide_eq_true h2, decide_eq_true h3, decide_eq_true h4]; rfl)

/-- A period boundary (R260, R261, R264, R266, R268, R271 to R273). -/
theorem Core.xBoundary_eq (c : Core) (n : Nat) : c.xBoundary n =
    (let pcnt := wrapAdd 16 (c.fld pgAUX (AUX_XDAPP_PCNT n)) 1
      let d := c.setFld pgAUX (AUX_XDAPP_PCNT n) pcnt
      let x := d.xch n
      let d := if x.dutyTaken then d.setFld pgAUX (AUX_XDAPP_PSEQ n) pcnt else d
      let d := (d.setFld pgAUX (AUX_XMON_DAPL n) x.dnext).setFld pgAUX (AUX_XMON_ILIM n) (b2n x.limited)
      let d := d.modXch n (fun x => { x with
        dcur := x.dnext, per := x.perNext, dtlh := x.dtlhNext, dthl := x.dthlNext, xlAtB := x.xl, dutyTaken := false, revHold := false
        limited := false, limRow := if x.limited then x.limRow else 0
        ovHold := x.ovHold && d.cmpHi (42 + n), tripHold := x.tripHold && d.tripped (8 + n), frz := d.rpr.allMid })
      let d := if (d.xch n).offPend then d.xToOff n else d
      let d := if (d.xch n).st = .safe then d else d.xTakeForce n
      (d.xStartGates n).xReverse n) := by
  unfold Core.xBoundary Core.xTurn
  extract_lets
  rfl

end Sys2Proof.Machine
end

