-- ==== Sys2Proof/Laws/Faults.lean ====
section
/-! SUPPORT. What the housekeeping round and the fault collector can do. -/
namespace Sys2Proof.Machine

/-- A round that keeps its history (R311, R322). -/
theorem Core.thmStart_keeps (c : Core) (h1 : c.thm.per = c.thmPer) : c.thmStart = { c with thm := { c.thm with active := true } } := by
  unfold Core.thmStart
  rw [if_pos h1, ← h1]

/-- A round with another period (R311, R322). -/
theorem Core.thmStart_new (c : Core) (h : c.thm.per ≠ c.thmPer) :
    c.thmStart = { c with thm := { c.thm with active := true, per := c.thmPer, hist := [] } } := by
  unfold Core.thmStart
  rw [if_neg h]

/-- A note or a warning is reported (R332, R335). -/
theorem State.classify_note (s : State) (w : Word) (h : s.core.classOf (msgSrc w) < 2) :
    s.classify w = (s.reportMsg w (s.core.classOf (msgSrc w))).syncFlt := by
  unfold State.classify
  dsimp only
  rw [if_neg (by omega : ¬ 3 ≤ s.core.classOf (msgSrc w)), if_neg (by omega : ¬ s.core.classOf (msgSrc w) = 2),
    if_neg (by omega : ¬ s.core.classOf (msgSrc w) = 4)]

/-- The RAIL class reaches the scope of the message (R335). -/
theorem State.classify_rail (s : State) (w : Word) (h : s.core.classOf (msgSrc w) = 2) (hl : s.core.scope (msgAddr w) true ≠ []) :
    s.classify w = ((s.onCore (fun c => ((s.core.scope (msgAddr w) true).foldl (fun (c : Core) t => c.reach t (msgSrc w) false) c).raise pgFLT 2)).reportMsg w 2).syncFlt := by
  unfold State.classify
  dsimp only
  rw [h, if_neg (by decide : ¬ 3 ≤ 2), if_pos rfl, if_neg (by decide : ¬ 2 = 4), if_neg hl]
  rfl

/-- The DEVICE class (R335). -/
theorem State.classify_device (s : State) (w : Word) (h : s.core.classOf (msgSrc w) = 3) :
    s.classify w = (((s.deviceAction (msgSrc w)).onCore (fun c => c.raise pgFLT 2)).reportMsg w 3).syncFlt := by
  unfold State.classify
  dsimp only
  rw [h, if_pos (by decide : 3 ≤ 3), if_neg (by decide : ¬ 3 = 4)]

/-- The GRAVE class (R338). -/
theorem State.classify_grave (s : State) (w : Word) (h : s.core.classOf (msgSrc w) = 4) :
    s.classify w = ((((s.deviceAction (msgSrc w)).onCore (fun c => c.raise pgFLT 2)).setGrave w).reportMsg w 4).syncFlt := by
  unfold State.classify
  dsimp only
  rw [h, if_pos (by decide : 3 ≤ 4), if_pos rfl]

/-- The collector takes a message that is right (R332). -/
theorem State.takeMessage_good (s : State) {w : Word} {t : List Word} (hl : s.core.flt.latch = w :: t) (h1 : msgOk w = true) (h2 : msgSrc w ≤ 0x5F) :
    s.takeMessage = (s.onCore (fun c => ({ c with flt := { c.flt with latch := t } } : Core).fillLatch [])).classify w := by
  have e : checkedMsg w = (w, false) := by
    unfold checkedMsg; rw [if_neg (by rw [h1]; decide), if_neg (by omega)]
  unfold State.takeMessage
  rw [hl]
  dsimp only
  rw [e]
  rfl

/-- The collector takes a message that fails its check (R331). -/
theorem State.takeMessage_bad (s : State) {w : Word} {t : List Word} (hl : s.core.flt.latch = w :: t) (h1 : msgOk w = false) :
    s.takeMessage = ((s.onCore (fun c => ({ c with flt := { c.flt with latch := t } } : Core).fillLatch [])).onCore
      (fun c => (c.incSat pgFLT FLT_CNT_MSGERR 1).raise pgFLT 6)).classify (mkMsg 0x5E 0 0) := by
  have e : checkedMsg w = (mkMsg 0x5E 0 0, true) := by
    unfold checkedMsg; rw [if_pos (by rw [h1]; rfl)]
  unfold State.takeMessage
  rw [hl]
  dsimp only
  rw [e]
  exact congrArg (fun s : State => s.classify (mkMsg 0x5E 0 0)) (if_pos rfl)

theorem State.writeFsv_class (s : State) (i : Fin 12) (v : Word) : s.writeReg pgFSV (0x20 + 4 * i.val) v = s.writeClasses i.val v := by
  fin_cases i <;> rfl

theorem State.writeFsv_force (s : State) (i : Fin 3) (v : Word) :
    s.writeReg pgFSV (0x50 + 4 * i.val) v = { s with core := s.core.forceFaults i.val v } := by
  fin_cases i <;> rfl

/-- A class field takes its value (R334). -/
theorem Core.writeClass_ok (c : Core) (src k : Nat) (h1 : srcListed src = true) (h2 : src ≠ 0x5F) (h3 : k < 5)
    (h4 : k ≠ 2 ∨ atypeReaches (srcAtype src) = true) : c.writeClass src k = c.setFld pgFSV (FSV_CLS_CLASS src) k := by
  unfold Core.writeClass
  refine (if_neg (by rw [h1]; decide)).trans (if_neg ?_)
  rw [decide_eq_false h2, decide_eq_false (show ¬ 5 ≤ k by omega)]
  rcases h4 with h | h
  · rw [decide_eq_false h]; simp
  · rw [h]; simp

/-- A class that is refused (R334). -/
theorem Core.writeClass_refused (c : Core) (src k : Nat) (h1 : srcListed src = true)
    (h2 : src = 0x5F ∨ 5 ≤ k ∨ (k = 2 ∧ atypeReaches (srcAtype src) = false)) : c.writeClass src k = c.raise pgFSV 0 := by
  unfold Core.writeClass
  refine (if_neg (by rw [h1]; decide)).trans (if_pos ?_)
  rcases h2 with h | h | ⟨h, h'⟩
  · rw [decide_eq_true h]; rfl
  · rw [decide_eq_true h]; simp
  · rw [decide_eq_true h, h']; simp

/-- A write of FLT_REL without GO (R345). -/
theorem State.writeRel_kept (s : State) (v : Word) (h : bitOf v 16 = false) :
    s.writeRel v = { s with core := (s.core.setFld pgFLT FLT_REL_TGT (getBits v 0 4)).setFld pgFLT FLT_REL_COUNT (getBits v 8 8) } := by
  unfold State.writeRel
  exact if_neg (by rw [h]; decide)

/-- A write of FLT_REL with GO (R340, R345). -/
theorem State.writeRel_go (s : State) (v : Word) (h : bitOf v 16 = true) :
    s.writeRel v = ({ s with core := (s.core.setFld pgFLT FLT_REL_TGT (getBits v 0 4)).setFld pgFLT FLT_REL_COUNT (getBits v 8 8) } : State).release
      (getBits v 0 4) (getBits v 8 8) := by
  unfold State.writeRel
  exact if_pos h


/-- Odd parity of a run of bits is their exclusive or. -/
theorem oddParity_eq (k v : Nat) : oddParity k v = (List.range k).foldl (fun a i => xor a (v.testBit i)) false := by
  induction k generalizing v with
  | zero => rfl
  | succ k ih =>
    have shift : ∀ (l : List Nat) (a : Bool), l.foldl (fun a i => xor a ((v / 2).testBit i)) a =
        xor a (l.foldl (fun a i => xor a ((v / 2).testBit i)) false) := by
      intro l
      induction l with
      | nil => intro a; simp
      | cons x l ih' => intro a; rw [List.foldl_cons, List.foldl_cons, ih', ih' (xor false _)]; cases a <;> simp
    rw [oddParity, ih, List.range_succ_eq_map, List.foldl_cons, List.foldl_map, Bool.false_xor, Nat.testBit_zero]
    simp only [Nat.testBit_succ]
    exact (shift _ _).symm

/-- The check of a message as R328 words it: each check bit is the exclusive or of its half. -/
theorem msgOk_eq (w : Word) : msgOk w =
    (((List.range 15).foldl (fun a i => xor a (bitOf w (17 + i))) false == bitOf w 1) &&
      ((List.range 15).foldl (fun a i => xor a (bitOf w (2 + i))) false == bitOf w 0)) := by
  rw [msgOk, oddParity_eq, oddParity_eq]
  congr 2 <;> congr 1 <;> funext a i <;> rw [bitOf_eq] <;> congr 1
  · rw [Nat.testBit_div_two_pow, Nat.add_comm]
  · rw [show w.toNat / 4 = w.toNat / 2 ^ 2 from rfl, Nat.testBit_div_two_pow, Nat.add_comm]

/-- The collector's check of a source that no source table lists (R331). -/
theorem State.takeMessage_range (s : State) {w : Word} {t : List Word} (hl : s.core.flt.latch = w :: t) (h1 : msgOk w = true) (h2 : 0x5F < msgSrc w) :
    s.takeMessage = ((s.onCore (fun c => ({ c with flt := { c.flt with latch := t } } : Core).fillLatch [])).onCore
      (fun c => (c.incSat pgFLT FLT_CNT_MSGERR 1).raise pgFLT 6)).classify (mkMsg 0x5E 1 0) := by
  have e : checkedMsg w = (mkMsg 0x5E 1 0, true) := by
    unfold checkedMsg; rw [if_neg (by rw [h1]; decide), if_pos h2]
  unfold State.takeMessage
  rw [hl]
  dsimp only
  rw [e]
  rfl

/-- A message with one bit wrong fails its check. -/
theorem msgOk_flip (w : Word) (h : msgOk w = true) (i : Nat) (hi : i < 32) : msgOk (w ^^^ BitVec.ofNat 32 (2 ^ i)) = false := by
  have b : ∀ j, j < 32 → bitOf (w ^^^ BitVec.ofNat 32 (2 ^ i)) j = xor (bitOf w j) (decide (i = j)) := by
    intro j hj
    rw [bitOf, BitVec.getLsbD_xor, bitOf]
    congr 1
    rw [BitVec.getLsbD_ofNat, decide_eq_true hj, Bool.true_and, Nat.testBit_two_pow]
  rw [msgOk_eq] at h ⊢
  simp only [List.range, List.range.loop, List.foldl, Nat.add_zero, Nat.reduceAdd] at h ⊢
  rw [b 0 (by decide), b 1 (by decide), b 2 (by decide), b 3 (by decide), b 4 (by decide), b 5 (by decide), b 6 (by decide), b 7 (by decide),
    b 8 (by decide), b 9 (by decide), b 10 (by decide), b 11 (by decide), b 12 (by decide), b 13 (by decide), b 14 (by decide), b 15 (by decide),
    b 16 (by decide), b 17 (by decide), b 18 (by decide), b 19 (by decide), b 20 (by decide), b 21 (by decide), b 22 (by decide), b 23 (by decide),
    b 24 (by decide), b 25 (by decide), b 26 (by decide), b 27 (by decide), b 28 (by decide), b 29 (by decide), b 30 (by decide), b 31 (by decide)]
  simp only [Bool.and_eq_true, beq_iff_eq] at h
  obtain ⟨h1, h0⟩ := h
  rw [← h1, ← h0]
  clear h1 h0 b
  generalize bitOf w 2 = x2; generalize bitOf w 3 = x3; generalize bitOf w 4 = x4; generalize bitOf w 5 = x5
  generalize bitOf w 6 = x6; generalize bitOf w 7 = x7; generalize bitOf w 8 = x8; generalize bitOf w 9 = x9
  generalize bitOf w 10 = x10; generalize bitOf w 11 = x11; generalize bitOf w 12 = x12; generalize bitOf w 13 = x13
  generalize bitOf w 14 = x14; generalize bitOf w 15 = x15; generalize bitOf w 16 = x16; generalize bitOf w 17 = x17
  generalize bitOf w 18 = x18; generalize bitOf w 19 = x19; generalize bitOf w 20 = x20; generalize bitOf w 21 = x21
  generalize bitOf w 22 = x22; generalize bitOf w 23 = x23; generalize bitOf w 24 = x24; generalize bitOf w 25 = x25
  generalize bitOf w 26 = x26; generalize bitOf w 27 = x27; generalize bitOf w 28 = x28; generalize bitOf w 29 = x29
  generalize bitOf w 30 = x30; generalize bitOf w 31 = x31
  have key : ∀ a b : Bool, (xor a true == a) = false ∧ (a == xor a true) = false := by decide
  interval_cases i <;>
    simp only [decide_true, decide_false, Bool.xor_false, Bool.false_xor, Bool.xor_true, Bool.not_xor, Bool.xor_not, Nat.reduceEqDiff, OfNat.ofNat_ne_zero, OfNat.zero_ne_ofNat, zero_ne_one, one_ne_zero, OfNat.ofNat_ne_one, OfNat.one_ne_ofNat] <;> simp


/-- A coded message passes its check (R328). -/
theorem msgOk_mkMsg (src kind addr : Nat) : msgOk (mkMsg src kind addr) = true := by
  have h1 : src % 256 < 256 := Nat.mod_lt _ (by decide)
  have h2 : kind % 64 < 64 := Nat.mod_lt _ (by decide)
  have h3 : addr % 65536 < 65536 := Nat.mod_lt _ (by decide)
  unfold mkMsg
  generalize src % 256 = a at h1
  generalize kind % 64 = b at h2
  generalize addr % 65536 = d at h3
  dsimp only
  generalize hp : oddParity 15 ((a * 2 ^ 24 + b * 2 ^ 18 + d * 4) / 2 ^ 17) = p
  generalize hq : oddParity 15 ((a * 2 ^ 24 + b * 2 ^ 18 + d * 4) / 4) = q
  have n1 : (if p = true then 2 else 0) ≤ 2 := by split <;> omega
  have n0 : (if q = true then 1 else 0) ≤ 1 := by split <;> omega
  have hn : (BitVec.ofNat 32 (a * 2 ^ 24 + b * 2 ^ 18 + d * 4 + (if p = true then 2 else 0) + (if q = true then 1 else 0))).toNat =
      a * 2 ^ 24 + b * 2 ^ 18 + d * 4 + (if p = true then 2 else 0) + (if q = true then 1 else 0) := by
    rw [BitVec.toNat_ofNat]; apply Nat.mod_eq_of_lt; omega
  rw [msgOk, bitOf_eq, bitOf_eq, hn]
  have e1 : (a * 2 ^ 24 + b * 2 ^ 18 + d * 4 + (if p = true then 2 else 0) + (if q = true then 1 else 0)) / 2 ^ 17 =
      (a * 2 ^ 24 + b * 2 ^ 18 + d * 4) / 2 ^ 17 := by omega
  have e2 : (a * 2 ^ 24 + b * 2 ^ 18 + d * 4 + (if p = true then 2 else 0) + (if q = true then 1 else 0)) / 4 =
      (a * 2 ^ 24 + b * 2 ^ 18 + d * 4) / 4 := by omega
  rw [e1, e2, hp, hq, Nat.testBit_zero, Nat.testBit_succ, Nat.testBit_zero, Bool.and_eq_true, beq_iff_eq, beq_iff_eq]
  refine ⟨?_, ?_⟩ <;> cases p <;> cases q <;> simp <;> omega

end Sys2Proof.Machine
end

