-- ==== Sys2Proof/Laws/Bake.lean ====
section
/-! SUPPORT. What the steps of a Bakehouse program and its waits can do. -/
namespace Sys2Proof.Machine

variable {s : State} {w : BitVec 64}

/-- END without FAIL (R369). -/
theorem State.stepEnd_ends (h : s.atStep 0 = some w) (h1 : stFlg w % 2 = 0) :
    s.stepEnd = ((s.onCore (fun c => (c.setFld pgBKH BKH_PROG_RESULT (stDat w)).setFld pgBKH BKH_PROG_LASTFAIL (stFlg w % 2))).onCore
      (fun c => (c.raise pgBKH 1).stopProg)).afterProg s.core.bkh.prog false := by
  have e : b2n (decide (stFlg w % 2 = 1)) = stFlg w % 2 := by rw [h1]; rfl
  unfold State.stepEnd
  rw [h]
  dsimp only
  rw [e, if_neg (by omega), State.programEnds]
  refine congrArg (fun p => State.afterProg _ p false) ?_
  exact (congrArg Bkh.prog (Core.setFld_bkh _ _ _ _)).trans (congrArg Bkh.prog (Core.setFld_bkh _ _ _ _))

/-- END with FAIL (R354, R369). -/
theorem State.stepEnd_fails (h : s.atStep 0 = some w) (h1 : stFlg w % 2 = 1) :
    s.stepEnd = (((s.onCore (fun c => (c.setFld pgBKH BKH_PROG_RESULT (stDat w)).setFld pgBKH BKH_PROG_LASTFAIL (stFlg w % 2))).queueRecord 5
      (stDat w % 256) 0).onCore (fun c => (c.bakeFail 0 0 s.core.bkh.step).stopProg)).afterProg s.core.bkh.prog false := by
  have e : b2n (decide (stFlg w % 2 = 1)) = stFlg w % 2 := by rw [h1]; rfl
  unfold State.stepEnd
  rw [h]
  dsimp only
  rw [e, if_pos h1]

/-- ENABLE of a rail or a channel (R351, R353). -/
theorem State.stepEnable_rail (h : s.atStep 1 = some w) (h1 : stTgt w < 12) :
    s.stepEnable = s.onCore (fun c => (c.stepOn (stTgt w) (decide (stFlg w % 2 = 1)) (decide (2 ≤ stFlg w))).nextStep) := by
  unfold State.stepEnable
  rw [h]
  dsimp only
  rw [if_pos (by unfold tgtRail tgtAux; simp; omega)]
  rfl

/-- ENABLE of a SEQ pin (R351). -/
theorem State.stepEnable_pin (h : s.atStep 1 = some w) (h1 : 0x10 ≤ stTgt w) (h2 : stTgt w < 0x20) :
    s.stepEnable = s.onCore (fun c => (c.stepPin (stTgt w - 0x10) (decide (stFlg w % 2 = 1))).nextStep) := by
  unfold State.stepEnable
  rw [h]
  dsimp only
  rw [if_neg (by unfold tgtRail tgtAux; simp; omega), if_pos (by unfold tgtSeq; simp; omega)]
  rfl

/-- ENABLE of a release (R351, R353). -/
theorem State.stepEnable_release (h : s.atStep 1 = some w) (h1 : 0x20 ≤ stTgt w) :
    s.stepEnable = (s.stepRelease (stTgt w)).onCore Core.nextStep := by
  unfold State.stepEnable
  rw [h]
  dsimp only
  rw [if_neg (by unfold tgtRail tgtAux; simp; omega), if_neg (by unfold tgtSeq; simp; omega)]

/-- WAITGOOD that ends at once (R353). -/
theorem State.stepWait_past (h : s.atStep 3 = some w)
    (h1 : (stTgt w < 12 ∧ (s.core.holdSet (stTgt w)).held = true) ∨ (0x10 ≤ stTgt w ∧ stTgt w < 0x20 ∧ s.core.seqRole (stTgt w - 0x10) ≠ 2)) :
    s.stepWait = s.onCore (fun c => c.setFF.nextStep) := by
  unfold State.stepWait
  rw [h]
  refine congrArg (fun c => ({ s with core := c } : State)) (if_pos ?_)
  simpa [tgtSeq, and_assoc] using h1

/-- WAITGOOD begins (R353). -/
theorem State.stepWait_waits (h : s.atStep 3 = some w)
    (h1 : ¬ ((stTgt w < 12 ∧ (s.core.holdSet (stTgt w)).held = true) ∨ (0x10 ≤ stTgt w ∧ stTgt w < 0x20 ∧ s.core.seqRole (stTgt w - 0x10) ≠ 2))) :
    s.stepWait = s.onCore (fun c => { c with bkh := { c.bkh with wait := .good (stTgt w) (stFlg w % 2 = 1) } }) := by
  unfold State.stepWait
  rw [h]
  refine congrArg (fun c => ({ s with core := c } : State)) (if_neg ?_)
  simpa [tgtSeq, and_assoc] using h1

/-- REPORT (R350, R363). -/
theorem State.stepReport_eq (h : s.atStep 7 = some w) :
    s.stepReport =
      (let v := if 2 ≤ stFlg w then s.peek (stDat w / 256 % 256) (stDat w % 256) else 0
       let c := s.core.crumb 3 6 ([BitVec.ofNat 8 (stArg w % 256)] ++ (if 2 ≤ stFlg w then wordBytes v else [])) (some s.core.time.toNat)
       if stFlg w % 2 = 1 then ((s.onCore (fun _ => c)).queueRecord 4 (stArg w % 256) v).onCore Core.nextStep
       else s.onCore (fun _ => c.nextStep)) := by
  unfold State.stepReport
  rw [h]
  dsimp only
  by_cases h1 : stFlg w % 2 = 1
  · rw [if_pos h1, if_pos h1]; simp only [decide_eq_true_eq]; rfl
  · rw [if_neg h1, if_neg h1]; simp only [decide_eq_true_eq]; rfl

/-- What ENABLE does to a rail or a channel (R351, R353). -/
theorem Core.stepOn_eq (c : Core) (t : Nat) (on soft : Bool) :
    c.stepOn t on soft =
      (let d := if t < 8 then c.writeEn t on soft true else c.xWriteEn (t - 8) on
       if on && (d.holdSet t).held then d.setFF.bakeFail 1 1 d.bkh.step else d) := by
  have e : (if tgtRail t then c.writeEn t on soft true else c.xWriteEn (t - 8) on) = if t < 8 then c.writeEn t on soft true else c.xWriteEn (t - 8) on := by
    by_cases h : t < 8
    · rw [if_pos h, if_pos (show tgtRail t = true from decide_eq_true h)]
    · rw [if_neg h, if_neg (by unfold tgtRail; simpa using h)]
  unfold Core.stepOn
  rw [e]
  rfl

theorem Core.stepPin_other (c : Core) (i : Nat) (on : Bool) (h : c.seqRole i ≠ 1) : c.stepPin i on = c.setFF.bakeFail 1 1 c.bkh.step := by
  unfold Core.stepPin; exact if_pos h

theorem Core.stepPin_out (c : Core) (i : Nat) (on : Bool) (h : c.seqRole i = 1) :
    c.stepPin i on = if on then c.seqDrive i true else (c.seqDrive i false).unwatchPaired i := by
  unfold Core.stepPin; exact if_neg (by simpa using h)

/-- CTRL of BKH holds no field that a write keeps. -/
theorem Core.bkhCtrl_keeps (c : Core) (w : Word) : c.putFields pgBKH .bkh 4 w = c := rfl

theorem State.writePage_bkh (s : State) (off : Nat) (w : Word) : s.writePage pgBKH off w = s.writeBkh off w := rfl

/-- The requests of BKH_CTRL read 0 when the register is written back. -/
theorem bkh_ctrl_word (c : Core) (i m : Nat) (hi : i < 3) (hm : m < 3) : bitOf (setBits (c.wordOf pgBKH 4) i 1 1) m = decide (m = i) := by
  by_cases h : m = i
  · subst h; rw [bitOf_setBits_one _ _ _ (by omega)]; simp
  · rw [bitOf_setBits_other _ _ _ _ _ (by omega) (by omega), bitOf_wordOf _ _ _ (show kindOf pgBKH = some .bkh from rfl),
      (by decide +kernel : ∀ m < 3, ((fieldsAt PageKind.bkh 4).any fun f => f.acc = Access.w1s && f.lo ≤ m && m < f.lo + f.len) = true) m hm]
    simp [h]

/-- A write of BKH_CTRL (R355, R361). -/
theorem State.writeBkh_ctrl (s : State) (w : Word) : s.writeBkh 4 w =
    (let s := if bitOf w 0 then s.onCore Core.runSvc else s
     let s := if bitOf w 1 then s.onCore Core.parkRequest else s
     if bitOf w 2 then s.abortProg else s) := by
  have e : s.onCore (fun c => c.putFields pgBKH .bkh 4 w) = s := rfl
  unfold State.writeBkh
  rw [e]
  rfl

/-- One request of BKH_CTRL written by a host. -/
theorem State.bkhCtrl_write {s : State} (h : s.serviceRuns = true) (f : Field) (h1 : f.off = 4) (h2 : f.len = 1) (h3 : f.lo < 3) :
    s.fieldWrite pgBKH f 1 = ((s.writeBkh 4 (setBits (s.core.wordOf pgBKH 4) f.lo 1 1)).rest).frameEnd := by
  rw [State.fieldWrite, State.regWrite_eq h _ _ (by decide), State.writeNow_eq _ _ (.inl (by decide)), h1, h2,
    State.writeReg_ctrl _ _ _ (Core.wordOf_prst _ _ _ _ _ (by omega)), State.writePage_bkh]

/-- RUNSVC (R355). -/
theorem State.bkh_runSvc {s : State} (h : s.serviceRuns = true) : s.fieldWrite pgBKH BKH_CTRL_RUNSVC 1 = s.wrote s.core.runSvc := by
  rw [State.bkhCtrl_write h _ rfl rfl (by decide), State.writeBkh_ctrl]
  have e (m : Nat) (hm : m < 3) := bkh_ctrl_word s.core 0 m (by decide) hm
  show State.frameEnd (State.rest _) = _
  rw [show bitOf (setBits (s.core.wordOf pgBKH 4) BKH_CTRL_RUNSVC.lo 1 1) 0 = true from e 0 (by decide),
    show bitOf (setBits (s.core.wordOf pgBKH 4) BKH_CTRL_RUNSVC.lo 1 1) 1 = false from e 1 (by decide),
    show bitOf (setBits (s.core.wordOf pgBKH 4) BKH_CTRL_RUNSVC.lo 1 1) 2 = false from e 2 (by decide)]
  rfl

/-- PARK (R361). -/
theorem State.bkh_park {s : State} (h : s.serviceRuns = true) : s.fieldWrite pgBKH BKH_CTRL_PARK 1 = s.wrote s.core.parkRequest := by
  rw [State.bkhCtrl_write h _ rfl rfl (by decide), State.writeBkh_ctrl]
  have e (m : Nat) (hm : m < 3) := bkh_ctrl_word s.core 1 m (by decide) hm
  rw [show bitOf (setBits (s.core.wordOf pgBKH 4) BKH_CTRL_PARK.lo 1 1) 0 = false from e 0 (by decide),
    show bitOf (setBits (s.core.wordOf pgBKH 4) BKH_CTRL_PARK.lo 1 1) 1 = true from e 1 (by decide),
    show bitOf (setBits (s.core.wordOf pgBKH 4) BKH_CTRL_PARK.lo 1 1) 2 = false from e 2 (by decide)]
  rfl

/-- ABORT (R355). -/
theorem State.bkh_abort {s : State} (h : s.serviceRuns = true) : s.fieldWrite pgBKH BKH_CTRL_ABORT 1 = s.abortProg.rest.frameEnd := by
  rw [State.bkhCtrl_write h _ rfl rfl (by decide), State.writeBkh_ctrl]
  have e (m : Nat) (hm : m < 3) := bkh_ctrl_word s.core 2 m (by decide) hm
  rw [show bitOf (setBits (s.core.wordOf pgBKH 4) BKH_CTRL_ABORT.lo 1 1) 0 = false from e 0 (by decide),
    show bitOf (setBits (s.core.wordOf pgBKH 4) BKH_CTRL_ABORT.lo 1 1) 1 = false from e 1 (by decide),
    show bitOf (setBits (s.core.wordOf pgBKH 4) BKH_CTRL_ABORT.lo 1 1) 2 = true from e 2 (by decide)]
  rfl

/-- A park request is taken (R361). -/
theorem Core.parkRequest_eq (c : Core) (h1 : c.bkh.park = false) (h2 : c.bkh.parking = false) :
    c.parkRequest = (let d : Core := { c with bkh := { c.bkh with park := true } }
      if c.bkh.running then d else d.startProg 1 (!d.progPresent 1)) := by
  unfold Core.parkRequest
  exact if_neg (by rw [h1, h2]; decide)

/-- A WAITGOOD ends (R354, R359). -/
theorem State.waitSatisfied_eq {s : State} {t : Nat} {want : Bool} (h : s.serviceRuns = true) (h1 : s.core.bkh.wait = .good t want)
    (h2 : s.core.bkh.running = true) (h3 : s.core.goodBit t = want) :
    s.waitSatisfied = s.onCore (fun c =>
      let c := c.nextStep
      if tgtSeq t && want then ({ c with bkh := { c.bkh with watch := c.bkh.watch ||| (1#16 <<< (t - 0x10)) } } : Core).syncWatch else c) := by
  unfold State.waitSatisfied
  rw [h1]
  exact if_neg (by rw [h, h2, decide_eq_false (by simpa using h3)]; decide)

/-- A WAITGOOD times out (R354). -/
theorem State.waitTimeout_eq {s : State} {t : Nat} {want : Bool} (h : s.serviceRuns = true) (h1 : s.core.bkh.wait = .good t want)
    (h2 : s.core.bkh.running = true) (h3 : s.core.goodBit t ≠ want) :
    s.waitTimeout = s.onCore (fun c => ((c.setFF.raise pgBKH 3).send 0x49 0 (mkAddr 0xE c.bkh.step)).nextStep) := by
  unfold State.waitTimeout
  rw [h1]
  exact if_neg (by rw [h, h2, decide_eq_false h3]; decide)

/-- A wait of the default DOWN ends (R356). -/
theorem State.defaultWaitEnd_rails {s : State} (h : s.serviceRuns = true) (h1 : s.core.bkh.wait = .railsOff) (h2 : s.core.bkh.running = true) :
    s.defaultWaitEnd = s.channelsOff := by
  unfold State.defaultWaitEnd
  rw [h1]
  exact if_neg (by rw [h, h2]; decide)
theorem State.defaultWaitEnd_pin {s : State} (h : s.serviceRuns = true) (h1 : s.core.bkh.wait = .outPin) (h2 : s.core.bkh.running = true) :
    s.defaultWaitEnd = s.releaseNext := by
  unfold State.defaultWaitEnd
  rw [h1]
  exact if_neg (by rw [h, h2]; decide)

/-- The next pin is released (R356). -/
theorem State.releaseNext_more (s : State) {i : Nat} (h1 : s.core.lastDriven = some i) (h2 : (s.core.seqDrive i false).lastDriven.isSome = true) :
    s.releaseNext = s.onCore (fun c => let d := c.seqDrive i false; { d with bkh := { d.bkh with wait := .outPin } }) := by
  unfold State.releaseNext
  rw [h1]
  exact if_pos h2
theorem State.releaseNext_last (s : State) {i : Nat} (h1 : s.core.lastDriven = some i) (h2 : (s.core.seqDrive i false).lastDriven.isSome = false) :
    s.releaseNext = (s.onCore (fun c => c.seqDrive i false)).programEnds := by
  unfold State.releaseNext
  rw [h1]
  exact if_neg (by rw [show (s.onCore (fun c => c.seqDrive i false)).core.lastDriven.isSome = false from h2]; decide)

end Sys2Proof.Machine
end

