-- ==== Sys2Proof/Laws/Bus.lean ====
section
/-! SUPPORT. What the operations of the command engine can do: buses, requesters, items and records. -/
namespace Sys2Proof.Machine

theorem vget_vmod_same {α : Type} {n : Nat} (v : Vector α n) {i : Nat} (f : α → α) (d : α) (h : i < n) :
    vget (vmod v i f) i d = f (vget v i d) := by
  simp [vget, vmod, h]

theorem vget_vmod_other {α : Type} {n : Nat} (v : Vector α n) {i j : Nat} (f : α → α) (d : α) (h : i ≠ j) :
    vget (vmod v i f) j d = vget v j d := by
  unfold vget vmod
  split
  · rw [Vector.getElem?_set_ne _ h]
  · rfl

theorem Core.bus_modBus (c : Core) {b : Nat} (f : Bus → Bus) (h : b < 2) : (c.modBus b f).bus b = f (c.bus b) :=
  vget_vmod_same _ _ _ h

/-- A new target that is refused (R137, R138). -/
theorem Core.entdaa_refused (c : Core) {b : Nat} (hj : Bool) (t : Target) (da : Nat) (hb : b < 2)
    (h1 : (List.range 64).find? (fun i => (c.ctx i).st = 1 && (c.ctx i).bus = b && (c.ctx i).pid = t.pid % 2 ^ 48) = none)
    (h2 : c.freeDa b = some da) (h3 : (t.bcr.testBit 1 && t.bcr.testBit 2 && t.mrlOk) = false) :
    c.entdaa b hj [t] = ((c.modBus b (fun x => { x with refused := x.refused ++ [da] })).raise pgHST (22 + b)).syncDa := by
  have e : ((((c.modBus b (fun x => { x with refused := x.refused ++ [da] })).raise pgHST (22 + b)).bus b).refused.length =
      (c.bus b).refused.length) = False := by
    have : ((c.modBus b (fun x => { x with refused := x.refused ++ [da] })).raise pgHST (22 + b)).bus b =
        (c.modBus b (fun x => { x with refused := x.refused ++ [da] })).bus b := by rw [Core.bus, Core.raise_cmd]; rfl
    rw [this, Core.bus_modBus _ _ hb]
    simp
  simp only [Core.entdaa, List.foldl, h1, h2, Core.admitTarget, h3, Bool.not_false, if_true, e, decide_false, Bool.and_false,
    Bool.false_eq_true, if_false]

/-- A new target that is admitted (R137, R138). -/
theorem Core.entdaa_admitted (c : Core) {b : Nat} (hj : Bool) (t : Target) (da i : Nat)
    (h1 : (List.range 64).find? (fun i => (c.ctx i).st = 1 && (c.ctx i).bus = b && (c.ctx i).pid = t.pid % 2 ^ 48) = none)
    (h2 : c.freeDa b = some da) (h3 : (t.bcr.testBit 1 && t.bcr.testBit 2 && t.mrlOk) = true)
    (h4 : (List.range 64).find? (fun i => (c.ctx i).st = 0) = some i) :
    c.entdaa b hj [t] =
      (let d := c.modCtx i (fun _ => { st := 1, bus := b, da := da, pid := t.pid % 2 ^ 48, bcr := t.bcr % 256, dcr := t.dcr % 256 })
       (if hj then d.raise pgHST (16 + b) else d).syncDa) := by
  have e : ∀ f : Ctx → Ctx, (((c.modCtx i f).bus b).refused.length = (c.bus b).refused.length) = True := fun f => eq_true rfl
  simp only [Core.entdaa, List.foldl, h1, h2, Core.admitTarget, h3, h4, Bool.not_true, Bool.false_eq_true, if_false, e, decide_true,
    Bool.and_true]

/-- An in-band interrupt of an admitted requester (R142). -/
theorem Core.inBand_eq (c : Core) (b da : Nat) (mdb : Byte) (i : Nat) (h1 : (c.bus b).up = true) (h0 : (c.bus b).reading = none)
    (h2 : c.flag pgHST (HST_I3CCFG_IBIEN b) = true) (h3 : c.ctxOfDa b da = some i) :
    c.inBand b da mdb = if mdb.toNat = 0 || 32 ≤ mdb.toNat then c.raise pgHST (20 + b) else c.setPending b i da mdb.toNat := by
  simp only [Core.inBand, h1, h0, h2, h3, Option.isSome_none, Bool.not_true, Bool.or_self, Bool.false_eq_true, if_false, Core.setPending]

/-! ## Replies to an item read -/

theorem Core.setPending_rpr (c : Core) (b ctx da k : Nat) : (c.setPending b ctx da k).rpr = c.rpr := by
  unfold Core.setPending
  split <;> rfl

theorem Core.readByte_rpr (c : Core) (l : List Byte) (i : Nat) : (c.readByte l i).2.rpr = c.rpr := by
  unfold Core.readByte
  split <;> rfl

theorem Core.setLevel_rpr (c : Core) (pg bit : Nat) (b : Bool) : (c.setLevel pg bit b).rpr = c.rpr := by
  unfold Core.setLevel
  dsimp only
  split
  · rw [Core.raise_rpr]; rfl
  · rfl

/-- A new tag leaves self-repair and the freeze alone. -/
theorem Core.newTag_rpr (c : Core) (b ctx da : Nat) (l : List Byte) (trust : Bool) : (c.newTag b ctx da l trust).2.rpr = c.rpr := by
  unfold Core.newTag
  extract_lets t o q d n pid x e f g k
  have h1 : k.rpr = d.rpr := by simp only [k, Core.setFld_rpr, Core.incWrap_rpr]; rfl
  have h2 : d.rpr = c.rpr := by simp [d, q, o, Core.readByte_rpr]
  unfold Core.syncTags
  rw [Core.setLevel_rpr, Core.setPending_rpr, h1, h2]

/-- Outside a freeze an item fails at once by what its read has shown. -/
theorem State.check_fails {s : State} (h : s.core.rpr.depth = 0) (t st code : Nat) (l : List Byte) :
    s.check t (some (st, code)) l = s.onCore (fun c => c.failItem t st code false) := by
  unfold State.check
  exact if_neg (by rw [h]; decide)

/-- Outside a freeze an item is checked at once. -/
theorem State.check_now {s : State} (h : s.core.rpr.depth = 0) (t : Nat) (l : List Byte) : s.check t none l = s.checkItem t l := by
  unfold State.check
  exact if_neg (by rw [h]; decide)

/-- An empty item (R144). -/
theorem State.itemReceived_empty (s : State) (b ctx da : Nat) (re : Bool) (l : List Byte)
    (h : (s.core.bus b).reading = some (ctx, da, re)) (h0 : l.head? = some 0) :
    s.itemReceived b (some l) =
      { s with core := ((((s.core.modBus b (fun x => { x with reading := none })).readEnds b ctx da).setPending b ctx da 0).afterRead b) } := by
  rw [State.itemReceived, h]
  exact if_pos h0

/-- An item of a read that a flush or a reset has marked (R169, R170). -/
theorem State.itemReceived_marked (s : State) (b ctx da : Nat) (re : Bool) (l : List Byte)
    (h : (s.core.bus b).reading = some (ctx, da, re)) (h0 : l.head? ≠ some 0)
    (h1 : (s.core.bus b).flushed = true ∨ s.core.cmd.resetDue = true) (hd : s.core.rpr.depth = 0) :
    s.itemReceived b (some l) =
      (let c := (s.core.modBus b (fun x => { x with reading := none })).readEnds b ctx da
       let p := c.newTag b ctx da l false
       { s with core := (if (s.core.bus b).flushed then p.2.failItem p.1 stABORTFLUSH 0 false else p.2).afterRead b }) := by
  rw [State.itemReceived, h]
  have e : ((s.core.modBus b (fun x => { x with reading := none })).readEnds b ctx da).cmd.resetDue = s.core.cmd.resetDue := rfl
  refine (if_neg h0).trans ((if_pos (by rw [e, Bool.or_eq_true]; exact h1)).trans ?_)
  have d : ((((s.core.modBus b (fun x => { x with reading := none })).readEnds b ctx da).newTag b ctx da l false).2).rpr.depth = 0 := by
    rw [Core.newTag_rpr]; exact hd
  dsimp only
  rw [State.check_fails (by exact d)]
  split <;> rfl

/-- An item of a read that nothing has marked (R143, R144, R147). -/
theorem State.itemReceived_item (s : State) (b ctx da : Nat) (re : Bool) (l : List Byte)
    (h : (s.core.bus b).reading = some (ctx, da, re)) (h0 : l.head? ≠ some 0) (h1 : (s.core.bus b).flushed = false)
    (h2 : s.core.cmd.resetDue = false) (hd : s.core.rpr.depth = 0) :
    s.itemReceived b (some l) =
      (let tries := (((s.core.bus b).rereads.find? (fun r => r.ctx = ctx && r.da = da)).map (·.tries)).getD 0
       let c := (s.core.modBus b (fun x => { x with reading := none })).readEnds b ctx da
       let badLen := !(l.length = 16 && !(byteAt l 0).getLsbD 5) && !(l.length = 32 && (byteAt l 0).getLsbD 5)
       if badLen || crc8 (l.take 15) ≠ byteAt l 15 then
         if tries < c.retries then
           { s with core := (c.modBus b (fun x => { x with rereads := x.rereads ++ [⟨ctx, da, tries + 1, badLen⟩] })).afterRead b }
         else
           let p := c.newTag b ctx da l false
           { s with core := (p.2.failItem p.1 stFAILED (if badLen then cdBADLEN else cdITEMCRC) false).afterRead b }
       else
         let p := c.newTag b ctx da l true
         ({ s with core := p.2 }.checkItem p.1 l).onCore (fun c => c.afterRead b)) := by
  rw [State.itemReceived, h]
  have e : ((s.core.modBus b (fun x => { x with reading := none })).readEnds b ctx da).cmd.resetDue = s.core.cmd.resetDue := rfl
  refine (if_neg h0).trans ((if_neg (by rw [e, h1, h2]; decide)).trans ?_)
  have d (t : Bool) : ((((s.core.modBus b (fun x => { x with reading := none })).readEnds b ctx da).newTag b ctx da l t).2).rpr.depth = 0 := by
    rw [Core.newTag_rpr]; exact hd
  dsimp only
  rw [State.check_fails (by exact d false), State.check_now (by exact d true)]
  rfl

/-! ## Items applied -/

/-- A voltage item after its vote, with its flags (R157). -/
def Core.voted (c : Core) (t opc : Nat) : Core :=
  let d := c.castVote t
  d.modItem t (fun y => { y with
    flags := 0x10 * b2n (opc ≠ opVREL && d.fld (pgV (c.item t).rail) V_VMAX_CODE < (c.item t).arg0 % 4096) +
      0x20 * b2n (d.win (c.item t).rail = c.win (c.item t).rail) })

/-- What a voltage item does on its turn (R159). -/
theorem Core.applyVolt_eq (c : Core) (t opc : Nat) (h : c.turnOf t opc = true) :
    c.applyVolt t opc =
      if (c.castVote t).win (c.item t).rail = c.win (c.item t).rail then (c.voted t opc).completeItem t stDONE 0
      else match ((c.voted t opc).rail (c.item t).rail).rstate with
        | .off | .precheck | .softoff => (c.voted t opc).completeItem t stDONE 0
        | .safe => (c.voted t opc).completeItem t stFAILED cdRAILSAFE
        | _ => (c.voted t opc).modItem t (fun y => { y with phase := 3 }) := by
  unfold Core.applyVolt
  rw [if_neg (by rw [h]; decide)]
  rfl

theorem Core.applyVolt_done (c : Core) (t opc : Nat) (h : c.turnOf t opc = true)
    (h1 : (c.castVote t).win (c.item t).rail = c.win (c.item t).rail ∨ ((c.voted t opc).rail (c.item t).rail).rstate = .off ∨
      ((c.voted t opc).rail (c.item t).rail).rstate = .precheck ∨ ((c.voted t opc).rail (c.item t).rail).rstate = .softoff) :
    c.applyVolt t opc = (c.voted t opc).completeItem t stDONE 0 := by
  rw [Core.applyVolt_eq _ _ _ h]
  rcases h1 with h1 | h1 | h1 | h1
  · rw [if_pos h1]
  all_goals rw [h1]; exact ite_self _

theorem Core.applyVolt_safe (c : Core) (t opc : Nat) (h : c.turnOf t opc = true)
    (h1 : ¬(c.castVote t).win (c.item t).rail = c.win (c.item t).rail) (h2 : ((c.voted t opc).rail (c.item t).rail).rstate = .safe) :
    c.applyVolt t opc = (c.voted t opc).completeItem t stFAILED cdRAILSAFE := by
  rw [Core.applyVolt_eq _ _ _ h, if_neg h1, h2]

theorem Core.applyVolt_waits (c : Core) (t opc : Nat) (h : c.turnOf t opc = true)
    (h1 : ¬(c.castVote t).win (c.item t).rail = c.win (c.item t).rail)
    (h2 : ((c.voted t opc).rail (c.item t).rail).rstate = .proof ∨ ((c.voted t opc).rail (c.item t).rail).rstate = .hold ∨
      ((c.voted t opc).rail (c.item t).rail).rstate = .slew) :
    c.applyVolt t opc = (c.voted t opc).modItem t (fun y => { y with phase := 3 }) := by
  rw [Core.applyVolt_eq _ _ _ h, if_neg h1]
  rcases h2 with h2 | h2 | h2 <;> rw [h2]

/-- What a PHREQ does on its turn (R132). -/
theorem Core.applyPhreq_eq (c : Core) (t : Nat) (h : c.turnOf t opPHREQ = true) :
    c.applyPhreq t =
      (let x := c.item t
       let d := (c.setFld (pgV x.rail) V_SHEDCFG_NREQ (x.arg0 % 256)).retarget x.rail true
       match (d.rail x.rail).rstate with
       | .off | .precheck | .softoff => d.completeItem t stDONE 0
       | .safe => d.completeItem t stFAILED cdRAILSAFE
       | _ =>
         if (d.rail x.rail).ntarget = (c.rail x.rail).ntarget ||
             ((d.rail x.rail).ntarget = (d.rail x.rail).nact && (d.rail x.rail).tstate = 0) then d.completeItem t stDONE 0
         else d.modItem t (fun y => { y with phase := 3 })) := by
  unfold Core.applyPhreq
  exact if_neg (by rw [h]; decide)

/-- A PHREQ that completes at once, fails or waits (R132). -/
theorem Core.applyPhreq_cases (c : Core) (t : Nat) (h : c.turnOf t opPHREQ = true) {d : Core} (r : Rail)
    (hd : (c.setFld (pgV (c.item t).rail) V_SHEDCFG_NREQ ((c.item t).arg0 % 256)).retarget (c.item t).rail true = d)
    (hr : d.rail (c.item t).rail = r) :
    (r.rstate = .off ∨ r.rstate = .precheck ∨ r.rstate = .softoff → c.applyPhreq t = d.completeItem t stDONE 0) ∧
    (r.rstate = .safe → c.applyPhreq t = d.completeItem t stFAILED cdRAILSAFE) ∧
    (r.rstate = .proof ∨ r.rstate = .hold ∨ r.rstate = .slew → (r.ntarget = (c.rail (c.item t).rail).ntarget ∨ (r.ntarget = r.nact ∧ r.tstate = 0)) →
      c.applyPhreq t = d.completeItem t stDONE 0) ∧
    (r.rstate = .proof ∨ r.rstate = .hold ∨ r.rstate = .slew → ¬(r.ntarget = (c.rail (c.item t).rail).ntarget ∨ (r.ntarget = r.nact ∧ r.tstate = 0)) →
      c.applyPhreq t = d.modItem t (fun y => { y with phase := 3 })) := by
  subst hd hr
  rw [Core.applyPhreq_eq _ _ h]
  refine ⟨fun h1 => ?_, fun h1 => ?_, fun h1 h2 => ?_, fun h1 h2 => ?_⟩
  · rcases h1 with h1 | h1 | h1 <;> simp only [h1]
  · simp only [h1]
  · rcases h1 with h1 | h1 | h1 <;> simp only [h1] <;> exact if_pos (by simpa using h2)
  · rcases h1 with h1 | h1 | h1 <;> simp only [h1] <;> exact if_neg (by simpa using h2)

/-- An AUWR that revokes keys (R387). -/
theorem State.applyAuwr_revoke (s : State) (t : Nat) (h : s.core.turnOf t opAUWR = true) (h1 : (s.core.item t).arg0 = pgSEC * 256 + 0x4C) :
    s.applyAuwr t =
      (let u := s.revoke (s.core.item t).arg2
       let back := (List.range 4).foldl (fun a k => a + b2n (u.keyRev k) * 2 ^ k) 0
       u.onCore (fun c => c.finishItem t stDONE 0 true (back % 65536, back / 65536))) := by
  unfold State.applyAuwr
  rw [if_neg (by rw [h]; decide)]
  simp only [h1, if_true]

/-- An AUWR of the least version (R395). -/
theorem State.applyAuwr_minver (s : State) (t : Nat) (h : s.core.turnOf t opAUWR = true) (h1 : (s.core.item t).arg0 = pgNVM * 256 + 0x2C) :
    s.applyAuwr t =
      (let d := if s.core.fld pgNVM NVM_MINVER_MINVER ≤ (s.core.item t).arg2 then
         (s.core.setFld pgNVM NVM_MINVER_MINVER (s.core.item t).arg2).wantCtl (fun y => { y with minver := (s.core.item t).arg2 }) else s.core
       let back := (d.reg pgNVM 0x2C).toNat
       { s with core := d.finishItem t stDONE 0 true (back % 65536, back / 65536) }) := by
  unfold State.applyAuwr
  rw [if_neg (by rw [h]; decide)]
  have e : ¬(pgNVM * 256 + 0x2C = pgSEC * 256 + 0x4C) := by decide
  simp only [h1, e, if_false, if_true, State.onCore]
  rfl

/-- An AUWR that erases the log (R395). -/
theorem State.applyAuwr_erase (s : State) (t : Nat) (h : s.core.turnOf t opAUWR = true) (h1 : (s.core.item t).arg0 = pgNVM * 256 + 0x74) :
    s.applyAuwr t =
      (let d := if (s.core.item t).arg2 % 2 = 1 then s.core.eraseLog else s.core
       let back := (d.reg pgNVM 0x74).toNat
       { s with core := d.finishItem t stDONE 0 true (back % 65536, back / 65536) }) := by
  unfold State.applyAuwr
  rw [if_neg (by rw [h]; decide)]
  have e : ¬(pgNVM * 256 + 0x74 = pgSEC * 256 + 0x4C) := by decide
  have e' : ¬(pgNVM * 256 + 0x74 = pgNVM * 256 + 0x2C) := by decide
  simp only [h1, e, e', if_false, State.onCore]
  rfl

/-! ## Records and polls -/

/-- A bus with no read in progress, while no reset of the engine waits, is idle. -/
theorem Core.busIdle_of {c : Core} {b : Nat} (h : (c.bus b).reading = none) (h' : c.cmd.resetDue = false) : c.busIdle b = true := by
  rw [Core.busIdle, h, h']; rfl

/-- An attempt to write the record at the head of a queue (R162, R164). -/
theorem State.recordWrite_eq (s : State) (b t : Nat) (rest : List Nat) (first ack : Bool) (h1 : (s.core.bus b).up = true)
    (h2 : s.core.busIdle b = true) (h3 : (s.core.bus b).queue = t :: rest)
    (h4 : first = true ↔ (s.core.bus b).attempts = 0) :
    s.recordWrite b first ack =
      (let x := s.core.item t
       let d := if first && x.signed then s.core.countMac else s.core
       let d := { d with cmd := { d.cmd with sent := (b, x.da, s.recordSent t) :: d.cmd.sent.filter (fun p => p.1 ≠ b) } }
       let d := d.modItem t (fun y => { y with phase := 5 })
       if ack then { s with core := ((d.modBus b (fun q => { q with queue := rest, attempts := 0 })).freeTag t).pullQueue b }
       else
         let e := (d.countNack b).modBus b (fun q => { q with attempts := q.attempts + 1 })
         { s with core := if e.retries < (e.bus b).attempts then e.depart b x.ctx x.da else e }) := by
  simp only [State.recordWrite, h3]
  exact if_neg (by simp [h1, h2, h4])

/-- A poll of a requester while no record write and no item read is due (R145, R165). -/
theorem Core.poll_eq (c : Core) (b da ctx : Nat) (reply : Option Word) (again : Bool) (h1 : c.ctxOfDa b da = some ctx)
    (h2 : (c.bus b).up = true) (h3 : c.busIdle b = true) (h4 : ((c.bus b).polls.find? (fun p => p.1 = da)).isSome = again)
    (h5 : again = false → c.fld pgCMD CMD_CFG_POLL ≠ 0) (h6 : c.writeDue b = false) (h7 : c.dueRead b = none) :
    c.poll b da reply again =
      (let d := c.modBus b (fun x => { x with polls := x.polls.filter (fun p => p.1 ≠ da) })
       match reply with
       | some _ => d
       | none =>
         let n := (((c.bus b).polls.find? (fun p => p.1 = da)).map (·.2)).getD 0 + 1
         let e := (d.countNack b).modBus b (fun x => { x with polls := x.polls ++ [(da, n)] })
         if e.retries < n then e.depart b ctx da else e) := by
  simp only [Core.poll, h1]
  refine if_neg ?_
  rw [h2, h3, h6, h7, Option.isSome_map, h4]
  cases again
  · simp [h5 rfl]
  · simp

/-- The place of an admitted requester is a context or the overflow list, which then holds it. -/
theorem Core.ctxOfDa_some {c : Core} {b da i : Nat} (h : c.ctxOfDa b da = some i) :
    i < 64 ∨ (i = 64 ∧ c.cmd.ovf.any (fun x => x.bus = b && x.da = da) = true) := by
  unfold Core.ctxOfDa at h
  split at h
  · rename_i j hj
    cases h
    exact .inl (List.mem_range.mp (List.mem_of_find?_eq_some hj))
  · split at h
    · cases h; exact .inr ⟨rfl, ‹_›⟩
    · cases h

/-- PENDING after it is set (R142). -/
theorem Core.pendingOf_setPending {c : Core} {b da i : Nat} (h : c.ctxOfDa b da = some i) (k : Nat) :
    (c.setPending b i da k).pendingOf b i da = k := by
  rcases Core.ctxOfDa_some h with hi | ⟨rfl, ho⟩
  · rw [Core.setPending, if_pos hi, Core.pendingOf, if_pos hi, Core.ctx, Core.modCtx]
    dsimp only
    rw [vget_vmod_same _ _ _ hi]
  · rw [Core.setPending, if_neg (by decide), Core.pendingOf, if_neg (by decide)]
    dsimp only
    revert ho
    generalize c.cmd.ovf = l
    induction l with
    | nil => simp
    | cons x t ih =>
      intro ho
      rw [List.map_cons, List.find?_cons]
      by_cases hx : (decide (x.bus = b) && decide (x.da = da)) = true
      · simp [hx]
      · rw [List.any_cons] at ho
        simp only [hx, Bool.false_eq_true, if_false, Bool.false_or] at ho ⊢
        exact ih ho

/-- The other contexts after PENDING is set. -/
theorem Core.setPending_ctx (c : Core) (b da i k : Nat) {j : Nat} (h : j ≠ i) : (c.setPending b i da k).ctx j = c.ctx j := by
  unfold Core.setPending
  split
  · exact vget_vmod_other _ _ _ (Ne.symm h)
  · rfl

end Sys2Proof.Machine
end

