-- ==== Sys2Proof/Laws/Closed.lean ====
section
/-! SUPPORT. What a command can do to the parts of the state outside the core, said once for every operation. -/
namespace Sys2Proof.Machine

/-- What every command but those of the supplies may do to the supplies and the always-on domain: the supplies stay, a copy
of the GRAVE latch that is set stays set, and a set latch keeps its message and its time (R338). -/
def Soft (p q : Power) : Prop :=
  q.good = p.good ∧ (p.graveD = true → q.graveD = true) ∧ (p.graveV = true → q.graveV = true) ∧
  (p.graveD = true ∨ p.graveV = true → q.graveMsg = p.graveMsg ∧ q.graveTime = p.graveTime)

/-- A predicate that every primitive change of the state keeps, but the changes of the supplies. -/
structure Closed (P : State → Prop) : Prop where
  upd : ∀ (s : State) (c : Core) (p : Power), P s → Soft s.pw p → P { core := c, pw := p, st := s.st, pending := s.pending }
  put : ∀ (s : State) (a : Nat) (b : Byte), P s → P (s.flashPut a b)
  erase : ∀ (s : State) (p : Nat), P s → P (s.flashErase p)
  bad : ∀ (s : State) (l : List Nat), P s → P (s.setBad l)
  burn : ∀ (s : State) (i : Nat) (w : Word), P s → P (s.otpBurn i w)

/-- A predicate applied to a state, so that rewriting finds it. -/
def Holds (P : State → Prop) (s : State) : Prop := P s

variable {P : State → Prop} {s : State}

@[simp] theorem holds_ite {c : Prop} [Decidable c] {a b : State} (ha : Holds P a) (hb : Holds P b) :
    Holds P (if c then a else b) := by split <;> assumption

theorem Soft.refl (p : Power) : Soft p p := ⟨rfl, id, id, fun _ => ⟨rfl, rfl⟩⟩

@[simp] theorem holds_core (hP : Closed P) (c : Core) (h : Holds P s) :
    Holds P { core := c, pw := s.pw, st := s.st, pending := s.pending } := hP.upd s c _ h (Soft.refl _)

@[simp] theorem holds_upd (hP : Closed P) (c : Core) (p : Power) (h : Holds P s) (hg : p.good = s.pw.good)
    (hd : s.pw.graveD = true → p.graveD = true) (hv : s.pw.graveV = true → p.graveV = true)
    (hm : s.pw.graveD = true ∨ s.pw.graveV = true → p.graveMsg = s.pw.graveMsg)
    (ht : s.pw.graveD = true ∨ s.pw.graveV = true → p.graveTime = s.pw.graveTime) :
    Holds P { core := c, pw := p, st := s.st, pending := s.pending } :=
  hP.upd s c p h ⟨hg, hd, hv, fun x => ⟨hm x, ht x⟩⟩

@[simp] theorem State.onCore_holds (hP : Closed P) (f : Core → Core) (h : Holds P s) : Holds P (s.onCore f) := hP.upd s _ _ h (Soft.refl _)

@[simp] theorem State.flashPut_holds (hP : Closed P) (a : Nat) (b : Byte) (h : Holds P s) : Holds P (s.flashPut a b) := hP.put s a b h

@[simp] theorem State.flashErase_holds (hP : Closed P) (p : Nat) (h : Holds P s) : Holds P (s.flashErase p) := hP.erase s p h

@[simp] theorem State.setBad_holds (hP : Closed P) (l : List Nat) (h : Holds P s) : Holds P (s.setBad l) := hP.bad s l h

@[simp] theorem State.otpBurn_holds (hP : Closed P) (i : Nat) (w : Word) (h : Holds P s) : Holds P (s.otpBurn i w) := hP.burn s i w h

theorem foldl_holds {α : Type} (l : List α) (f : State → α → State) (hf : ∀ s x, Holds P s → Holds P (f s x)) (h : Holds P s) :
    Holds P (l.foldl f s) := by
  induction l generalizing s with
  | nil => exact h
  | cons x t ih => exact ih (hf s x h)


@[simp] theorem State.flashWrite_holds (hP : Closed P) (a : Nat) (l : List Byte) (h : Holds P s) : Holds P (s.flashWrite a l) := by
  induction l generalizing s a with
  | nil => exact h
  | cons b t ih => exact ih _ (hP.put s a b h)

@[simp] theorem State.programStep_holds (hP : Closed P) (w : RecWrite) (h : Holds P s) : Holds P (s.programStep w) :=
  State.flashWrite_holds hP _ _ h

@[simp] theorem State.reportBad_holds (hP : Closed P) (a n : Nat) (h : Holds P s) : Holds P (s.reportBad a n) :=
  foldl_holds _ _ (fun _ _ ht => State.onCore_holds hP _ ht) h

@[simp] theorem State.writeMap_holds (hP : Closed P) (k : RecKind) (bytes : List Byte) (h : Holds P s) : Holds P (s.writeMap k bytes) := by
  unfold State.writeMap
  dsimp only
  split <;> exact State.onCore_holds hP _ (by simp [hP, h])

@[simp] theorem State.beginMap_holds (hP : Closed P) (k : RecKind) (m : RepairMap) (h : Holds P s) : Holds P (s.beginMap k m) :=
  State.writeMap_holds hP _ _ h

@[simp] theorem State.rewrite_holds (hP : Closed P) (w : RecWrite) (h : Holds P s) : Holds P (s.rewrite w) := by
  unfold State.rewrite
  split <;> first | exact State.onCore_holds hP _ h | exact State.writeMap_holds hP _ _ h

@[simp] theorem State.endHold_holds (hP : Closed P) (h : Holds P s) : Holds P s.endHold := by
  unfold State.endHold
  have h1 := State.onCore_holds hP (fun c => c.setLevel pgNVM 8 false) h
  dsimp only
  (repeat' split)
  · exact h1
  · exact h1
  · exact State.onCore_holds hP _ h1
  · exact State.rewrite_holds hP _ h1

@[simp] theorem State.scrubDone_holds (hP : Closed P) (p corr : Nat) (words : List Nat) (h : Holds P s) : Holds P (s.scrubDone p corr words) := by
  unfold State.scrubDone
  exact State.onCore_holds hP _ (State.setBad_holds hP _ h)

@[simp] theorem State.hostProgram_holds (hP : Closed P) (x : HostOp) (a : Nat) (h : Holds P s) : Holds P (s.hostProgram x a) := by
  refine foldl_holds _ _ (fun t i ht => ?_) h
  dsimp only
  split
  · exact ht
  · exact State.flashWrite_holds hP _ _ ht

@[simp] theorem State.commitRecord_holds (hP : Closed P) (w : RecWrite) (h : Holds P s) : Holds P (s.commitRecord w) := by
  unfold State.commitRecord
  (repeat' split) <;> simp (maxDischargeDepth := 40) [hP, h]

@[simp] theorem State.recordStep_holds (hP : Closed P) (h : Holds P s) : Holds P s.recordStep := by
  have h1 (w : RecWrite) := State.programStep_holds hP w h
  have h2 (w : RecWrite) (f : Core → Core) := State.onCore_holds hP f (h1 w)
  unfold State.recordStep
  split
  · exact h
  split
  · exact h
  dsimp only
  split
  · exact h2 _ _
  · exact State.commitRecord_holds hP _ (h2 _ _)

@[simp] theorem State.beginCtl_holds (hP : Closed P)  (h : Holds P s) : Holds P (s.beginCtl) := by
  unfold State.beginCtl
  simp (maxDischargeDepth := 40) [hP, h]

@[simp] theorem State.skipSector_holds (hP : Closed P) (l : Nat) (h : Holds P s) : Holds P (s.skipSector l) := by
  unfold State.skipSector
  dsimp only
  split
  · refine State.onCore_holds hP _ ?_
    split
    · exact State.onCore_holds hP _ (State.onCore_holds hP _ h)
    · exact State.onCore_holds hP _ (State.onCore_holds hP _ (State.onCore_holds hP _ h))
  split
  · exact State.onCore_holds hP _ (State.onCore_holds hP _ h)
  · exact State.onCore_holds hP _ h

@[simp] theorem State.retireSector_holds (hP : Closed P) (l : Nat) (failed : Bool) (h : Holds P s) : Holds P (s.retireSector l failed) := by
  unfold State.retireSector
  (repeat' split) <;> simp (maxDischargeDepth := 40) [hP, h]

@[simp] theorem State.eraseDone_holds (hP : Closed P) (ok : Bool) (h : Holds P s) : Holds P (s.eraseDone ok) := by
  unfold State.eraseDone
  (repeat' split) <;> simp (maxDischargeDepth := 40) [hP, h]

@[simp] theorem State.nvmGo_holds (hP : Closed P) (h : Holds P s) : Holds P s.nvmGo := by
  unfold State.nvmGo
  dsimp only
  (repeat' split) <;> exact State.onCore_holds hP _ h

@[simp] theorem State.nvmDone_holds (hP : Closed P) (h : Holds P s) : Holds P s.nvmDone := by
  unfold State.nvmDone
  dsimp only
  split
  · exact h
  split
  · exact h
  (repeat' split) <;> simp (maxDischargeDepth := 40) [hP, h]

@[simp] theorem State.scanSlot_holds (hP : Closed P) (i : Nat) (h : Holds P s) : Holds P (s.scanSlot i) := by
  unfold State.scanSlot
  dsimp only
  split
  · exact h
  split
  · exact State.onCore_holds hP _ (State.flashWrite_holds hP _ _ h)
  · exact State.onCore_holds hP _ (State.flashWrite_holds hP _ _ h)
  · exact h

@[simp] theorem State.scanLog_holds (hP : Closed P) (h : Holds P s) : Holds P s.scanLog := by
  unfold State.scanLog
  exact State.onCore_holds hP _ (foldl_holds _ _ (fun _ _ ht => State.scanSlot_holds hP _ ht)
    (foldl_holds _ _ (fun _ _ ht => State.reportBad_holds hP _ _ ht) h))

@[simp] theorem State.findHead_holds (hP : Closed P)  (h : Holds P s) : Holds P (s.findHead) := by
  unfold State.findHead
  simp (maxDischargeDepth := 40) [hP, h]

@[simp] theorem State.showKey_holds (hP : Closed P) (k : Nat) (h : Holds P s) : Holds P (s.showKey k) := by
  unfold State.showKey
  split <;> exact State.onCore_holds hP _ h

@[simp] theorem State.showKeys_holds (hP : Closed P) (h : Holds P s) : Holds P s.showKeys :=
  foldl_holds _ _ (fun _ k ht => State.showKey_holds hP k ht) h

@[simp] theorem State.keyGo_holds (hP : Closed P) (k : Nat) (h : Holds P s) : Holds P (s.keyGo k) := by
  unfold State.keyGo
  (repeat' split) <;> simp (maxDischargeDepth := 40) [hP, h]

@[simp] theorem State.imgAuthGo_holds (hP : Closed P) (k : Nat) (h : Holds P s) : Holds P (s.imgAuthGo k) := by
  unfold State.imgAuthGo
  (repeat' split) <;> simp (maxDischargeDepth := 40) [hP, h]

@[simp] theorem State.closeGo_holds (hP : Closed P)  (h : Holds P s) : Holds P (s.closeGo) := by
  unfold State.closeGo
  (repeat' split) <;> simp (maxDischargeDepth := 40) [hP, h]

@[simp] theorem State.revokeNow_holds (hP : Closed P) (mask : Nat) (h : Holds P s) : Holds P (s.revokeNow mask) := by
  unfold State.revokeNow
  refine State.onCore_holds hP _ (foldl_holds _ _ (fun t x ht => ?_) h)
  split
  · exact State.showKey_holds hP _ (State.otpBurn_holds hP _ _ ht)
  · exact ht

@[simp] theorem State.revoke_holds (hP : Closed P) (mask : Nat) (h : Holds P s) : Holds P (s.revoke mask) := by
  unfold State.revoke
  (repeat' split) <;> simp (maxDischargeDepth := 40) [hP, h]

@[simp] theorem State.burnInto_holds (hP : Closed P) (b : Burn) (h : Holds P s) : Holds P (s.burnInto b) := by
  cases b with
  | slot k key => exact State.otpBurn_holds hP _ _ (foldl_holds _ _ (fun _ _ ht => State.otpBurn_holds hP _ _ ht) h)
  | imgauth k => exact State.otpBurn_holds hP _ _ (State.otpBurn_holds hP _ _ h)
  | close => exact State.otpBurn_holds hP _ _ h
  | revoke m => exact h

@[simp] theorem State.burnShown_holds (hP : Closed P) (b : Burn) (h : Holds P s) : Holds P (s.burnShown b) := by
  cases b with
  | slot k key => exact State.showKey_holds hP k (State.onCore_holds hP _ h)
  | imgauth k => exact h
  | close => exact h
  | revoke m => exact h

@[simp] theorem State.revokeNext_holds (hP : Closed P) (h : Holds P s) : Holds P s.revokeNext := by
  unfold State.revokeNext
  split
  · exact State.revokeNow_holds hP _ (State.onCore_holds hP _ h)
  · exact h

@[simp] theorem State.burnDone_holds (hP : Closed P) (h : Holds P s) : Holds P s.burnDone := by
  unfold State.burnDone
  split
  · exact h
  · exact State.revokeNext_holds hP (State.burnShown_holds hP _ (State.onCore_holds hP _ (State.burnInto_holds hP _ h)))

@[simp] theorem State.stopBurn_holds (hP : Closed P) (h : Holds P s) : Holds P s.stopBurn := by
  unfold State.stopBurn
  split
  · exact foldl_holds _ _ (fun _ _ ht => State.otpBurn_holds hP _ _ ht) h
  · exact h

/-- A change of the core beside a soft change of the supplies' domain. -/
theorem holds_onCore_pw (hP : Closed P) (f : Core → Core) (p : Power) (h : Holds P s) (hp : Soft s.pw p) :
    Holds P { s.onCore f with pw := p } := hP.upd s (f s.core) p h hp

@[simp] theorem State.leaveSequencing_holds (hP : Closed P)  (h : Holds P s) : Holds P (s.leaveSequencing) := by
  unfold State.leaveSequencing
  split
  · split
    · exact holds_onCore_pw hP _ _ h ⟨rfl, id, id, fun _ => ⟨rfl, rfl⟩⟩
    · exact hP.upd s _ _ h ⟨rfl, id, id, fun _ => ⟨rfl, rfl⟩⟩
  · exact h

@[simp] theorem State.startUp_holds (hP : Closed P)  (h : Holds P s) : Holds P (s.startUp) := by
  unfold State.startUp
  simp (maxDischargeDepth := 40) [hP, h]

@[simp] theorem State.queueRecord_holds (hP : Closed P) (ty info : Nat) (msg : Word) (h : Holds P s) : Holds P (s.queueRecord ty info msg) := by
  unfold State.queueRecord
  simp (maxDischargeDepth := 40) [hP, h]

@[simp] theorem State.downEnded_holds (hP : Closed P)  (h : Holds P s) : Holds P (s.downEnded) := by
  unfold State.downEnded
  simp (maxDischargeDepth := 40) [hP, h]

@[simp] theorem State.afterProg_holds (hP : Closed P) (p : Nat) (aborted : Bool) (h : Holds P s) : Holds P (s.afterProg p aborted) := by
  unfold State.afterProg
  (repeat' split) <;> simp (maxDischargeDepth := 40) [hP, h]

@[simp] theorem State.abortProg_holds (hP : Closed P)  (h : Holds P s) : Holds P (s.abortProg) := by
  unfold State.abortProg
  (repeat' split) <;> simp (maxDischargeDepth := 40) [hP, h]

@[simp] theorem State.formReport_holds (hP : Closed P)  (h : Holds P s) : Holds P (s.formReport) := by
  unfold State.formReport
  simp (maxDischargeDepth := 40) [hP, h]

@[simp] theorem State.cutStep_holds (hP : Closed P) (w : RecWrite) (words : Nat) (h : Holds P s) : Holds P (s.cutStep w words) := by
  unfold State.cutStep
  dsimp only
  split
  · exact State.flashWrite_holds hP _ _ h
  · exact h

@[simp] theorem State.cutHost_holds (hP : Closed P) (words : Nat) (h : Holds P s) : Holds P (s.cutHost words) := by
  unfold State.cutHost
  (repeat' split) <;> simp (maxDischargeDepth := 40) [hP, h]

@[simp] theorem State.resetCore_holds (hP : Closed P) (supplyLost : Bool) (h : Holds P s) : Holds P (s.resetCore supplyLost) := by
  unfold State.resetCore
  (repeat' split) <;> simp (maxDischargeDepth := 40) [hP, h]

@[simp] theorem State.toWaking_holds (hP : Closed P) (cause : Nat) (byWake : Bool) (h : Holds P s) : Holds P (s.toWaking cause byWake) := by
  unfold State.toWaking
  simp (maxDischargeDepth := 40) [hP, h]

@[simp] theorem State.suppliesUp_holds (hP : Closed P)  (h : Holds P s) : Holds P (s.suppliesUp) := by
  unfold State.suppliesUp
  (repeat' split) <;> simp (maxDischargeDepth := 40) [hP, h]

@[simp] theorem State.wakeEdge_holds (hP : Closed P)  (h : Holds P s) : Holds P (s.wakeEdge) := by
  unfold State.wakeEdge
  (repeat' split) <;> simp (maxDischargeDepth := 40) [hP, h]

@[simp] theorem State.supplyGood_holds (hP : Closed P)  (h : Holds P s) : Holds P (s.supplyGood) := by
  unfold State.supplyGood
  (repeat' split) <;> simp (maxDischargeDepth := 40) [hP, h]

@[simp] theorem State.deviceReset_holds (hP : Closed P) (cause : Nat) (h : Holds P s) : Holds P (s.deviceReset cause) := by
  unfold State.deviceReset
  simp (maxDischargeDepth := 40) [hP, h]

@[simp] theorem State.rstLow_holds (hP : Closed P) (ns : Nat) (h : Holds P s) : Holds P (s.rstLow ns) := by
  unfold State.rstLow
  simp (maxDischargeDepth := 40) [hP, h]

@[simp] theorem State.rstHigh_holds (hP : Closed P)  (h : Holds P s) : Holds P (s.rstHigh) := by
  unfold State.rstHigh
  simp (maxDischargeDepth := 40) [hP, h]

@[simp] theorem State.softReset_holds (hP : Closed P)  (h : Holds P s) : Holds P (s.softReset) := by
  unfold State.softReset
  (repeat' split) <;> simp (maxDischargeDepth := 40) [hP, h]

@[simp] theorem State.wakeTimeout_holds (hP : Closed P)  (h : Holds P s) : Holds P (s.wakeTimeout) := by
  unfold State.wakeTimeout
  (repeat' split) <;> simp (maxDischargeDepth := 40) [hP, h]

@[simp] theorem State.toParked_holds (hP : Closed P)  (h : Holds P s) : Holds P (s.toParked) := by
  unfold State.toParked
  simp (maxDischargeDepth := 40) [hP, h]

@[simp] theorem State.copyThr_holds (hP : Closed P)  (h : Holds P s) : Holds P (s.copyThr) := by
  unfold State.copyThr
  simp (maxDischargeDepth := 40) [hP, h]

@[simp] theorem State.fanPeriod_holds (hP : Closed P)  (h : Holds P s) : Holds P (s.fanPeriod) := by
  unfold State.fanPeriod
  (repeat' split) <;> simp (maxDischargeDepth := 40) [hP, h]

@[simp] theorem State.checkItem_holds (hP : Closed P) (t : Nat) (l : List Byte) (h : Holds P s) : Holds P (s.checkItem t l) := by
  unfold State.checkItem
  dsimp only
  (repeat' split) <;> exact holds_core hP _ h

@[simp] theorem State.check_holds (hP : Closed P) (t : Nat) (why : Option (Nat × Nat)) (l : List Byte) (h : Holds P s) :
    Holds P (s.check t why l) := by
  unfold State.check
  (repeat' split)
  · exact State.onCore_holds hP _ h
  · exact State.onCore_holds hP _ h
  · exact State.checkItem_holds hP _ _ h

@[simp] theorem State.checkHeld_holds (hP : Closed P) (h : Holds P s) : Holds P s.checkHeld := by
  unfold State.checkHeld
  refine foldl_holds _ _ (fun t x ht => ?_) (State.onCore_holds hP _ h)
  split
  · exact State.check_holds hP _ _ _ ht
  · exact ht

@[simp] theorem State.itemReceived_holds (hP : Closed P) (b : Nat) (reply : Option (List Byte)) (h : Holds P s) :
    Holds P (s.itemReceived b reply) := by
  unfold State.itemReceived
  dsimp only
  have h1 (c : Core) : Holds P { core := c, pw := s.pw, st := s.st, pending := s.pending } := holds_core hP _ h
  (repeat' split) <;>
    first | exact h | exact h1 _ | exact State.onCore_holds hP _ (h1 _) | exact State.onCore_holds hP _ (State.check_holds hP _ _ _ (h1 _))

@[simp] theorem State.applyAuwr_holds (hP : Closed P) (t : Nat) (h : Holds P s) : Holds P (s.applyAuwr t) := by
  unfold State.applyAuwr
  (repeat' split) <;> simp (maxDischargeDepth := 40) [hP, h]

@[simp] theorem State.recordWrite_holds (hP : Closed P) (b : Nat) (first ack : Bool) (h : Holds P s) :
    Holds P (s.recordWrite b first ack) := by
  unfold State.recordWrite
  extract_lets c
  split
  · exact h
  split
  · exact h
  extract_lets x bytes c1 c2 c3
  clear_value c3
  split <;> exact holds_core hP _ h

@[simp] theorem State.syncFlt_holds (hP : Closed P)  (h : Holds P s) : Holds P (s.syncFlt) := by
  unfold State.syncFlt
  simp (maxDischargeDepth := 40) [hP, h]

@[simp] theorem State.bakeFault_holds (hP : Closed P) (h : Holds P s) : Holds P s.bakeFault := by
  unfold State.bakeFault
  refine State.onCore_holds hP _ ?_
  split
  · exact holds_onCore_pw hP _ _ h ⟨rfl, id, id, fun _ => ⟨rfl, rfl⟩⟩
  · exact h

@[simp] theorem State.deviceAction_holds (hP : Closed P) (src : Nat) (h : Holds P s) : Holds P (s.deviceAction src) := by
  unfold State.deviceAction
  generalize (fun c : Core => _) = g
  have h3 : Holds P (s.onCore g) := State.onCore_holds hP _ h
  generalize s.onCore g = t at h3
  have h4 : Holds P (t.onCore (fun c => (c.setLevel pgFLT 3 true).seqDevSafe)) := State.onCore_holds hP _ h3
  dsimp only
  split
  · exact h3
  split
  · exact State.bakeFault_holds hP h4
  · exact h4

theorem Soft.setGrave (p : Power) (msg t : Word) : Soft p (p.latchGrave msg t) := by
  unfold Power.latchGrave
  cases hg : p.grave
  · refine ⟨rfl, fun _ => rfl, fun _ => rfl, fun h => ?_⟩
    simp only [Power.grave, Bool.or_eq_false_iff] at hg
    simp [hg.1, hg.2] at h
  · exact ⟨rfl, fun _ => rfl, fun _ => rfl, fun _ => ⟨rfl, rfl⟩⟩

theorem onCore_if_pw (b : Prop) [Decidable b] (s : State) (f : Core → Core) : (if b then s.onCore f else s).pw = s.pw := by
  split <;> rfl

theorem Soft.enterGrave {p q : Power} (h : Soft p q) : Soft p q.enterGrave := h

@[simp] theorem State.setGrave_holds (hP : Closed P) (msg : Word) (h : Holds P s) : Holds P (s.setGrave msg) := by
  have hp := Soft.setGrave s.pw msg (BitVec.ofNat 32 s.core.time32)
  unfold State.setGrave
  extract_lets p s'
  have hp : Soft s.pw p := hp
  clear_value p
  have hs : Holds P s' := holds_ite (State.onCore_holds hP _ h) h
  have hw : s'.pw = s.pw := onCore_if_pw _ _ _
  clear_value s'
  refine hP.upd s' _ _ hs ?_
  rw [hw]
  split
  · exact hp.enterGrave
  · exact hp

@[simp] theorem State.reportMsg_holds (hP : Closed P) (w : Word) (cls : Nat) (h : Holds P s) : Holds P (s.reportMsg w cls) := by
  unfold State.reportMsg
  simp (maxDischargeDepth := 40) [hP, h]

@[simp] theorem State.classify_holds (hP : Closed P) (w : Word) (h : Holds P s) : Holds P (s.classify w) := by
  unfold State.classify
  simp (maxDischargeDepth := 40) [hP, h]

@[simp] theorem State.takeMessage_holds (hP : Closed P)  (h : Holds P s) : Holds P (s.takeMessage) := by
  unfold State.takeMessage
  (repeat' split) <;> simp (maxDischargeDepth := 40) [hP, h]

@[simp] theorem State.fltReg_holds (hP : Closed P)  (h : Holds P s) : Holds P (s.fltReg) := by
  unfold State.fltReg
  simp (maxDischargeDepth := 40) [hP, h]

@[simp] theorem State.freeDevice_holds (hP : Closed P)  (h : Holds P s) : Holds P (s.freeDevice) := by
  unfold State.freeDevice
  simp (maxDischargeDepth := 40) [hP, h]

@[simp] theorem State.release_holds (hP : Closed P) (tgt count : Nat) (h : Holds P s) : Holds P (s.release tgt count) := by
  unfold State.release
  (repeat' split) <;> simp (maxDischargeDepth := 40) [hP, h]

@[simp] theorem State.writeRel_holds (hP : Closed P) (w : Word) (h : Holds P s) : Holds P (s.writeRel w) := by
  unfold State.writeRel
  (repeat' split) <;> simp (maxDischargeDepth := 40) [hP, h]

@[simp] theorem State.writeClasses_holds (hP : Closed P) (i : Nat) (w : Word) (h : Holds P s) : Holds P (s.writeClasses i w) := by
  unfold State.writeClasses
  (repeat' split) <;> simp (maxDischargeDepth := 40) [hP, h]

@[simp] theorem State.fltPageReset_holds (hP : Closed P)  (h : Holds P s) : Holds P (s.fltPageReset) := by
  unfold State.fltPageReset
  simp (maxDischargeDepth := 40) [hP, h]

@[simp] theorem State.fsvPageReset_holds (hP : Closed P)  (h : Holds P s) : Holds P (s.fsvPageReset) := by
  unfold State.fsvPageReset
  (repeat' split) <;> simp (maxDischargeDepth := 40) [hP, h]

@[simp] theorem State.captureRack_holds (hP : Closed P) (h : Holds P s) : Holds P s.captureRack := by
  unfold State.captureRack
  exact State.onCore_holds hP _ h

@[simp] theorem State.enterObserve_holds (hP : Closed P) (byPin : Bool) (h : Holds P s) : Holds P (s.enterObserve byPin) := by
  unfold State.enterObserve
  simp (maxDischargeDepth := 40) [hP, h]

@[simp] theorem State.freezeHalt_holds (hP : Closed P)  (h : Holds P s) : Holds P (s.freezeHalt) := by
  unfold State.freezeHalt
  (repeat' split) <;> simp (maxDischargeDepth := 40) [hP, h]

@[simp] theorem State.recapture_holds (hP : Closed P)  (h : Holds P s) : Holds P (s.recapture) := by
  unfold State.recapture
  (repeat' split) <;> simp (maxDischargeDepth := 40) [hP, h]

@[simp] theorem State.thmPageReset_holds (hP : Closed P)  (h : Holds P s) : Holds P (s.thmPageReset) := by
  unfold State.thmPageReset
  simp (maxDischargeDepth := 40) [hP, h]

@[simp] theorem State.bkhPageReset_holds (hP : Closed P)  (h : Holds P s) : Holds P (s.bkhPageReset) := by
  unfold State.bkhPageReset
  simp (maxDischargeDepth := 40) [hP, h]

@[simp] theorem State.frameEnd_holds (hP : Closed P)  (h : Holds P s) : Holds P (s.frameEnd) := by
  unfold State.frameEnd
  split
  · exact h
  · have h1 : Holds P (if s.core.hst.resetDue then s.onCore Core.hstPageReset else s) := holds_ite (State.onCore_holds hP _ h) h
    exact holds_ite (State.deviceReset_holds hP _ h1) h1

@[simp] theorem State.pageReset_holds (hP : Closed P) (pg : Nat) (h : Holds P s) : Holds P (s.pageReset pg) := by
  unfold State.pageReset
  (repeat' split) <;> simp (maxDischargeDepth := 40) [hP, h]

@[simp] theorem State.programEnds_holds (hP : Closed P)  (h : Holds P s) : Holds P (s.programEnds) := by
  unfold State.programEnds
  simp (maxDischargeDepth := 40) [hP, h]

@[simp] theorem State.releaseNext_holds (hP : Closed P)  (h : Holds P s) : Holds P (s.releaseNext) := by
  have h1 : Holds P (match s.core.lastDriven with
      | some i => s.onCore (fun c => c.seqDrive i false)
      | none => s) := by split; exact State.onCore_holds hP _ h; exact h
  exact holds_ite (State.onCore_holds hP _ h1) (State.programEnds_holds hP h1)

@[simp] theorem State.channelsOff_holds (hP : Closed P)  (h : Holds P s) : Holds P (s.channelsOff) := by
  unfold State.channelsOff
  simp (maxDischargeDepth := 40) [hP, h]

@[simp] theorem State.pumpBake_holds (hP : Closed P)  (h : Holds P s) : Holds P (s.pumpBake) := by
  unfold State.pumpBake
  (repeat' split) <;> simp (maxDischargeDepth := 40) [hP, h]

@[simp] theorem State.defaultWaitEnd_holds (hP : Closed P)  (h : Holds P s) : Holds P (s.defaultWaitEnd) := by
  unfold State.defaultWaitEnd
  (repeat' split) <;> simp (maxDischargeDepth := 40) [hP, h]

@[simp] theorem State.stepEnd_holds (hP : Closed P)  (h : Holds P s) : Holds P (s.stepEnd) := by
  unfold State.stepEnd
  (repeat' split) <;> simp (maxDischargeDepth := 40) [hP, h]

@[simp] theorem State.stepRelease_holds (hP : Closed P) (t : Nat) (h : Holds P s) : Holds P (s.stepRelease t) := by
  unfold State.stepRelease
  dsimp only
  (repeat' split) <;> simp (maxDischargeDepth := 40) [hP, h]

@[simp] theorem State.stepEnable_holds (hP : Closed P)  (h : Holds P s) : Holds P (s.stepEnable) := by
  unfold State.stepEnable
  (repeat' split) <;> simp (maxDischargeDepth := 40) [hP, h]

@[simp] theorem State.stepWait_holds (hP : Closed P)  (h : Holds P s) : Holds P (s.stepWait) := by
  unfold State.stepWait
  (repeat' split) <;> simp (maxDischargeDepth := 40) [hP, h]

@[simp] theorem State.waitSatisfied_holds (hP : Closed P)  (h : Holds P s) : Holds P (s.waitSatisfied) := by
  unfold State.waitSatisfied
  (repeat' split) <;> simp (maxDischargeDepth := 40) [hP, h]

@[simp] theorem State.waitTimeout_holds (hP : Closed P)  (h : Holds P s) : Holds P (s.waitTimeout) := by
  unfold State.waitTimeout
  (repeat' split) <;> simp (maxDischargeDepth := 40) [hP, h]

@[simp] theorem State.stepDelay_holds (hP : Closed P)  (h : Holds P s) : Holds P (s.stepDelay) := by
  unfold State.stepDelay
  (repeat' split) <;> simp (maxDischargeDepth := 40) [hP, h]

@[simp] theorem State.delayEnd_holds (hP : Closed P)  (h : Holds P s) : Holds P (s.delayEnd) := by
  unfold State.delayEnd
  (repeat' split) <;> simp (maxDischargeDepth := 40) [hP, h]

@[simp] theorem State.stepCheck_holds (hP : Closed P)  (h : Holds P s) : Holds P (s.stepCheck) := by
  unfold State.stepCheck
  (repeat' split) <;> simp (maxDischargeDepth := 40) [hP, h]

@[simp] theorem State.stepBranch_holds (hP : Closed P)  (h : Holds P s) : Holds P (s.stepBranch) := by
  unfold State.stepBranch
  (repeat' split) <;> simp (maxDischargeDepth := 40) [hP, h]

@[simp] theorem State.stepReport_holds (hP : Closed P)  (h : Holds P s) : Holds P (s.stepReport) := by
  unfold State.stepReport
  (repeat' split) <;> simp (maxDischargeDepth := 40) [hP, h]

@[simp] theorem State.sleepTimeout_holds (hP : Closed P)  (h : Holds P s) : Holds P (s.sleepTimeout) := by
  unfold State.sleepTimeout
  (repeat' split) <;> simp (maxDischargeDepth := 40) [hP, h]

@[simp] theorem State.mainenRelease_holds (hP : Closed P) (late : Bool) (h : Holds P s) : Holds P (s.mainenRelease late) := by
  unfold State.mainenRelease
  (repeat' split) <;> simp (maxDischargeDepth := 40) [hP, h]

@[simp] theorem State.writeDev_holds (hP : Closed P) (off : Nat) (w : Word) (h : Holds P s) : Holds P (s.writeDev off w) := by
  unfold State.writeDev
  (repeat' split) <;> simp (maxDischargeDepth := 40) [hP, h]

@[simp] theorem State.writeFlt_holds (hP : Closed P) (off : Nat) (w : Word) (h : Holds P s) : Holds P (s.writeFlt off w) := by
  unfold State.writeFlt
  (repeat' split) <;> simp (maxDischargeDepth := 40) [hP, h]

@[simp] theorem State.writeFsv_holds (hP : Closed P) (off : Nat) (w : Word) (h : Holds P s) : Holds P (s.writeFsv off w) := by
  unfold State.writeFsv
  (repeat' split) <;> simp (maxDischargeDepth := 40) [hP, h]

@[simp] theorem State.writeSec_holds (hP : Closed P) (off : Nat) (w : Word) (h : Holds P s) : Holds P (s.writeSec off w) := by
  unfold State.writeSec
  (repeat' split) <;> simp (maxDischargeDepth := 40) [hP, h]

@[simp] theorem State.writeNvm_holds (hP : Closed P) (off : Nat) (w : Word) (h : Holds P s) : Holds P (s.writeNvm off w) := by
  unfold State.writeNvm
  (repeat' split) <;> simp (maxDischargeDepth := 40) [hP, h]

@[simp] theorem State.writeBkh_holds (hP : Closed P) (off : Nat) (w : Word) (h : Holds P s) : Holds P (s.writeBkh off w) := by
  unfold State.writeBkh
  (repeat' split) <;> simp (maxDischargeDepth := 40) [hP, h]

@[simp] theorem State.writeCmp_holds (hP : Closed P) (off : Nat) (w : Word) (h : Holds P s) : Holds P (s.writeCmp off w) := by
  unfold State.writeCmp
  (repeat' split) <;> simp (maxDischargeDepth := 40) [hP, h]

@[simp] theorem State.writePage_holds (hP : Closed P) (pg off : Nat) (w : Word) (h : Holds P s) : Holds P (s.writePage pg off w) := by
  unfold State.writePage
  (repeat' split) <;> simp (maxDischargeDepth := 40) [hP, h]

@[simp] theorem State.writeReg_holds (hP : Closed P) (pg off : Nat) (w : Word) (h : Holds P s) : Holds P (s.writeReg pg off w) := by
  unfold State.writeReg
  (repeat' split) <;> simp (maxDischargeDepth := 40) [hP, h]

@[simp] theorem State.clearBits_holds (hP : Closed P) (pg off : Nat) (w coinc : Word) (h : Holds P s) : Holds P (s.clearBits pg off w coinc) := by
  unfold State.clearBits
  (repeat' split) <;> simp (maxDischargeDepth := 40) [hP, h]

@[simp] theorem State.writeNow_holds (hP : Closed P) (pg off : Nat) (w : Word) (h : Holds P s) : Holds P (s.writeNow pg off w) := by
  unfold State.writeNow
  (repeat' split) <;> simp (maxDischargeDepth := 40) [hP, h]

@[simp] theorem State.applyHeld_holds (hP : Closed P) (h : Holds P s) : Holds P s.applyHeld := by
  unfold State.applyHeld
  exact foldl_holds _ _ (fun _ _ ht => State.writeNow_holds hP _ _ _ ht) (State.onCore_holds hP _ h)

@[simp] theorem State.askRecord_holds (hP : Closed P) (h : Holds P s) : Holds P s.askRecord := by
  unfold State.askRecord
  split
  · exact State.onCore_holds hP _ h
  · exact h

@[simp] theorem State.unfreeze_holds (hP : Closed P) (h : Holds P s) : Holds P s.unfreeze := by
  unfold State.unfreeze
  dsimp only
  exact State.onCore_holds hP _ (State.revokeNext_holds hP (State.applyHeld_holds hP (State.onCore_holds hP _
    (State.checkHeld_holds hP (State.onCore_holds hP _ h)))))

@[simp] theorem State.settleFreeze_holds (hP : Closed P) (h : Holds P s) : Holds P s.settleFreeze := by
  unfold State.settleFreeze
  dsimp only
  (repeat' split)
  · exact h
  · exact State.onCore_holds hP _ h
  · exact State.enterObserve_holds hP _ h
  · exact h
  · exact State.unfreeze_holds hP h
  · exact h

@[simp] theorem State.rest_holds (hP : Closed P)  (h : Holds P s) : Holds P (s.rest) := by
  unfold State.rest
  simp (maxDischargeDepth := 40) [hP, h]

@[simp] theorem State.hostWrite_holds (hP : Closed P) (p : HostPort) (pg off : Nat) (w : Word) (h : Holds P s) : Holds P (s.hostWrite p pg off w) := by
  unfold State.hostWrite
  (repeat' split) <;> simp (maxDischargeDepth := 40) [hP, h]

@[simp] theorem State.readReg_holds (hP : Closed P) (p : HostPort) (pg off : Nat) (h : Holds P s) :
    Holds P (s.readReg p pg off).2 := by
  have h1 (c : Core) : Holds P { core := c, pw := s.pw, st := s.st, pending := s.pending } := holds_core hP _ h
  unfold State.readReg
  dsimp only
  split
  · exact h
  split <;> first | exact h1 _ | exact h | (split <;> first | exact h1 _ | exact h)

@[simp] theorem State.regWrite_holds (hP : Closed P) (pg off : Nat) (w : Word) (h : Holds P s) : Holds P (s.regWrite pg off w) := by
  unfold State.regWrite
  (repeat' split) <;> simp (maxDischargeDepth := 40) [hP, h]

@[simp] theorem State.fieldWrite_holds (hP : Closed P) (pg : Nat) (f : Field) (v : Nat) (h : Holds P s) : Holds P (s.fieldWrite pg f v) := by
  unfold State.fieldWrite
  simp (maxDischargeDepth := 40) [hP, h]

@[simp] theorem State.refuseMarks_holds (hP : Closed P) (hbad fbad : Bool) (h : Holds P s) : Holds P (s.refuseMarks hbad fbad) := by
  unfold State.refuseMarks
  (repeat' split) <;> simp (maxDischargeDepth := 40) [hP, h]

@[simp] theorem State.spiEnd_holds (hP : Closed P) (bytes : List Byte) (aborted : Bool) (h : Holds P s) : Holds P (s.spiEnd bytes aborted) := by
  unfold State.spiEnd
  simp (maxDischargeDepth := 40) [hP, h]

@[simp] theorem State.spiRefuse_holds (hP : Closed P) (hbad fbad : Bool) (later : Nat) (h : Holds P s) : Holds P (s.spiRefuse hbad fbad later) := by
  unfold State.spiRefuse
  simp (maxDischargeDepth := 40) [hP, h]

@[simp] theorem State.pageMark_holds (hP : Closed P) (pg : Nat) (h : Holds P s) : Holds P (s.pageMark pg) := by
  unfold State.pageMark
  (repeat' split) <;> simp (maxDischargeDepth := 40) [hP, h]

@[simp] theorem State.readWords_holds (hP : Closed P) (pg : Nat) (offs : List Nat) (h : Holds P s) :
    Holds P (s.readWords pg offs).2 := by
  unfold State.readWords
  suffices ∀ (a : List Byte × State), Holds P a.2 → Holds P (offs.foldl (fun (a : List Byte × State) o =>
    (a.1 ++ wordBytes (a.2.readReg .spi pg o).1, (a.2.readReg .spi pg o).2)) a).2 from this ([], s) h
  induction offs with
  | nil => exact fun _ ha => ha
  | cons o t ih => exact fun a ha => ih _ (State.readReg_holds hP _ _ _ ha)

@[simp] theorem State.spiRead_holds (hP : Closed P) (mode : Nat) (cmd pg off hcrc : Byte) (waits : Nat) (h : Holds P s) :
    Holds P (s.spiRead mode cmd pg off hcrc waits) := by
  unfold State.spiRead
  dsimp only
  (repeat' split)
  · exact h
  · exact State.spiRefuse_holds hP _ _ _ h
  · exact h
  · exact State.frameEnd_holds hP (State.spiEnd_holds hP _ _ (State.readWords_holds hP _ _ (State.pageMark_holds hP _ h)))

@[simp] theorem State.fillSlots_holds (hP : Closed P) (pg off k : Nat) (out : List Byte) (h : Holds P s) :
    Holds P (s.fillSlots pg off k out).2.2 := by
  induction k generalizing s out with
  | zero => exact h
  | succ k ih =>
    unfold State.fillSlots
    split
    · exact h
    · exact ih _ (State.readReg_holds hP _ _ _ h)

@[simp] theorem State.streamOn_holds (hP : Closed P) (pg off left : Nat) (out : List Byte) (h : Holds P s) :
    Holds P (s.streamOn pg off left out) := by
  have h1 := State.fillSlots_holds hP pg off left out h
  unfold State.streamOn
  dsimp only
  split
  · exact State.frameEnd_holds hP (State.spiEnd_holds hP _ _ h1)
  · exact State.onCore_holds hP _ h1

@[simp] theorem State.spiStream_holds (hP : Closed P) (cmd pg off hcrc : Byte) (waits : Nat) (h : Holds P s) : Holds P (s.spiStream cmd pg off hcrc waits) := by
  unfold State.spiStream
  (repeat' split) <;> simp (maxDischargeDepth := 40) [hP, h]

@[simp] theorem State.slotFill_holds (hP : Closed P) (waits : Nat) (h : Holds P s) : Holds P (s.slotFill waits) := by
  unfold State.slotFill
  (repeat' split) <;> simp (maxDischargeDepth := 40) [hP, h]

@[simp] theorem State.slotAbandon_holds (hP : Closed P)  (h : Holds P s) : Holds P (s.slotAbandon) := by
  unfold State.slotAbandon
  (repeat' split) <;> simp (maxDischargeDepth := 40) [hP, h]

@[simp] theorem State.writeWords_holds (hP : Closed P) (p : HostPort) (pg : Nat) (offs : List Nat) (l : List Byte) (h : Holds P s) :
    Holds P (s.writeWords p pg offs l) := by
  induction offs generalizing s l with
  | nil => exact h
  | cons o t ih =>
    unfold State.writeWords
    refine ih _ ?_
    split
    · exact State.hostWrite_holds hP _ _ _ _ h
    · exact h

@[simp] theorem State.spiWrite_holds (hP : Closed P) (mode : Nat) (cmd pg off hcrc : Byte) (data : List Byte) (dcrc : Byte)
    (h : Holds P s) : Holds P (s.spiWrite mode cmd pg off hcrc data dcrc) := by
  have hm := State.pageMark_holds hP pg.toNat h
  unfold State.spiWrite
  split
  · exact h
  split
  · exact State.spiRefuse_holds hP _ _ _ h
  split
  · exact h
  extract_lets s1 bad s2 st s3
  have h2 : Holds P s2 := holds_ite (State.onCore_holds hP _ hm) hm
  clear_value s2
  have h3 : Holds P s3 := State.spiEnd_holds hP _ _ h2
  clear_value s3
  exact State.frameEnd_holds hP (holds_ite h3 (State.writeWords_holds hP _ _ _ _ h3))

@[simp] theorem State.spiAbort_holds (hP : Closed P) (hdr : List Byte) (words : Nat) (dcrcBad : Bool) (h : Holds P s) :
    Holds P (s.spiAbort hdr words dcrcBad) := by
  have he : ∀ t : State, Holds P t → Holds P (((t.onCore (fun c => c.raise pgHST 4)).spiEnd [] true).frameEnd) :=
    fun t ht => State.frameEnd_holds hP (State.spiEnd_holds hP _ _ (State.onCore_holds hP _ ht))
  unfold State.spiAbort
  dsimp only
  split
  · exact h
  split
  · exact he _ (State.fillSlots_holds hP _ _ _ _ h)
  split
  · split
    · exact he _ (State.refuseMarks_holds hP _ _ h)
    · split
      · refine he _ ?_
        split
        · exact State.onCore_holds hP _ (State.pageMark_holds hP _ h)
        · exact State.pageMark_holds hP _ h
      · split
        · exact he _ (State.fillSlots_holds hP _ _ _ _ (State.pageMark_holds hP _ h))
        · exact he _ (State.readWords_holds hP _ _ (State.pageMark_holds hP _ h))
  · exact he _ h

@[simp] theorem State.alertResponse_holds (hP : Closed P) (won pec : Bool) (h : Holds P s) : Holds P (s.alertResponse won pec) := by
  unfold State.alertResponse
  (repeat' split) <;> simp (maxDischargeDepth := 40) [hP, h]

@[simp] theorem State.smbWrite_holds (hP : Closed P) (k : WpClass) (pec : Pec) (f : State → State)
    (hf : ∀ t, Holds P t → Holds P (f t)) (h : Holds P s) : Holds P (s.smbWrite k pec f) := by
  unfold State.smbWrite
  (repeat' split)
  · exact h
  · exact State.onCore_holds hP _ h
  · exact State.onCore_holds hP _ h
  · exact State.frameEnd_holds hP (State.rest_holds hP (hf _ (State.onCore_holds hP _ h)))

@[simp] theorem State.smbRead_holds (hP : Closed P) (code : Byte) (pec : Bool) (f : State → List Byte) (h : Holds P s) :
    Holds P (s.smbRead code pec f) := by
  unfold State.smbRead
  (repeat' split) <;> simp (maxDischargeDepth := 40) [hP, h]

@[simp] theorem State.railRead_holds (hP : Closed P) (code : Byte) (pec : Bool) (width : Nat) (f : Nat → List Byte) (h : Holds P s) :
    Holds P (s.railRead code pec width f) := by
  unfold State.railRead
  (repeat' split) <;> simp (maxDischargeDepth := 40) [hP, h]

@[simp] theorem State.onRails_holds (hP : Closed P) (f : Nat → State → Bool × State)
    (hf : ∀ n t, Holds P t → Holds P (f n t).2) (h : Holds P s) : Holds P (s.onRails f) := by
  have h1 : ∀ (l : List Nat) (a : Bool × State), Holds P a.2 →
      Holds P (l.foldl (fun (a : Bool × State) n => (a.1 && (f n a.2).1, (f n a.2).2)) a).2 := by
    intro l
    induction l with
    | nil => exact fun _ ha => ha
    | cons n t ih => exact fun a ha => ih _ (hf n a.2 ha)
  unfold State.onRails
  dsimp only
  split
  · exact h1 _ _ h
  · exact State.onCore_holds hP _ (h1 _ _ h)

@[simp] theorem State.railCmd_holds (hP : Closed P) (code : Byte) (op : PmOp) (k : WpClass) (width : Nat) (rd : Nat → List Byte)
    (wr : Nat → Nat → State → Bool × State) (hw : ∀ v n t, Holds P t → Holds P (wr v n t).2) (h : Holds P s) :
    Holds P (s.railCmd code op k width rd wr) := by
  unfold State.railCmd
  split
  · exact State.railRead_holds hP _ _ _ _ h
  · refine State.smbWrite_holds hP _ _ _ (fun t ht => ?_) h
    split
    · exact State.onCore_holds hP _ ht
    · exact State.onRails_holds hP _ (hw _) ht

@[simp] theorem State.devCmd_holds (hP : Closed P) (code : Byte) (op : PmOp) (k : WpClass) (width : Nat) (rd : State → List Byte)
    (wr : Nat → State → Bool × State) (hw : ∀ v t, Holds P t → Holds P (wr v t).2) (h : Holds P s) :
    Holds P (s.devCmd code op k width rd wr) := by
  unfold State.devCmd
  split
  · exact State.smbRead_holds hP _ _ _ h
  · refine State.smbWrite_holds hP _ _ _ (fun t ht => ?_) h
    dsimp only
    (repeat' split)
    · exact State.onCore_holds hP _ ht
    · exact hw _ _ ht
    · exact State.onCore_holds hP _ (hw _ _ ht)

@[simp] theorem State.railRo_holds (hP : Closed P) (code : Byte) (op : PmOp) (width : Nat) (rd : Nat → List Byte) (h : Holds P s) :
    Holds P (s.railRo code op width rd) := State.railCmd_holds hP _ _ _ _ _ _ (fun _ _ _ ht => ht) h

@[simp] theorem State.devRo_holds (hP : Closed P) (code : Byte) (op : PmOp) (rd : State → List Byte) (h : Holds P s) :
    Holds P (s.devRo code op rd) := by
  unfold State.devRo
  split
  · exact State.smbRead_holds hP _ _ _ h
  · exact State.smbWrite_holds hP _ _ _ (fun _ ht => State.onCore_holds hP _ ht) h

@[simp] theorem State.pmField_holds (hP : Closed P) (pg : Nat) (f : Field) (v : Nat) (h : Holds P s) : Holds P (s.pmField pg f v) := by
  unfold State.pmField
  simp (maxDischargeDepth := 40) [hP, h]

@[simp] theorem State.pmPageCmd_holds (hP : Closed P) (op : PmOp) (h : Holds P s) : Holds P (s.pmPageCmd op) := by
  unfold State.pmPageCmd
  refine State.devCmd_holds hP _ _ _ _ _ _ (fun v t ht => ?_) h
  try dsimp only
  (repeat' split) <;> simp (maxDischargeDepth := 40) [hP, ht]

@[simp] theorem operate_holds (hP : Closed P) (en : Bool) (soft : Option Bool) (n : Nat) (h : Holds P s) :
    Holds P (operate en soft n s).2 := by
  unfold operate
  dsimp only
  exact State.onCore_holds hP _ h

@[simp] theorem State.operationOn_holds (hP : Closed P) (op : PmOp) (h : Holds P s) : Holds P (s.operationOn op) := by
  unfold State.operationOn
  split
  · exact h
  · exact h
  · refine State.railCmd_holds hP _ _ _ _ _ _ (fun v n t ht => ?_) h
    split
    · exact operate_holds hP _ _ _ ht
    · exact ht

@[simp] theorem State.operationOff_holds (hP : Closed P) (soft : Bool) (pec : Pec) (h : Holds P s) :
    Holds P (s.operationOff soft pec) := by
  unfold State.operationOff
  exact State.railCmd_holds hP _ _ _ _ _ _ (fun _ n t ht => operate_holds hP _ _ n ht) h

@[simp] theorem State.writeProtect_holds (hP : Closed P) (op : PmOp) (h : Holds P s) : Holds P (s.writeProtect op) := by
  unfold State.writeProtect
  refine State.devCmd_holds hP _ _ _ _ _ _ (fun v t ht => ?_) h
  try dsimp only
  (repeat' split) <;> simp (maxDischargeDepth := 40) [hP, ht]

@[simp] theorem State.voutCommand_holds (hP : Closed P) (op : PmOp) (h : Holds P s) : Holds P (s.voutCommand op) := by
  unfold State.voutCommand
  refine State.railCmd_holds hP _ _ _ _ _ _ (fun v n t ht => ?_) h
  try dsimp only
  (repeat' split) <;> simp (maxDischargeDepth := 40) [hP, ht]

@[simp] theorem State.voutMax_holds (hP : Closed P) (op : PmOp) (h : Holds P s) : Holds P (s.voutMax op) := by
  unfold State.voutMax
  refine State.railCmd_holds hP _ _ _ _ _ _ (fun v n t ht => ?_) h
  try dsimp only
  (repeat' split) <;> simp (maxDischargeDepth := 40) [hP, ht]

@[simp] theorem State.voutRate_holds (hP : Closed P) (op : PmOp) (h : Holds P s) : Holds P (s.voutRate op) := by
  unfold State.voutRate
  refine State.railCmd_holds hP _ _ _ _ _ _ (fun v n t ht => ?_) h
  try dsimp only
  (repeat' split) <;> simp (maxDischargeDepth := 40) [hP, ht]

@[simp] theorem State.coefficients_holds (hP : Closed P) (code rw : Byte) (pec : Bool) (h : Holds P s) :
    Holds P (s.coefficients code rw pec) := by
  unfold State.coefficients
  (repeat' split) <;> simp (maxDischargeDepth := 40) [hP, h]

@[simp] theorem State.pmThr_holds (hP : Closed P) (i : Nat) (hi : Bool) (code : Nat) (h : Holds P s) :
    Holds P (s.pmThr i hi code).2 := by
  unfold State.pmThr
  extract_lets j off w s'
  split
  · exact h
  · dsimp only
    exact State.hostWrite_holds hP _ _ _ _ h

@[simp] theorem State.voutLimit_holds (hP : Closed P) (op : PmOp) (hi : Bool) (h : Holds P s) : Holds P (s.voutLimit op hi) := by
  unfold State.voutLimit
  refine State.railCmd_holds hP _ _ _ _ _ _ (fun v n t ht => ?_) h
  try dsimp only
  (repeat' split) <;> simp (maxDischargeDepth := 40) [hP, ht]

@[simp] theorem State.vinLimit_holds (hP : Closed P) (op : PmOp) (hi : Bool) (h : Holds P s) : Holds P (s.vinLimit op hi) := by
  unfold State.vinLimit
  refine State.railCmd_holds hP _ _ _ _ _ _ (fun v n t ht => ?_) h
  try dsimp only
  (repeat' split) <;> simp (maxDischargeDepth := 40) [hP, ht]

@[simp] theorem State.ioutLimit_holds (hP : Closed P) (op : PmOp) (h : Holds P s) : Holds P (s.ioutLimit op) := by
  unfold State.ioutLimit
  refine State.railCmd_holds hP _ _ _ _ _ _ (fun v n t ht => ?_) h
  try dsimp only
  (repeat' split) <;> simp (maxDischargeDepth := 40) [hP, ht]

@[simp] theorem State.otLimit_holds (hP : Closed P) (op : PmOp) (h : Holds P s) : Holds P (s.otLimit op) := by
  unfold State.otLimit
  refine State.railCmd_holds hP _ _ _ _ _ _ (fun v n t ht => ?_) h
  try dsimp only
  (repeat' split) <;> simp (maxDischargeDepth := 40) [hP, ht]

@[simp] theorem State.window_holds (hP : Closed P) (op : PmOp) (inc : Bool) (h : Holds P s) : Holds P (s.window op inc) := by
  have hm : ∀ t : State, Holds P t → Holds P (if t.core.winBad then t.onCore (fun c => c.setCml 6) else t) := by
    intro t ht; split
    · exact State.onCore_holds hP _ ht
    · exact ht
  have hn : ∀ t : State, Holds P t → Holds P (if inc then t.onCore Core.winNext else t) := by
    intro t ht; split
    · exact State.onCore_holds hP _ ht
    · exact ht
  unfold State.window
  dsimp only
  split
  · split
    · exact h
    · exact State.onCore_holds hP _ (hn _ (State.readReg_holds hP _ _ _ (hm _ h)))
  · refine State.smbWrite_holds hP _ _ _ (fun t ht => ?_) h
    split
    · exact State.onCore_holds hP _ ht
    · exact hn _ (State.hostWrite_holds hP _ _ _ _ (hm _ ht))

@[simp] theorem State.windowAddr_holds (hP : Closed P) (op : PmOp) (h : Holds P s) : Holds P (s.windowAddr op) := by
  unfold State.windowAddr
  refine State.devCmd_holds hP _ _ _ _ _ _ (fun v t ht => ?_) h
  try dsimp only
  simp (maxDischargeDepth := 40) [hP, ht]

@[simp] theorem State.fleetReport_holds (hP : Closed P) (op : PmOp) (h : Holds P s) : Holds P (s.fleetReport op) := by
  unfold State.fleetReport
  (repeat' split) <;> simp (maxDischargeDepth := 40) [hP, h]

@[simp] theorem State.unsupported_holds (hP : Closed P) (code : Byte) (rd : Option Nat) (h : Holds P s) : Holds P (s.unsupported code rd) := by
  unfold State.unsupported
  (repeat' split) <;> simp (maxDischargeDepth := 40) [hP, h]

@[simp] theorem State.phaseEnds_holds (hP : Closed P)  (h : Holds P s) : Holds P (s.phaseEnds) := by
  unfold State.phaseEnds
  simp (maxDischargeDepth := 40) [hP, h]

@[simp] theorem State.bootA_holds (hP : Closed P)  (h : Holds P s) : Holds P (s.bootA) := by
  unfold State.bootA
  simp (maxDischargeDepth := 40) [hP, h]

@[simp] theorem State.bootStart_holds (hP : Closed P) (a0 a1 : Vector Nat 8) (h : Holds P s) : Holds P (s.bootStart a0 a1) := by
  unfold State.bootStart
  split
  · exact h
  refine hP.upd s _ _ h ⟨rfl, fun hd => ?_, fun hv => ?_, fun hg => ?_⟩
  · simp [Power.grave, hd]
  · simp [Power.grave, hv]
  · have : s.pw.grave = true := by simpa [Power.grave] using hg
    simp [this]

@[simp] theorem State.bootHalt_holds (hP : Closed P) (h : Holds P s) : Holds P s.bootHalt :=
  hP.upd s _ _ h ⟨rfl, id, id, fun _ => ⟨rfl, rfl⟩⟩

@[simp] theorem State.takeMap_holds (hP : Closed P)  (h : Holds P s) : Holds P (s.takeMap) := by
  unfold State.takeMap
  (repeat' split) <;> simp (maxDischargeDepth := 40) [hP, h]

@[simp] theorem State.takeCtl_holds (hP : Closed P)  (h : Holds P s) : Holds P (s.takeCtl) := by
  unfold State.takeCtl
  (repeat' split) <;> simp (maxDischargeDepth := 40) [hP, h]

@[simp] theorem State.takeStored_holds (hP : Closed P) (h : Holds P s) : Holds P s.takeStored := by
  unfold State.takeStored
  exact State.takeCtl_holds hP (State.reportBad_holds hP _ _ (State.takeMap_holds hP (State.reportBad_holds hP _ _ h)))

@[simp] theorem State.bootB_holds (hP : Closed P)  (h : Holds P s) : Holds P (s.bootB) := by
  unfold State.bootB
  (repeat' split) <;> simp (maxDischargeDepth := 40) [hP, h]

@[simp] theorem State.imageWrite_holds (hP : Closed P) (pg off : Nat) (w : Word) (h : Holds P s) : Holds P (s.imageWrite pg off w) := by
  unfold State.imageWrite
  split
  · exact State.onCore_holds hP _ h
  · exact State.hostWrite_holds hP _ _ _ _ h

@[simp] theorem State.readImage_holds (hP : Closed P) (b : Bool) (h : Holds P s) : Holds P (s.readImage b) := by
  unfold State.readImage
  split <;> simp (maxDischargeDepth := 40) [hP, h]

@[simp] theorem State.applyEntry_holds (hP : Closed P) (a : Nat) (h : Holds P s) : Holds P (s.applyEntry a) := by
  unfold State.applyEntry
  simp (maxDischargeDepth := 40) [hP, h]

@[simp] theorem State.applyImage_holds (hP : Closed P) (b : Bool) (h : Holds P s) : Holds P (s.applyImage b) := by
  unfold State.applyImage
  exact foldl_holds _ _ (fun _ _ ht => State.applyEntry_holds hP _ ht) h

@[simp] theorem State.bootCtl_holds (hP : Closed P) (h : Holds P s) : Holds P s.bootCtl := by
  unfold State.bootCtl
  dsimp only
  have h1 (f : Core → Core) := State.onCore_holds hP f h
  split
  · exact h1 _
  · exact State.onCore_holds hP _ (State.flashWrite_holds hP _ _ (h1 _))

@[simp] theorem State.bootC_holds (hP : Closed P) (fails : List (Nat × Nat)) (us : Nat) (h : Holds P s) : Holds P (s.bootC fails us) := by
  unfold State.bootC
  simp (maxDischargeDepth := 40) [hP, h]

@[simp] theorem State.showImages_holds (hP : Closed P)  (h : Holds P s) : Holds P (s.showImages) := by
  unfold State.showImages
  simp (maxDischargeDepth := 40) [hP, h]

@[simp] theorem State.loadImage_holds (hP : Closed P) (h : Holds P s) : Holds P s.loadImage := by
  have h1 := State.showImages_holds hP (State.readImage_holds hP true (State.readImage_holds hP false h))
  unfold State.loadImage
  dsimp only
  split
  · refine State.applyImage_holds hP _ ?_
    split
    · exact h1
    · exact State.onCore_holds hP _ h1
  · split
    · exact h1
    · exact State.onCore_holds hP _ h1

@[simp] theorem State.bootD_holds (hP : Closed P) (means : Vector Int 24) (csref : Vector Bool 3) (h : Holds P s) : Holds P (s.bootD means csref) := by
  unfold State.bootD
  simp (maxDischargeDepth := 40) [hP, h]

@[simp] theorem State.loadProgram_holds (hP : Closed P) (p : Nat) (h : Holds P s) : Holds P (s.loadProgram p) := by
  unfold State.loadProgram
  dsimp only
  have h1 {c : Prop} [Decidable c] (a n : Nat) : Holds P (if c then s else s.reportBad a n) :=
    holds_ite h (State.reportBad_holds hP a n h)
  split
  · split
    · exact State.onCore_holds hP _ (h1 _ _)
    · exact h1 _ _
  · exact State.onCore_holds hP _ (h1 _ _)
  · exact State.onCore_holds hP _ (h1 _ _)

@[simp] theorem State.loadPrograms_holds (hP : Closed P) (h : Holds P s) : Holds P s.loadPrograms := by
  unfold State.loadPrograms
  exact foldl_holds _ _ (fun _ _ ht => State.loadProgram_holds hP _ ht) h

@[simp] theorem State.applyHeldIf_holds (hP : Closed P) (p : HeldWrite → Bool) (h : Holds P s) : Holds P (s.applyHeldIf p) := by
  unfold State.applyHeldIf
  exact foldl_holds _ _ (fun _ _ ht => State.writeNow_holds hP _ _ _ ht) (State.onCore_holds hP _ h)

@[simp] theorem State.bootBits_holds (hP : Closed P) (h : Holds P s) : Holds P s.bootBits := by
  unfold State.bootBits
  exact hP.upd s _ _ h ⟨rfl, id, id, fun _ => ⟨rfl, rfl⟩⟩

@[simp] theorem State.enterFromBoot_holds (hP : Closed P) (h : Holds P s) : Holds P s.enterFromBoot := by
  unfold State.enterFromBoot
  generalize (fun c : Core => { c with bkh := { c.bkh with outEn := true } }) = g
  have h1 : Holds P (s.onCore g) := State.onCore_holds hP _ h
  generalize s.onCore g = t at h1
  dsimp only
  split
  · exact hP.upd _ _ _ (State.onCore_holds hP (fun c => c.setSticky (msgSrc t.pw.graveMsg))
      (State.deviceAction_holds hP (msgSrc t.pw.graveMsg) h1)) ⟨rfl, id, id, fun _ => ⟨rfl, rfl⟩⟩
  · split
    · exact State.bakeFault_holds hP (State.startUp_holds hP h1)
    · exact State.startUp_holds hP h1

@[simp] theorem State.bootEnd_holds (hP : Closed P) (us : Nat) (h : Holds P s) : Holds P (s.bootEnd us) := by
  unfold State.bootEnd
  simp (maxDischargeDepth := 40) [hP, h]

@[simp] theorem State.control_holds (hP : Closed P) (f : Core → Core) (h : Holds P s) : Holds P (s.control f) := by
  unfold State.control
  (repeat' split) <;> simp (maxDischargeDepth := 40) [hP, h]

@[simp] theorem State.protect_holds (hP : Closed P) (f : Core → Core) (h : Holds P s) : Holds P (s.protect f) := by
  unfold State.protect
  (repeat' split) <;> simp (maxDischargeDepth := 40) [hP, h]

@[simp] theorem State.ringIn_holds (hP : Closed P) (f : Core → Core) (h : Holds P s) : Holds P (s.ringIn f) := by
  unfold State.ringIn
  split
  · exact State.rest_holds hP (State.onCore_holds hP _ h)
  · exact h

@[simp] theorem State.service_holds (hP : Closed P) (f : Core → Core) (h : Holds P s) : Holds P (s.service f) := by
  unfold State.service
  (repeat' split) <;> simp (maxDischargeDepth := 40) [hP, h]

@[simp] theorem State.portMark_holds (hP : Closed P) (p : HostPort) (pg : Nat) (h : Holds P s) : Holds P (s.portMark p pg) := by
  unfold State.portMark
  (repeat' split) <;> simp (maxDischargeDepth := 40) [hP, h]

@[simp] theorem State.portWrite_holds (hP : Closed P) (p : HostPort) (pg off : Nat) (w : Word) (h : Holds P s) : Holds P (s.portWrite p pg off w) := by
  unfold State.portWrite
  (repeat' split) <;> simp (maxDischargeDepth := 40) [hP, h]

@[simp] theorem State.portRead_holds (hP : Closed P) (p : HostPort) (pg off : Nat) (h : Holds P s) :
    Holds P (s.portRead p pg off) := by
  unfold State.portRead
  dsimp only
  split
  · exact State.onCore_holds hP _ (State.readReg_holds hP _ _ _ (State.portMark_holds hP _ _ h))
  · exact h

@[simp] theorem State.prst_holds (hP : Closed P) (pg : Nat) (h : Holds P s) : Holds P (s.prst pg) := by
  unfold State.prst
  simp (maxDischargeDepth := 40) [hP, h]

@[simp] theorem State.idle_holds (hP : Closed P)  (h : Holds P s) : Holds P (s.idle) := by
  unfold State.idle
  (repeat' split) <;> simp (maxDischargeDepth := 40) [hP, h]

@[simp] theorem State.repair_holds (hP : Closed P) (f : Core → Core) (h : Holds P s) : Holds P (s.repair f) := by
  unfold State.repair
  (repeat' split) <;> simp (maxDischargeDepth := 40) [hP, h]

@[simp] theorem State.tapLoad_holds (hP : Closed P) (code : Nat) (out : List Byte) (f : Rpr → Rpr) (h : Holds P s) : Holds P (s.tapLoad code out f) := by
  unfold State.tapLoad
  split
  · exact State.onCore_holds hP _ h
  · exact h

@[simp] theorem State.tap_holds (hP : Closed P) (code : Nat) (out : List Byte) (f : Rpr → Rpr) (h : Holds P s) : Holds P (s.tap code out f) := by
  unfold State.tap
  dsimp only
  split
  · exact State.onCore_holds hP _ (State.tapLoad_holds hP _ _ _ h)
  · exact State.tapLoad_holds hP _ _ _ h

@[simp] theorem State.boundary_holds (hP : Closed P) (code : Nat) (bits : List Bool) (drives : Bool) (h : Holds P s) : Holds P (s.boundary code bits drives) := by
  unfold State.boundary
  (repeat' split) <;> simp (maxDischargeDepth := 40) [hP, h]

theorem Soft.setPico (p : Power) (i : Nat) (hi b : Bool) : Soft p (p.setPico i hi b) := by
  unfold Power.setPico
  (repeat' split) <;> exact ⟨rfl, id, id, fun _ => ⟨rfl, rfl⟩⟩

@[simp] theorem State.picoSet_holds (hP : Closed P) (i : Nat) (hi b : Bool) (h : Holds P s) : Holds P (s.picoSet i hi b) := by
  have h1 : Holds P { core := s.core, pw := s.pw.setPico i hi b, st := s.st, pending := s.pending } :=
    hP.upd s _ _ h (Soft.setPico _ _ _ _)
  unfold State.picoSet
  exact holds_ite (State.onCore_holds hP _ h1) (State.onCore_holds hP _ h1)

@[simp] theorem State.picoChange_holds (hP : Closed P) (i : Nat) (hi b : Bool) (h : Holds P s) : Holds P (s.picoChange i hi b) := by
  unfold State.picoChange
  (repeat' split) <;> simp (maxDischargeDepth := 40) [hP, h]

@[simp] theorem State.compare_holds (hP : Closed P) (i : Nat) (hi b : Bool) (h : Holds P s) : Holds P (s.compare i hi b) := by
  unfold State.compare
  (repeat' split) <;> simp (maxDischargeDepth := 40) [hP, h]

@[simp] theorem State.flushSlot_holds (hP : Closed P)  (h : Holds P s) : Holds P (s.flushSlot) := by
  unfold State.flushSlot
  (repeat' split) <;> simp (maxDischargeDepth := 40) [hP, h]

end Sys2Proof.Machine
end

