-- ==== Sys2Proof/Laws/Dispatch.lean ====
section
/-! SUPPORT. Each command's arm of `exec`, so that no proof unfolds the dispatch. -/
namespace Sys2Proof.Machine

theorem exec_regWrite p pg off v (s : State) : exec (.regWrite p pg off v) s = execRegWrite p pg off v s := rfl
theorem exec_stkyClear pg off mask coinc (s : State) : exec (.stkyClear pg off mask coinc) s = execStkyClear pg off mask coinc s := rfl
theorem exec_evcClear pg incs (s : State) : exec (.evcClear pg incs) s = execEvcClear pg incs s := rfl
theorem exec_frcForce pg mask (s : State) : exec (.frcForce pg mask) s = execFrcForce pg mask s := rfl
theorem exec_lockWrite pg v (s : State) : exec (.lockWrite pg v) s = execLockWrite pg v s := rfl
theorem exec_pageReset pg (s : State) : exec (.pageReset pg) s = execPageReset pg s := rfl
theorem exec_railPageReset n (s : State) : exec (.railPageReset n) s = execRailPageReset n s := rfl
theorem exec_hstPageReset (s : State) : exec .hstPageReset s = execHstPageReset s := rfl
theorem exec_cmdEngineReset (s : State) : exec .cmdEngineReset s = execCmdEngineReset s := rfl
theorem exec_cmpPageReset (s : State) : exec .cmpPageReset s = execCmpPageReset s := rfl
theorem exec_trpPageReset (s : State) : exec .trpPageReset s = execTrpPageReset s := rfl
theorem exec_tlmPageReset (s : State) : exec .tlmPageReset s = execTlmPageReset s := rfl
theorem exec_crbPageReset (s : State) : exec .crbPageReset s = execCrbPageReset s := rfl
theorem exec_thmPageReset (s : State) : exec .thmPageReset s = execThmPageReset s := rfl
theorem exec_fltPageReset (s : State) : exec .fltPageReset s = execFltPageReset s := rfl
theorem exec_spiReadSingle cmd pg off hcrc waits (s : State) : exec (.spiReadSingle cmd pg off hcrc waits) s = execSpiReadSingle cmd pg off hcrc waits s := rfl
theorem exec_spiReadBurst cmd pg off hcrc waits (s : State) : exec (.spiReadBurst cmd pg off hcrc waits) s = execSpiReadBurst cmd pg off hcrc waits s := rfl
theorem exec_spiReadStream cmd pg off hcrc waits (s : State) : exec (.spiReadStream cmd pg off hcrc waits) s = execSpiReadStream cmd pg off hcrc waits s := rfl
theorem exec_spiWriteSingle cmd pg off hcrc data dcrc (s : State) : exec (.spiWriteSingle cmd pg off hcrc data dcrc) s = execSpiWriteSingle cmd pg off hcrc data dcrc s := rfl
theorem exec_spiWriteBurst cmd pg off hcrc data dcrc (s : State) : exec (.spiWriteBurst cmd pg off hcrc data dcrc) s = execSpiWriteBurst cmd pg off hcrc data dcrc s := rfl
theorem exec_spiFrameAbort hdr words dcrcBad (s : State) : exec (.spiFrameAbort hdr words dcrcBad) s = execSpiFrameAbort hdr words dcrcBad s := rfl
theorem exec_spiStreamSlotFill waits (s : State) : exec (.spiStreamSlotFill waits) s = execSpiStreamSlotFill waits s := rfl
theorem exec_spiStrabn (s : State) : exec .spiStrabn s = execSpiStrabn s := rfl
theorem exec_smbTimeout (s : State) : exec .smbTimeout s = execSmbTimeout s := rfl
theorem exec_smbAlertResponse won pec (s : State) : exec (.smbAlertResponse won pec) s = execSmbAlertResponse won pec s := rfl
theorem exec_pmbusUnsupported code rd (s : State) : exec (.pmbusUnsupported code rd) s = execPmbusUnsupported code rd s := rfl
theorem exec_page op (s : State) : exec (.page op) s = execPage op s := rfl
theorem exec_operationOn op (s : State) : exec (.operationOn op) s = execOperationOn op s := rfl
theorem exec_operationSoftOff pec (s : State) : exec (.operationSoftOff pec) s = execOperationSoftOff pec s := rfl
theorem exec_operationImmediateOff pec (s : State) : exec (.operationImmediateOff pec) s = execOperationImmediateOff pec s := rfl
theorem exec_onOffConfig op (s : State) : exec (.onOffConfig op) s = execOnOffConfig op s := rfl
theorem exec_clearFaults pec (s : State) : exec (.clearFaults pec) s = execClearFaults pec s := rfl
theorem exec_writeProtect op (s : State) : exec (.writeProtect op) s = execWriteProtect op s := rfl
theorem exec_capability op (s : State) : exec (.capability op) s = execCapability op s := rfl
theorem exec_voutMode op (s : State) : exec (.voutMode op) s = execVoutMode op s := rfl
theorem exec_voutCommand op (s : State) : exec (.voutCommand op) s = execVoutCommand op s := rfl
theorem exec_voutMax op (s : State) : exec (.voutMax op) s = execVoutMax op s := rfl
theorem exec_voutTransitionRate op (s : State) : exec (.voutTransitionRate op) s = execVoutTransitionRate op s := rfl
theorem exec_coefficients code rw pec (s : State) : exec (.coefficients code rw pec) s = execCoefficients code rw pec s := rfl
theorem exec_voutOvFaultLimit op (s : State) : exec (.voutOvFaultLimit op) s = execVoutOvFaultLimit op s := rfl
theorem exec_voutUvFaultLimit op (s : State) : exec (.voutUvFaultLimit op) s = execVoutUvFaultLimit op s := rfl
theorem exec_ioutOcFaultLimit op (s : State) : exec (.ioutOcFaultLimit op) s = execIoutOcFaultLimit op s := rfl
theorem exec_otFaultLimit op (s : State) : exec (.otFaultLimit op) s = execOtFaultLimit op s := rfl
theorem exec_vinOvFaultLimit op (s : State) : exec (.vinOvFaultLimit op) s = execVinOvFaultLimit op s := rfl
theorem exec_vinUvFaultLimit op (s : State) : exec (.vinUvFaultLimit op) s = execVinUvFaultLimit op s := rfl
theorem exec_statusByte op (s : State) : exec (.statusByte op) s = execStatusByte op s := rfl
theorem exec_statusWord op (s : State) : exec (.statusWord op) s = execStatusWord op s := rfl
theorem exec_statusVout op (s : State) : exec (.statusVout op) s = execStatusVout op s := rfl
theorem exec_statusIout op (s : State) : exec (.statusIout op) s = execStatusIout op s := rfl
theorem exec_statusInput op (s : State) : exec (.statusInput op) s = execStatusInput op s := rfl
theorem exec_statusTemperature op (s : State) : exec (.statusTemperature op) s = execStatusTemperature op s := rfl
theorem exec_statusCml op (s : State) : exec (.statusCml op) s = execStatusCml op s := rfl
theorem exec_readVin op (s : State) : exec (.readVin op) s = execReadVin op s := rfl
theorem exec_readIin op (s : State) : exec (.readIin op) s = execReadIin op s := rfl
theorem exec_readVout op (s : State) : exec (.readVout op) s = execReadVout op s := rfl
theorem exec_readIout op (s : State) : exec (.readIout op) s = execReadIout op s := rfl
theorem exec_readTemperature1 op (s : State) : exec (.readTemperature1 op) s = execReadTemperature1 op s := rfl
theorem exec_readTemperature2 op (s : State) : exec (.readTemperature2 op) s = execReadTemperature2 op s := rfl
theorem exec_readPout op (s : State) : exec (.readPout op) s = execReadPout op s := rfl
theorem exec_pmbusRevision op (s : State) : exec (.pmbusRevision op) s = execPmbusRevision op s := rfl
theorem exec_mfrId op (s : State) : exec (.mfrId op) s = execMfrId op s := rfl
theorem exec_mfrModel op (s : State) : exec (.mfrModel op) s = execMfrModel op s := rfl
theorem exec_mfrRevision op (s : State) : exec (.mfrRevision op) s = execMfrRevision op s := rfl
theorem exec_mfrWindowAddr op (s : State) : exec (.mfrWindowAddr op) s = execMfrWindowAddr op s := rfl
theorem exec_mfrWindowData op (s : State) : exec (.mfrWindowData op) s = execMfrWindowData op s := rfl
theorem exec_mfrWindowDataInc op (s : State) : exec (.mfrWindowDataInc op) s = execMfrWindowDataInc op s := rfl
theorem exec_mfrFleetReport op (s : State) : exec (.mfrFleetReport op) s = execMfrFleetReport op s := rfl
theorem exec_windowSample n d lag2 mism (s : State) : exec (.windowSample n d lag2 mism) s = execWindowSample n d lag2 mism s := rfl
theorem exec_pacemiss slice (s : State) : exec (.pacemiss slice) s = execPacemiss slice s := rfl
theorem exec_railFire n sinceFire offFor lat (s : State) : exec (.railFire n sinceFire offFor lat) s = execRailFire n sinceFire offFor lat s := rfl
theorem exec_onTimeEnd k (s : State) : exec (.onTimeEnd k) s = execOnTimeEnd k s := rfl
theorem exec_integratorReset n (s : State) : exec (.integratorReset n) s = execIntegratorReset n s := rfl
theorem exec_railEnable n (s : State) : exec (.railEnable n) s = execRailEnable n s := rfl
theorem exec_railDisable n soft (s : State) : exec (.railDisable n soft) s = execRailDisable n soft s := rfl
theorem exec_precheckDone n (s : State) : exec (.precheckDone n) s = execPrecheckDone n s := rfl
theorem exec_prebiasDone n (s : State) : exec (.prebiasDone n) s = execPrebiasDone n s := rfl
theorem exec_pgoodRise n heldUs (s : State) : exec (.pgoodRise n heldUs) s = execPgoodRise n heldUs s := rfl
theorem exec_pgoodFall n heldNs (s : State) : exec (.pgoodFall n heldNs) s = execPgoodFall n heldNs s := rfl
theorem exec_rampfailPgtmo n us (s : State) : exec (.rampfailPgtmo n us) s = execRampfailPgtmo n us s := rfl
theorem exec_snsopen n (s : State) : exec (.snsopen n) s = execSnsopen n s := rfl
theorem exec_engineSnapshot j (s : State) : exec (.engineSnapshot j) s = execEngineSnapshot j s := rfl
theorem exec_compWordApply j (s : State) : exec (.compWordApply j) s = execCompWordApply j s := rfl
theorem exec_engineTakeover n (s : State) : exec (.engineTakeover n) s = execEngineTakeover n s := rfl
theorem exec_calStart k (s : State) : exec (.calStart k) s = execCalStart k s := rfl
theorem exec_calDone k mean csrefOk (s : State) : exec (.calDone k mean csrefOk) s = execCalDone k mean csrefOk s := rfl
theorem exec_stgfltTrip g ns (s : State) : exec (.stgfltTrip g ns) s = execStgfltTrip g ns s := rfl
theorem exec_stgfltRelease g ns (s : State) : exec (.stgfltRelease g ns) s = execStgfltRelease g ns s := rfl
theorem exec_portAssign k rail shpri (s : State) : exec (.portAssign k rail shpri) s = execPortAssign k rail shpri s := rfl
theorem exec_orderCommit n (s : State) : exec (.orderCommit n) s = execOrderCommit n s := rfl
theorem exec_idStart k (s : State) : exec (.idStart k) s = execIdStart k s := rfl
theorem exec_idEnd dev k (s : State) : exec (.idEnd dev k) s = execIdEnd dev k s := rfl
theorem exec_shareRise k periods (s : State) : exec (.shareRise k periods) s = execShareRise k periods s := rfl
theorem exec_shareFall k periods (s : State) : exec (.shareFall k periods) s = execShareFall k periods s := rfl
theorem exec_autoshedWindowEnd n (s : State) : exec (.autoshedWindowEnd n) s = execAutoshedWindowEnd n s := rfl
theorem exec_i3cBusUp b targets (s : State) : exec (.i3cBusUp b targets) s = execI3cBusUp b targets s := rfl
theorem exec_i3cBusDisable b (s : State) : exec (.i3cBusDisable b) s = execI3cBusDisable b s := rfl
theorem exec_i3cBusReset b (s : State) : exec (.i3cBusReset b) s = execI3cBusReset b s := rfl
theorem exec_i3cDaa b targets (s : State) : exec (.i3cDaa b targets) s = execI3cDaa b targets s := rfl
theorem exec_i3cHotJoin b targets (s : State) : exec (.i3cHotJoin b targets) s = execI3cHotJoin b targets s := rfl
theorem exec_i3cIbi b da mdb (s : State) : exec (.i3cIbi b da mdb) s = execI3cIbi b da mdb s := rfl
theorem exec_itemRead b (s : State) : exec (.itemRead b) s = execItemRead b s := rfl
theorem exec_itemReceived b reply (s : State) : exec (.itemReceived b reply) s = execItemReceived b reply s := rfl
theorem exec_itemReadRetry b (s : State) : exec (.itemReadRetry b) s = execItemReadRetry b s := rfl
theorem exec_nop t (s : State) : exec (.nop t) s = execNop t s := rfl
theorem exec_vset t (s : State) : exec (.vset t) s = execVset t s := rfl
theorem exec_vrel t (s : State) : exec (.vrel t) s = execVrel t s := rfl
theorem exec_phreq t (s : State) : exec (.phreq t) s = execPhreq t s := rfl
theorem exec_vquery t (s : State) : exec (.vquery t) s = execVquery t s := rfl
theorem exec_tlmrd t (s : State) : exec (.tlmrd t) s = execTlmrd t s := rfl
theorem exec_vseta t (s : State) : exec (.vseta t) s = execVseta t s := rfl
theorem exec_auwr t (s : State) : exec (.auwr t) s = execAuwr t s := rfl
theorem exec_recordWrite b ack (s : State) : exec (.recordWrite b ack) s = execRecordWrite b ack s := rfl
theorem exec_recordRetry b ack (s : State) : exec (.recordRetry b ack) s = execRecordRetry b ack s := rfl
theorem exec_getstatusPoll b da reply (s : State) : exec (.getstatusPoll b da reply) s = execGetstatusPoll b da reply s := rfl
theorem exec_ovfVoteExpire n (s : State) : exec (.ovfVoteExpire n) s = execOvfVoteExpire n s := rfl
theorem exec_cmdFlush ctx (s : State) : exec (.cmdFlush ctx) s = execCmdFlush ctx s := rfl
theorem exec_flushall (s : State) : exec .flushall s = execFlushall s := rfl
theorem exec_orpPop (s : State) : exec .orpPop s = execOrpPop s := rfl
theorem exec_lnkEnable en (s : State) : exec (.lnkEnable en) s = execLnkEnable en s := rfl
theorem exec_lnkInputLock (s : State) : exec .lnkInputLock s = execLnkInputLock s := rfl
theorem exec_ringOpen (s : State) : exec .ringOpen s = execRingOpen s := rfl
theorem exec_enumFrame h id own (s : State) : exec (.enumFrame h id own) s = execEnumFrame h id own s := rfl
theorem exec_ringMeasureDone h id fwd chofs rtt (s : State) : exec (.ringMeasureDone h id fwd chofs rtt) s = execRingMeasureDone h id fwd chofs rtt s := rfl
theorem exec_slotmapFrame h ndev map hops bound (s : State) : exec (.slotmapFrame h ndev map hops bound) s = execSlotmapFrame h ndev map hops bound s := rfl
theorem exec_bindCheckFrame h port orail confirm (s : State) : exec (.bindCheckFrame h port orail confirm) s = execBindCheckFrame h port orail confirm s := rfl
theorem exec_openFrame h refused (s : State) : exec (.openFrame h refused) s = execOpenFrame h refused s := rfl
theorem exec_creditFrame h vc cls count (s : State) : exec (.creditFrame h vc cls count) s = execCreditFrame h vc cls count s := rfl
theorem exec_tokenDispatch n (s : State) : exec (.tokenDispatch n) s = execTokenDispatch n s := rfl
theorem exec_token devid rail port primBad chordBad age (s : State) : exec (.token devid rail port primBad chordBad age) s = execToken devid rail port primBad chordBad age s := rfl
theorem exec_preload h port ton (s : State) : exec (.preload h port ton) s = execPreload h port ton s := rfl
theorem exec_fired h src port isamp age late (s : State) : exec (.fired h src port isamp age late) s = execFired h src port isamp age late s := rfl
theorem exec_missed h src port isamp age late (s : State) : exec (.missed h src port isamp age late) s = execMissed h src port isamp age late s := rfl
theorem exec_held h src port isamp age late (s : State) : exec (.held h src port isamp age late) s = execHeld h src port isamp age late s := rfl
theorem exec_mid h port (s : State) : exec (.mid h port) s = execMid h port s := rfl
theorem exec_idResultFrame h port num den (s : State) : exec (.idResultFrame h port num den) s = execIdResultFrame h port num den s := rfl
theorem exec_faultRelayFrame h group tripped (s : State) : exec (.faultRelayFrame h group tripped) s = execFaultRelayFrame h group tripped s := rfl
theorem exec_lendtmo k us (s : State) : exec (.lendtmo k us) s = execLendtmo k us s := rfl
theorem exec_primaryLoss (s : State) : exec .primaryLoss s = execPrimaryLoss s := rfl
theorem exec_absentNotice h id (s : State) : exec (.absentNotice h id) s = execAbsentNotice h id s := rfl
theorem exec_primaryReturn (s : State) : exec .primaryReturn s = execPrimaryReturn s := rfl
theorem exec_ringBreak (s : State) : exec .ringBreak s = execRingBreak s := rfl
theorem exec_breakNotice h id (s : State) : exec (.breakNotice h id) s = execBreakNotice h id s := rfl
theorem exec_comparatorAssert c hi (s : State) : exec (.comparatorAssert c hi) s = execComparatorAssert c hi s := rfl
theorem exec_comparatorDeassert c hi (s : State) : exec (.comparatorDeassert c hi) s = execComparatorDeassert c hi s := rfl
theorem exec_cmpThresholdWrite j v (s : State) : exec (.cmpThresholdWrite j v) s = execCmpThresholdWrite j v s := rfl
theorem exec_cmpModeWrite j v (s : State) : exec (.cmpModeWrite j v) s = execCmpModeWrite j v s := rfl
theorem exec_crowClear n (s : State) : exec (.crowClear n) s = execCrowClear n s := rfl
theorem exec_pclactExpire n (s : State) : exec (.pclactExpire n) s = execPclactExpire n s := rfl
theorem exec_hiccupTrigger n byRoc count (s : State) : exec (.hiccupTrigger n byRoc count) s = execHiccupTrigger n byRoc count s := rfl
theorem exec_hiccupRestart n (s : State) : exec (.hiccupRestart n) s = execHiccupRestart n s := rfl
theorem exec_hiccupCountClear n (s : State) : exec (.hiccupCountClear n) s = execHiccupCountClear n s := rfl
theorem exec_uvArm n (s : State) : exec (.uvArm n) s = execUvArm n s := rfl
theorem exec_uvFault n (s : State) : exec (.uvFault n) s = execUvFault n s := rfl
theorem exec_tripLineActive l (s : State) : exec (.tripLineActive l) s = execTripLineActive l s := rfl
theorem exec_tripLineInactive l (s : State) : exec (.tripLineInactive l) s = execTripLineInactive l s := rfl
theorem exec_tripClear g (s : State) : exec (.tripClear g) s = execTripClear g s := rfl
theorem exec_auxEnable n (s : State) : exec (.auxEnable n) s = execAuxEnable n s := rfl
theorem exec_auxDisable n (s : State) : exec (.auxDisable n) s = execAuxDisable n s := rfl
theorem exec_auxCapture n vfb ns (s : State) : exec (.auxCapture n vfb ns) s = execAuxCapture n vfb ns s := rfl
theorem exec_auxPeriodBoundary n (s : State) : exec (.auxPeriodBoundary n) s = execAuxPeriodBoundary n s := rfl
theorem exec_auxDutyInstant n (s : State) : exec (.auxDutyInstant n) s = execAuxDutyInstant n s := rfl
theorem exec_auxDeadtimeEnd n (s : State) : exec (.auxDeadtimeEnd n) s = execAuxDeadtimeEnd n s := rfl
theorem exec_auxReload n (s : State) : exec (.auxReload n) s = execAuxReload n s := rfl
theorem exec_auxForce n v (s : State) : exec (.auxForce n v) s = execAuxForce n v s := rfl
theorem exec_auxGoodRise n us (s : State) : exec (.auxGoodRise n us) s = execAuxGoodRise n us s := rfl
theorem exec_xuv n us (s : State) : exec (.xuv n us) s = execXuv n us s := rfl
theorem exec_xoc n (s : State) : exec (.xoc n) s = execXoc n s := rfl
theorem exec_fanPeriod (s : State) : exec .fanPeriod s = execFanPeriod s := rfl
theorem exec_fanTachEdge (s : State) : exec .fanTachEdge s = execFanTachEdge s := rfl
theorem exec_fanstall ms (s : State) : exec (.fanstall ms) s = execFanstall ms s := rfl
theorem exec_tlmBaseSample vin (s : State) : exec (.tlmBaseSample vin) s = execTlmBaseSample vin s := rfl
theorem exec_tlmSwap (s : State) : exec .tlmSwap s = execTlmSwap s := rfl
theorem exec_pkcall (s : State) : exec .pkcall s = execPkcall s := rfl
theorem exec_tlmPeakClear (s : State) : exec .tlmPeakClear s = execTlmPeakClear s := rfl
theorem exec_tlmPkrRead (s : State) : exec .tlmPkrRead s = execTlmPkrRead s := rfl
theorem exec_winmonRead n (s : State) : exec (.winmonRead n) s = execWinmonRead n s := rfl
theorem exec_enLatRead j (s : State) : exec (.enLatRead j) s = execEnLatRead j s := rfl
theorem exec_cmdTagsRead (s : State) : exec .cmdTagsRead s = execCmdTagsRead s := rfl
theorem exec_fltLatchRead (s : State) : exec .fltLatchRead s = execFltLatchRead s := rfl
theorem exec_devTimelRead (s : State) : exec .devTimelRead s = execDevTimelRead s := rfl
theorem exec_crumbMerge (s : State) : exec .crumbMerge s = execCrumbMerge s := rfl
theorem exec_packTimeout us (s : State) : exec (.packTimeout us) s = execPackTimeout us s := rfl
theorem exec_crbDataRead p (s : State) : exec (.crbDataRead p) s = execCrbDataRead p s := rfl
theorem exec_crbFlush push slot (s : State) : exec (.crbFlush push slot) s = execCrbFlush push slot s := rfl
theorem exec_crbRselWrite v (s : State) : exec (.crbRselWrite v) s = execCrbRselWrite v s := rfl
theorem exec_crbRdataRead p (s : State) : exec (.crbRdataRead p) s = execCrbRdataRead p s := rfl
theorem exec_req h rp fp nmax (s : State) : exec (.req h rp fp nmax) s = execReq h rp fp nmax s := rfl
theorem exec_sync h nmax (s : State) : exec (.sync h nmax) s = execSync h nmax s := rfl
theorem exec_data h wp fp words (s : State) : exec (.data h wp fp words) s = execData h wp fp words s := rfl
theorem exec_resync h wp rp (s : State) : exec (.resync h wp rp) s = execResync h wp rp s := rfl
theorem exec_crbRequest us (s : State) : exec (.crbRequest us) s = execCrbRequest us s := rfl
theorem exec_crbReqTimeout us (s : State) : exec (.crbReqTimeout us) s = execCrbReqTimeout us s := rfl
theorem exec_hkRoundStart (s : State) : exec .hkRoundStart s = execHkRoundStart s := rfl
theorem exec_hkRoundEnd temps tmon sup refs (s : State) : exec (.hkRoundEnd temps tmon sup refs) s = execHkRoundEnd temps tmon sup refs s := rfl
theorem exec_hkRoundAbandon (s : State) : exec .hkRoundAbandon s = execHkRoundAbandon s := rfl
theorem exec_faultMessage (s : State) : exec .faultMessage s = execFaultMessage s := rfl
theorem exec_faultRelease v (s : State) : exec (.faultRelease v) s = execFaultRelease v s := rfl
theorem exec_classWrite j v (s : State) : exec (.classWrite j v) s = execClassWrite j v s := rfl
theorem exec_faultForce j v (s : State) : exec (.faultForce j v) s = execFaultForce j v s := rfl
theorem exec_fltreg (s : State) : exec .fltreg s = execFltreg s := rfl
theorem exec_runsvc (s : State) : exec .runsvc s = execRunsvc s := rfl
theorem exec_park (s : State) : exec .park s = execPark s := rfl
theorem exec_abort (s : State) : exec .abort s = execAbort s := rfl
theorem exec_endStep (s : State) : exec .endStep s = execEndStep s := rfl
theorem exec_enable (s : State) : exec .enable s = execEnable s := rfl
theorem exec_waitgood (s : State) : exec .waitgood s = execWaitgood s := rfl
theorem exec_waitgoodSatisfied (s : State) : exec .waitgoodSatisfied s = execWaitgoodSatisfied s := rfl
theorem exec_bkhtmo (s : State) : exec .bkhtmo s = execBkhtmo s := rfl
theorem exec_delay (s : State) : exec .delay s = execDelay s := rfl
theorem exec_delayEnd (s : State) : exec .delayEnd s = execDelayEnd s := rfl
theorem exec_check (s : State) : exec .check s = execCheck s := rfl
theorem exec_brfault (s : State) : exec .brfault s = execBrfault s := rfl
theorem exec_report (s : State) : exec .report s = execReport s := rfl
theorem exec_seqInputChange j level (s : State) : exec (.seqInputChange j level) s = execSeqInputChange j level s := rfl
theorem exec_wakeEdge (s : State) : exec .wakeEdge s = execWakeEdge s := rfl
theorem exec_sleepTimeout (s : State) : exec .sleepTimeout s = execSleepTimeout s := rfl
theorem exec_mainenRelease late (s : State) : exec (.mainenRelease late) s = execMainenRelease late s := rfl
theorem exec_bbRecordWrite (s : State) : exec .bbRecordWrite s = execBbRecordWrite s := rfl
theorem exec_flashProgramDone (s : State) : exec .flashProgramDone s = execFlashProgramDone s := rfl
theorem exec_flashEraseDone ok (s : State) : exec (.flashEraseDone ok) s = execFlashEraseDone ok s := rfl
theorem exec_fleetReportForm (s : State) : exec .fleetReportForm s = execFleetReportForm s := rfl
theorem exec_logScanDone (s : State) : exec .logScanDone s = execLogScanDone s := rfl
theorem exec_nvmProgram p (s : State) : exec (.nvmProgram p) s = execNvmProgram p s := rfl
theorem exec_nvmErase p (s : State) : exec (.nvmErase p) s = execNvmErase p s := rfl
theorem exec_nvmRead p (s : State) : exec (.nvmRead p) s = execNvmRead p s := rfl
theorem exec_nvmOpDone (s : State) : exec .nvmOpDone s = execNvmOpDone s := rfl
theorem exec_scrub sector corr words (s : State) : exec (.scrub sector corr words) s = execScrub sector corr words s := rfl
theorem exec_ctlRecordWrite (s : State) : exec .ctlRecordWrite s = execCtlRecordWrite s := rfl
theorem exec_nvmHoldEnd (s : State) : exec .nvmHoldEnd s = execNvmHoldEnd s := rfl
theorem exec_keyProvision slot (s : State) : exec (.keyProvision slot) s = execKeyProvision slot s := rfl
theorem exec_keyImgauth slot (s : State) : exec (.keyImgauth slot) s = execKeyImgauth slot s := rfl
theorem exec_provClose (s : State) : exec .provClose s = execProvClose s := rfl
theorem exec_otpBurnDone (s : State) : exec .otpBurnDone s = execOtpBurnDone s := rfl
theorem exec_secFailDecay (s : State) : exec .secFailDecay s = execSecFailDecay s := rfl
theorem exec_secHoldoffEnd (s : State) : exec .secHoldoffEnd s = execSecHoldoffEnd s := rfl
theorem exec_vkeepPowerOn (s : State) : exec .vkeepPowerOn s = execVkeepPowerOn s := rfl
theorem exec_supplyRise j (s : State) : exec (.supplyRise j) s = execSupplyRise j s := rfl
theorem exec_supplyFall j (s : State) : exec (.supplyFall j) s = execSupplyFall j s := rfl
theorem exec_wakingSupplyGood (s : State) : exec .wakingSupplyGood s = execWakingSupplyGood s := rfl
theorem exec_wakingTimeout (s : State) : exec .wakingTimeout s = execWakingTimeout s := rfl
theorem exec_rstNAssert ns (s : State) : exec (.rstNAssert ns) s = execRstNAssert ns s := rfl
theorem exec_rstNRelease (s : State) : exec .rstNRelease s = execRstNRelease s := rfl
theorem exec_swrst (s : State) : exec .swrst s = execSwrst s := rfl
theorem exec_coldnext (s : State) : exec .coldnext s = execColdnext s := rfl
theorem exec_bootStart a0 a1 (s : State) : exec (.bootStart a0 a1) s = execBootStart a0 a1 s := rfl
theorem exec_bootPhaseAEnd (s : State) : exec .bootPhaseAEnd s = execBootPhaseAEnd s := rfl
theorem exec_bootPhaseBEnd (s : State) : exec .bootPhaseBEnd s = execBootPhaseBEnd s := rfl
theorem exec_bootPhaseCEnd fails us (s : State) : exec (.bootPhaseCEnd fails us) s = execBootPhaseCEnd fails us s := rfl
theorem exec_bootPhaseDEnd means csref (s : State) : exec (.bootPhaseDEnd means csref) s = execBootPhaseDEnd means csref s := rfl
theorem exec_bootEnd us (s : State) : exec (.bootEnd us) s = execBootEnd us s := rfl
theorem exec_shadowRequest n ms (s : State) : exec (.shadowRequest n ms) s = execShadowRequest n ms s := rfl
theorem exec_maintGrant (s : State) : exec .maintGrant s = execMaintGrant s := rfl
theorem exec_shadowStart (s : State) : exec .shadowStart s = execShadowStart s := rfl
theorem exec_shadowPass (s : State) : exec .shadowPass s = execShadowPass s := rfl
theorem exec_retestDone unit ok (s : State) : exec (.retestDone unit ok) s = execRetestDone unit ok s := rfl
theorem exec_bistbgRun min (s : State) : exec (.bistbgRun min) s = execBistbgRun min s := rfl
theorem exec_bgnow (s : State) : exec .bgnow s = execBgnow s := rfl
theorem exec_bistbgDone unit ok (s : State) : exec (.bistbgDone unit ok) s = execBistbgDone unit ok s := rfl
theorem exec_recalRequest secs (s : State) : exec (.recalRequest secs) s = execRecalRequest secs s := rfl
theorem exec_recalDone region fails (s : State) : exec (.recalDone region fails) s = execRecalDone region fails s := rfl
theorem exec_slcmpRequest (s : State) : exec .slcmpRequest s = execSlcmpRequest s := rfl
theorem exec_slcmpDone inst mism (s : State) : exec (.slcmpDone inst mism) s = execSlcmpDone inst mism s := rfl
theorem exec_repairMapWrite (s : State) : exec .repairMapWrite s = execRepairMapWrite s := rfl
theorem exec_frzPinChange level (s : State) : exec (.frzPinChange level) s = execFrzPinChange level s := rfl
theorem exec_obs b (s : State) : exec (.obs b) s = execObs b s := rfl
theorem exec_full (s : State) : exec .full s = execFull s := rfl
theorem exec_recap (s : State) : exec .recap s = execRecap s := rfl
theorem exec_freezeAllMid (s : State) : exec .freezeAllMid s = execFreezeAllMid s := rfl
theorem exec_freezeHalt (s : State) : exec .freezeHalt s = execFreezeHalt s := rfl
theorem exec_rackdataRead (s : State) : exec .rackdataRead s = execRackdataRead s := rfl
theorem exec_tapReset (s : State) : exec .tapReset s = execTapReset s := rfl
theorem exec_extest bits (s : State) : exec (.extest bits) s = execExtest bits s := rfl
theorem exec_samplePreload bits (s : State) : exec (.samplePreload bits) s = execSamplePreload bits s := rfl
theorem exec_idcode (s : State) : exec .idcode s = execIdcode s := rfl
theorem exec_regacc wr pg off data (s : State) : exec (.regacc wr pg off data) s = execRegacc wr pg off data s := rfl
theorem exec_frzScan (s : State) : exec .frzScan s = execFrzScan s := rfl
theorem exec_frzRead addr (s : State) : exec (.frzRead addr) s = execFrzRead addr s := rfl
theorem exec_bypass code (s : State) : exec (.bypass code) s = execBypass s code := rfl
theorem exec_vkeepLoss (s : State) : exec .vkeepLoss s = execVkeepLoss s := rfl
theorem exec_snsopenRelease n (s : State) : exec (.snsopenRelease n) s = execSnsopenRelease n s := rfl
theorem exec_phaseAdcSample k code (s : State) : exec (.phaseAdcSample k code) s = execPhaseAdcSample k code s := rfl
theorem exec_getstatusRetry b da reply (s : State) : exec (.getstatusRetry b da reply) s = execGetstatusRetry b da reply s := rfl
theorem exec_idRequestFrame h port ask (s : State) : exec (.idRequestFrame h port ask) s = execIdRequestFrame h port ask s := rfl
theorem exec_cascadeCheckAnswer h id busy (s : State) : exec (.cascadeCheckAnswer h id busy) s = execCascadeCheckAnswer h id busy s := rfl
theorem exec_fLaneSlot prim chord (s : State) : exec (.fLaneSlot prim chord) s = execFLaneSlot prim chord s := rfl
theorem exec_defaultDownWaitEnd (s : State) : exec .defaultDownWaitEnd s = execDefaultDownWaitEnd s := rfl

end Sys2Proof.Machine
end

