-- ==== Sys2Proof/Laws/Forms.lean ====
section
/-! SUPPORT. Every write of a register and of the flash keeps the canonical form of what it writes. -/
namespace Sys2Proof.Machine

/-- A register write keeps the register file in its canonical form. -/
theorem Core.setReg_wf {c : Core} (pg off : Nat) (w : Word) (h : c.regsWf = true) : (c.setReg pg off w).regsWf = true :=
  Sparse.wf_put _ _ _ h

/-- So does a write of one field. -/
theorem Core.setFld_wf {c : Core} (pg : Nat) (f : Field) (v : Nat) (h : c.regsWf = true) : (c.setFld pg f v).regsWf = true :=
  Core.setReg_wf _ _ _ h
/-- A byte programmed keeps the flash in its canonical form. -/
theorem State.flashPut_wf {s : State} (a : Nat) (b : Byte) (h : s.st.flashWf = true) : (s.flashPut a b).st.flashWf = true :=
  Sparse.wf_put _ _ _ h

/-- So does a run of bytes. -/
theorem State.flashWrite_wf (l : List Byte) : ∀ {s : State} (a : Nat), s.st.flashWf = true → (s.flashWrite a l).st.flashWf = true := by
  induction l with
  | nil => exact fun _ h => h
  | cons b t ih => exact fun a h => ih (a + 1) (State.flashPut_wf a b h)

end Sys2Proof.Machine
end

