-- ==== Sys2Proof/Laws/Powers.lean ====
section
/-! SUPPORT. What the supplies, the resets and BOOT can do. -/
namespace Sys2Proof.Machine


/-- The requests of DEV_CTRL read 0 when the register is written back. -/
theorem dev_ctrl_word (c : Core) (i m : Nat) (hi : i < 2) (hm : m < 2) : bitOf (setBits (c.wordOf pgDEV 4) i 1 1) m = decide (m = i) := by
  by_cases h : m = i
  · subst h; rw [bitOf_setBits_one _ _ _ (by omega)]; simp
  · rw [bitOf_setBits_other _ _ _ _ _ (by omega) (by omega), bitOf_wordOf _ _ _ (show kindOf pgDEV = some .dev from rfl),
      (by decide +kernel : ∀ m < 2, ((fieldsAt PageKind.dev 4).any fun f => f.acc = Access.w1s && f.lo ≤ m && m < f.lo + f.len) = true) m hm]
    simp [h]

theorem State.writePage_dev (s : State) (off : Nat) (w : Word) : s.writePage pgDEV off w = s.writeDev off w := rfl

/-- A write of DEV_CTRL (R410, R416). -/
theorem State.writeDev_ctrl (s : State) (w : Word) : s.writeDev 4 w =
    (let s := if bitOf w 1 then { s with pw := { s.pw with fastok := false } } else s
     if bitOf w 0 then s.softReset else s) := rfl

/-- One request of DEV_CTRL written by a host. -/
theorem State.devCtrl_write {s : State} (h : s.serviceRuns = true) (f : Field) (h1 : f.off = 4) (h2 : f.len = 1) (h3 : f.lo < 2) :
    s.fieldWrite pgDEV f 1 = ((s.writeDev 4 (setBits (s.core.wordOf pgDEV 4) f.lo 1 1)).rest).frameEnd := by
  rw [State.fieldWrite, State.regWrite_eq h _ _ (by decide), State.writeNow_eq _ _ (.inl (by decide)), h1, h2,
    State.writeReg_ctrl _ _ _ (Core.wordOf_prst _ _ _ _ _ (by omega)), State.writePage_dev]

/-- SWRST (R416). -/
theorem State.devCtrl_swrst {s : State} (h : s.serviceRuns = true) : s.fieldWrite pgDEV DEV_CTRL_SWRST 1 = s.softReset.rest.frameEnd := by
  rw [State.devCtrl_write h _ rfl rfl (by decide), State.writeDev_ctrl]
  rw [show bitOf (setBits (s.core.wordOf pgDEV 4) DEV_CTRL_SWRST.lo 1 1) 0 = true from dev_ctrl_word s.core 0 0 (by decide) (by decide),
    show bitOf (setBits (s.core.wordOf pgDEV 4) DEV_CTRL_SWRST.lo 1 1) 1 = false from dev_ctrl_word s.core 0 1 (by decide) (by decide)]
  rfl

/-- COLDNEXT (R410). -/
theorem State.devCtrl_cold {s : State} (h : s.serviceRuns = true) :
    s.fieldWrite pgDEV DEV_CTRL_COLDNEXT 1 = ({ s with pw := { s.pw with fastok := false } } : State).rest.frameEnd := by
  rw [State.devCtrl_write h _ rfl rfl (by decide), State.writeDev_ctrl]
  rw [show bitOf (setBits (s.core.wordOf pgDEV 4) DEV_CTRL_COLDNEXT.lo 1 1) 0 = false from dev_ctrl_word s.core 1 0 (by decide) (by decide),
    show bitOf (setBits (s.core.wordOf pgDEV 4) DEV_CTRL_COLDNEXT.lo 1 1) 1 = true from dev_ctrl_word s.core 1 1 (by decide) (by decide)]
  rfl


/-- The end of BOOT up to the state it enters (R412). -/
theorem State.bootEnd_eq (s : State) (us : Nat) : s.bootEnd us =
    (let t := s.loadPrograms.findHead.applyHeldIf (fun h => !isBakeWrite h)
     let t : State := { t with pw := { t.pw with bootUs := min us 65535 } }
     let t := ((t.queueRecord 2 t.pw.cause 0).bootBits.onCore Core.bootHoldoff).phaseEnds
     (t.enterFromBoot.applyHeldIf isBakeWrite).formReport.syncFlt.rest.frameEnd) := by
  unfold State.bootEnd
  rfl

/-- With the GRAVE latch clear UP starts (R356, R404). -/
theorem State.enterFromBoot_up (s : State) (h : s.pw.grave = false) :
    s.enterFromBoot =
      (let d := (s.onCore (fun c => { c with bkh := { c.bkh with outEn := true } })).startUp
       if d.core.flt.dev.held then d.bakeFault else d) := by
  unfold State.enterFromBoot
  exact if_neg (show ¬s.pw.grave = true by rw [h]; decide)

/-- With the GRAVE latch set GRAVE is entered (R338, R404). -/
theorem State.enterFromBoot_grave (s : State) (h : s.pw.grave = true) : s.enterFromBoot =
    (let d := ((s.onCore (fun c => { c with bkh := { c.bkh with outEn := true } })).deviceAction (msgSrc s.pw.graveMsg)).onCore
       (fun c => c.setSticky (msgSrc s.pw.graveMsg))
     { d with pw := d.pw.enterGrave }) := by
  unfold State.enterFromBoot
  exact if_pos h

end Sys2Proof.Machine
end

