-- ==== Sys2Proof/Laws/Protect.lean ====
section
/-! SUPPORT. What a change of a comparator, a trip and a write of their pages can do. -/
namespace Sys2Proof.Machine

/-! ## C50 and C51 (R226, R360, R404) -/

theorem State.alive_setPw {s : State} (p : Power) (h : s.alive = true) (h1 : p.pstate = s.pw.pstate) (h2 : p.inReset = s.pw.inReset) (c : Core) :
    ({ s with pw := p, core := c } : State).alive = true := by
  rw [← h]; simp only [State.alive, h1, h2]

theorem State.alive_not_parked {s : State} (h : s.alive = true) : s.pw.pstate ≠ .parked := by
  intro h1
  simp only [State.alive, h1, PState.code, Bool.and_eq_true, decide_eq_true_eq] at h
  omega

/-- C50 changes in a running core. -/
theorem State.compare_vcc33 (s : State) (b : Bool) (h : s.alive = true) (h1 : s.pw.isGood 4 = true) (h2 : s.pw.pstate ≠ .parked)
    (h3 : s.pw.lo50 ≠ b) :
    s.compare 50 false b = ({ s with pw := { s.pw with lo50 := b } } : State).after (s.core.cmpChange 50 false b) := by
  have a := State.alive_setPw { s.pw with lo50 := b } h rfl rfl s.core
  have a' := State.alive_setPw { s.pw with lo50 := b } h rfl rfl (s.core.cmpChange 50 false b)
  have e : s.picoSet 50 false b = { s with pw := { s.pw with lo50 := b }, core := s.core.cmpChange 50 false b } := by
    unfold State.picoSet
    exact if_pos a
  have g : (!s.pw.isGood 4 || decide (s.pw.pico 50 false = b)) = false := by
    rw [h1, show s.pw.pico 50 false = s.pw.lo50 from rfl, decide_eq_false h3]; rfl
  rw [State.compare, if_pos (by decide), State.picoChange, if_neg (by rw [g]; decide)]
  simp only [Bool.and_false, Bool.false_and, Bool.false_eq_true, if_false, e]
  have np : ({ s with pw := { s.pw with lo50 := b }, core := s.core.cmpChange 50 false b } : State).suppliesUp =
      { s with pw := { s.pw with lo50 := b }, core := s.core.cmpChange 50 false b } := by
    unfold State.suppliesUp
    exact if_neg (by rw [decide_eq_false (show ¬({ s.pw with lo50 := b } : Power).pstate = .parked from h2), Bool.false_and, Bool.false_and, Bool.false_and]; decide)
  rw [np, ite_self]
  exact if_pos a'

theorem State.picoSet_wake (s : State) (b : Bool) (h : s.alive = true) :
    s.picoSet 51 true b = { s with pw := { s.pw with hi51 := b }, core := s.core.cmpChange 51 true b } := by
  unfold State.picoSet
  exact if_pos (State.alive_setPw { s.pw with hi51 := b } h rfl rfl s.core)

theorem State.wakeEdge_running (t : State) (h : t.alive = true) (h1 : t.pw.isGood 4 = true) :
    t.wakeEdge = t.onCore (fun c => ((c.incSat pgBKH BKH_WAKE_EDGES 1).setStat pgBKH 7 true).raise pgBKH 7) := by
  unfold State.wakeEdge
  rw [if_neg (by rw [h1]; decide), if_neg (State.alive_not_parked h), if_pos h]

theorem State.wakeEdge_parked (t : State) (h : t.pw.pstate = .parked) (h1 : t.pw.isGood 4 = true) : t.wakeEdge = t.toWaking 2 true := by
  unfold State.wakeEdge
  rw [if_neg (by rw [h1]; decide), if_pos h]

/-- What a rise of WAKE does, from the state with its level. -/
theorem State.picoChange_rise (s t : State) (h1 : s.pw.isGood 4 = true) (h3 : s.pw.lo51 = false) (h4 : s.pw.hi51 = false)
    (ht : s.picoSet 51 true true = t) : s.picoChange 51 true true = if t.wakeEdge.alive then t.wakeEdge.rest else t.wakeEdge := by
  have g : (!s.pw.isGood 4 || decide (s.pw.pico 51 true = true)) = false := by
    rw [h1, show s.pw.pico 51 true = s.pw.hi51 from rfl, h4]; rfl
  subst ht
  unfold State.picoChange
  rw [if_neg (by rw [g]; decide), h3]
  rfl

/-- WAKE rises in a running core. -/
theorem State.picoChange_wake (s : State) (h : s.alive = true) (h1 : s.pw.isGood 4 = true)
    (h3 : s.pw.lo51 = false) (h4 : s.pw.hi51 = false) :
    s.picoChange 51 true true = ({ s with pw := { s.pw with hi51 := true } } : State).after
      ((((s.core.cmpChange 51 true true).incSat pgBKH BKH_WAKE_EDGES 1).setStat pgBKH 7 true).raise pgBKH 7) := by
  rw [State.picoChange_rise s _ h1 h3 h4 (State.picoSet_wake s true h),
    State.wakeEdge_running _ (State.alive_setPw { s.pw with hi51 := true } h rfl rfl _) h1]
  exact if_pos (State.alive_setPw { s.pw with hi51 := true } h rfl rfl _)

/-- WAKE falls in a running core. -/
theorem State.picoChange_wakeEnd (s : State) (h : s.alive = true) (h1 : s.pw.isGood 4 = true) (h2 : s.pw.hi51 = true) :
    s.picoChange 51 true false = ({ s with pw := { s.pw with hi51 := false } } : State).after
      ((s.core.cmpChange 51 true false).setStat pgBKH 7 false) := by
  have g : (!s.pw.isGood 4 || decide (s.pw.pico 51 true = false)) = false := by
    rw [h1, show s.pw.pico 51 true = s.pw.hi51 from rfl, h2]; rfl
  rw [State.picoChange, if_neg (by rw [g]; decide)]
  simp only [Bool.and_false, Bool.false_and, Bool.false_eq_true, if_false, State.picoSet_wake s false h, decide_true, Bool.and_self, if_true, State.onCore]
  exact if_pos (State.alive_setPw { s.pw with hi51 := false } h rfl rfl _)

/-- WAKE rises in PARKED. -/
theorem State.picoChange_parked (s : State) (h1 : s.pw.isGood 4 = true) (h2 : s.pw.pstate = .parked)
    (h3 : s.pw.lo51 = false) (h4 : s.pw.hi51 = false) :
    s.picoChange 51 true true = State.toWaking { s with pw := { s.pw with hi51 := true }, core := s.core.setOut 51 true true } 2 true := by
  have na : ∀ c : Core, ({ s with pw := { s.pw with hi51 := true }, core := c } : State).alive = false := by
    intro c; simp [State.alive, h2, PState.code]
  have p : s.picoSet 51 true true = { s with pw := { s.pw with hi51 := true }, core := s.core.setOut 51 true true } := by
    unfold State.picoSet
    exact if_neg (by rw [show (({ s with pw := s.pw.setPico 51 true true } : State).alive) = false from na s.core]; decide)
  have w := State.wakeEdge_parked { s with pw := { s.pw with hi51 := true }, core := s.core.setOut 51 true true } h2 h1
  rw [State.picoChange_rise s _ h1 h3 h4 p, w]
  exact if_neg (by simp [State.toWaking, State.alive, PState.code])

/-! ## Writes of page CMP -/

theorem State.writeCmp_thr (s : State) (i : Fin 28) (v : Word) :
    s.writeReg pgCMP (0x20 + 4 * i.val) v =
      (let t : State := { s with core := s.core.writeThr i v }
       if i.val = 25 && s.core.thrTaken 25 v then { t with pw := { t.pw with thr25 := v } } else t) := by
  fin_cases i <;> rfl

theorem State.writeCmp_mode (s : State) (i : Fin 4) (v : Word) :
    s.writeReg pgCMP (0xAC + 4 * i.val) v = ({ s with core := s.core.putFields pgCMP .cmp (0xAC + 4 * i) v } : State) := by
  fin_cases i <;> rfl

/-! ## Hiccup and clears -/

/-- A hiccup trigger with retries left (R237 step 1). -/
theorem Core.hiccup_waits (c : Core) (n : Nat) (byRoc : Bool) (count : Nat) (h : c.hiccupCause n byRoc count = true)
    (h1 : c.fld pgTRP (TRP_RST_HCNT n) < (c.writeEn n false false false).fld pgTRP (TRP_RAIL_HICRETRY n)) :
    c.hiccup n byRoc count =
      (let d := c.writeEn n false false false
       let d := { d with prot := { d.prot with keptSoft := vmod d.prot.keptSoft n (fun _ => c.flag (pgV n) V_CTRL_SOFTOFF) } }
       let d := (d.setFld pgTRP (TRP_RST_HCNT n) (c.fld pgTRP (TRP_RST_HCNT n) + 1)).setFld pgTRP (TRP_RST_HICW n) 1
       ((d.setLevel pgTRP (24 + n) true).setLive 0x03 (mkAddr 1 n) true).send 0x03 0 (mkAddr 1 n)) := by
  unfold Core.hiccup
  exact (if_neg (by rw [h]; decide)).trans (if_pos h1)

/-- A hiccup trigger with none left (R237 step 4). -/
theorem Core.hiccup_gives_up (c : Core) (n : Nat) (byRoc : Bool) (count : Nat) (h : c.hiccupCause n byRoc count = true)
    (h1 : (c.writeEn n false false false).fld pgTRP (TRP_RAIL_HICRETRY n) ≤ c.fld pgTRP (TRP_RST_HCNT n)) :
    c.hiccup n byRoc count =
      (((c.writeEn n false false false).setFld pgTRP (TRP_RST_HCNT n) 0).raise pgCMP (16 + n)).send 0x02 0 (mkAddr 1 n) := by
  unfold Core.hiccup
  exact (if_neg (by rw [h]; decide)).trans (if_neg (Nat.not_lt.mpr h1))

theorem State.clearCrow (s : State) (n : Fin 8) :
    s.writeReg pgTRP 0x0C (BitVec.ofNat 32 (2 ^ (16 + n.val))) = { s with core := s.core.crowClear n false } := by
  have e : bitsOf (BitVec.ofNat 32 (2 ^ (16 + n.val)) &&& pageMask pgTRP) = [16 + n.val] := by revert n; decide +kernel
  show ({ s with core := s.core.clearStky pgTRP (BitVec.ofNat 32 (2 ^ (16 + n.val))) 0 } : State) = _
  have k : ¬ 16 + n.val < 12 := by omega
  have k2 : 16 + n.val < 24 := by omega
  have z : bitOf 0#32 (16 + n.val) = false := by rw [bitOf_eq]; exact Nat.zero_testBit _
  rw [Core.clearStky, e]
  simp [k, k2, z]

theorem State.clearTrip (s : State) (g : Fin 12) :
    s.writeReg pgTRP 0x0C (BitVec.ofNat 32 (2 ^ g.val)) = { s with core := s.core.tripClear g false } := by
  have e : bitsOf (BitVec.ofNat 32 (2 ^ g.val) &&& pageMask pgTRP) = [g.val] := by revert g; decide +kernel
  show ({ s with core := s.core.clearStky pgTRP (BitVec.ofNat 32 (2 ^ g.val)) 0 } : State) = _
  have k : g.val < 12 := g.isLt
  have z : bitOf 0#32 g.val = false := by rw [bitOf_eq]; exact Nat.zero_testBit _
  rw [Core.clearStky, e]
  simp [k, z]

end Sys2Proof.Machine
end

