-- ==== Sys2Proof/Laws/Rails.lean ====
section
/-! SUPPORT. What the operations on a rail can do, one lemma an operation. -/
namespace Sys2Proof.Machine

theorem pgTRP_ne_pgV (n : Fin 8) : pgTRP ≠ pgV n := by revert n; decide

/-- A write of EN and SOFTOFF with no hiccup wait under way (R89, R91, R92). -/
theorem Core.writeEn_eq (c : Core) (n : Fin 8) (en soft host : Bool) (h : c.flag pgTRP (TRP_RST_HICW n) = false) :
    c.writeEn n en soft host =
      let k := (c.setFld (pgV n) V_CTRL_EN (b2n en)).setFld (pgV n) V_CTRL_SOFTOFF (b2n soft)
      if en then
        if c.flag (pgV n) V_CTRL_EN then k
        else match (c.rail n).rstate with
          | .off => k.startPrecheck n
          | .softoff => k.resumeProof n
          | _ => k
      else match (c.rail n).rstate with
        | .precheck => k.enterOff n
        | .softoff => if soft then k else k.immediateOff n
        | .proof | .hold | .slew => if !c.flag (pgV n) V_CTRL_EN then k else if soft then k.softOff n else k.immediateOff n
        | _ => k := by
  have hp : (TRP_RST_HICW n).off < 256 := (by decide : ∀ n : Fin 8, (TRP_RST_HICW n).off < 256) n
  have hw : ((c.setFld (pgV n) V_CTRL_EN (b2n en)).setFld (pgV n) V_CTRL_SOFTOFF (b2n soft)).flag pgTRP (TRP_RST_HICW n) = false := by
    simp only [Core.flag] at h ⊢
    rw [Core.fld_setFld_other _ _ (by decide) (by decide) hp (.inl (pgTRP_ne_pgV n)),
      Core.fld_setFld_other _ _ (by decide) (by decide) hp (.inl (pgTRP_ne_pgV n))]
    exact h
  unfold Core.writeEn
  simp only [hw, Bool.and_false, Bool.false_eq_true, if_false]
  rfl

/-- A snapshot of an engine that serves or shadows a rail (R99). -/
theorem Core.engineSnap_rail (c : Core) (j n : Nat)
    (hn : (if c.fld pgRPR RPR_SHADOW_ENGINE = j then c.fld pgRPR RPR_SHADOW_RAIL else c.engRail j) = n) (h : n < 8) :
    c.engineSnap j =
      ((((c.setSfld (pgE j) E_SNAPERR_E (snapValue (c.rail n).e 64)).setSfld (pgE j) E_SNAPINT_Y
        (snapValue (c.rail n).ySnap (64 * 2 ^ 35))).setSfld (pgE j) E_SNAPRIP_W (snapValue (c.rail n).w 64)).setSfld (pgE j) E_SNAPU_U
        (snapValue (c.rail n).u (64 * 2048))).setFld (pgE j) E_SNAPT_TIME (c.rail n).sampleAt := by
  subst hn
  unfold Core.engineSnap
  exact if_pos h

/-- A snapshot of an engine without a rail (R99). -/
theorem Core.engineSnap_none (c : Core) (j n : Nat)
    (hn : (if c.fld pgRPR RPR_SHADOW_ENGINE = j then c.fld pgRPR RPR_SHADOW_RAIL else c.engRail j) = n) (h : 8 ≤ n) :
    c.engineSnap j =
      (((((c.freeFld (pgE j) E_SNAPERR_E).freeFld (pgE j) E_SNAPINT_Y).freeFld (pgE j) E_SNAPRIP_W).freeFld (pgE j) E_SNAPU_U).freeFld (pgE j)
        E_SNAPT_TIME) := by
  subst hn
  unfold Core.engineSnap
  exact if_neg (Nat.not_lt.mpr h)

/-- A takeover that waits for its rail takes place (R96, R431). -/
theorem Core.doTakeover_eq (c : Core) (n j : Nat) (h : c.rpr.takeover = some (n, j)) :
    c.doTakeover n = ({ (c.endShadow 2) with rpr := { (c.endShadow 2).rpr with takeover := none } } : Core).takeRail n j := by
  rw [Core.doTakeover, h]
  exact if_pos rfl

/-- With no takeover waiting, only an engine that its tap group retired is replaced (R96, R424). -/
theorem Core.doTakeover_none (c : Core) (n : Nat) (h : c.rpr.takeover = none) : c.doTakeover n = c.swapRetired n := by
  rw [Core.doTakeover, h]

/-- What the replacement of a retired engine does where none is due. -/
theorem Core.swapRetired_idle (c : Core) (n : Nat) (h : c.rpr.swapDue.contains n = false) : c.swapRetired n = c := by
  rw [Core.swapRetired, h]; rfl

/-- It gives the rail to the next spare (R96, R424). -/
theorem Core.swapRetired_spare (c : Core) (n j : Nat) (h : c.rpr.swapDue.contains n = true) (h2 : c.nextSpare = some j) :
    c.swapRetired n = c.takeRail n j := by
  rw [Core.swapRetired, h, h2]; rfl

/-- It leaves the rail without an engine where no spare is left (R424). -/
theorem Core.swapRetired_none (c : Core) (n : Nat) (h : c.rpr.swapDue.contains n = true) (h2 : c.nextSpare = none) :
    c.swapRetired n =
      (let d : Core := { c with rpr := { c.rpr with swapDue := c.rpr.swapDue.filter (fun m => m ≠ n) } }
       (((((d.modMap (fun m => { m with eng := vmod m.eng n (fun _ => 15) })).raise pgRPR 7).send 0x52 0 (mkAddr 1 n)).syncEngines).queueMap)) := by
  simp only [Core.swapRetired, h, h2, Core.spareOut, Bool.not_true, Bool.false_eq_true, if_false]

/-- A spare takes a rail from another engine (R96, R431). -/
theorem Core.takeRail_some (c : Core) (n j o : Nat) (ho : c.railEng n = o) (h : o ≠ 15) :
    c.takeRail n j =
      (let d := (c.modMap (fun m => { m with eng := vmod m.eng n (fun _ => j) })).modMap
         (fun m => { m with engSt := vmod m.engSt o (fun x => if x = 0 then 3 else 2) })
       let d : Core := { d with rpr := { d.rpr with swapDue := d.rpr.swapDue.filter (fun m => m ≠ n) } }
       let f := (((((d.raise (pgV n) 6).railEvent n 8).raise (pgE j) 3).raise (pgE o) 4).raise pgRPR 0).syncEngines
       (if c.engSt o = 0 then f.requestAct ⟨actRETEST, o, 0⟩ else f).queueMap) := by
  subst ho
  simp only [Core.takeRail, Core.swapMarks, h, if_false, ne_eq, not_false_eq_true, decide_true, Bool.true_and, decide_eq_true_eq]

/-- A spare takes a rail that no engine served (R424, R431). -/
theorem Core.takeRail_none (c : Core) (n j : Nat) (h : c.railEng n = 15) :
    c.takeRail n j =
      (let d := c.modMap (fun m => { m with eng := vmod m.eng n (fun _ => j) })
       let d : Core := { d with rpr := { d.rpr with swapDue := d.rpr.swapDue.filter (fun m => m ≠ n) } }
       ((((d.raise (pgV n) 6).railEvent n 8).raise (pgE j) 3).raise pgRPR 0).syncEngines.queueMap) := by
  simp only [Core.takeRail, Core.swapMarks, h, if_true, ne_eq, not_true, decide_false, Bool.false_and, Bool.false_eq_true, if_false]

/-! ## Assignment, orders and the automatic target -/

/-- An assignment that is refused (R107). -/
theorem Core.assignPort_refused (c : Core) (k rail shpri new : Nat)
    (hn : (if rail % 16 < 8 || rail % 16 = 0xE then rail % 16 else 0xF) = new) (h : c.locked (pgP k) P_ASSIGN_RAIL = false)
    (h2 : (c.port k).pwm ≠ .mid ∨ c.restful (c.portRail k) = false ∨ c.restful new = false) :
    c.assignPort k rail shpri = c.raise (pgP k) 8 := by
  subst hn
  unfold Core.assignPort
  rw [if_neg (by rw [h]; decide)]
  refine if_pos ?_
  rcases h2 with h2 | h2 | h2
  · rw [decide_eq_true h2]; rfl
  · rw [h2, Bool.not_false, Bool.or_true, Bool.true_or]
  · rw [h2, Bool.not_false, Bool.or_true]

/-- An assignment that changes no rail (R107). -/
theorem Core.assignPort_same (c : Core) (k rail shpri new : Nat)
    (hn : (if rail % 16 < 8 || rail % 16 = 0xE then rail % 16 else 0xF) = new) (h : c.locked (pgP k) P_ASSIGN_RAIL = false)
    (h2 : (c.port k).pwm = .mid) (h3 : c.restful (c.portRail k) = true) (h4 : c.restful new = true) (h5 : new = c.portRail k) :
    c.assignPort k rail shpri = (c.setFld (pgP k) P_ASSIGN_RAIL new).setFld (pgP k) P_ASSIGN_SHPRI shpri := by
  subst hn
  unfold Core.assignPort
  rw [if_neg (by rw [h]; decide)]
  refine (if_neg ?_).trans (if_pos h5)
  rw [h3, h4, h2]; decide

/-- An assignment that moves a port (R107, R108). -/
theorem Core.assignPort_moved (c : Core) (k rail shpri new : Nat)
    (hn : (if rail % 16 < 8 || rail % 16 = 0xE then rail % 16 else 0xF) = new) (h : c.locked (pgP k) P_ASSIGN_RAIL = false)
    (h2 : (c.port k).pwm = .mid) (h3 : c.restful (c.portRail k) = true) (h4 : c.restful new = true) (h5 : new ≠ c.portRail k) :
    c.assignPort k rail shpri =
      (let d := (c.setFld (pgP k) P_ASSIGN_RAIL new).setFld (pgP k) P_ASSIGN_SHPRI shpri
       let old := c.portRail k
       let e := { d with lnk := { d.lnk with lentMid := vmod d.lnk.lentMid k (fun _ => true), preloads := vmod d.lnk.preloads k (fun _ => none) } }
       let e := if old < 8 then ((e.dropSlot old k).syncShare old).retarget old false else e
       let e := if old < 8 then e.syncMembers old else e.syncPort k
       let e := if new < 8 then e.syncShare new else e
       e.syncStages) := by
  subst hn
  unfold Core.assignPort
  rw [if_neg (by rw [h]; decide)]
  refine (if_neg ?_).trans (if_neg h5)
  rw [h3, h4, h2]; decide

/-- A commit that is refused (R110). -/
theorem Core.commitOrder_refused (c : Core) (n : Nat) (h : c.orderOk n (c.staged n) = false) : c.commitOrder n = c.raise (pgV n) 23 := by
  unfold Core.commitOrder
  exact if_pos (by rw [h]; rfl)

/-- A commit that makes the staged order active (R110, R202). -/
theorem Core.commitOrder_active (c : Core) (n : Nat) (h : c.orderOk n (c.staged n) = true) :
    c.commitOrder n =
      (let l := c.staged n
       let order := l.map (fun p => ((c.rail n).order.find? (fun x => x.dev = p.1 && x.port = p.2)).getD { dev := p.1, port := p.2 })
       let d := c.modRail n (fun r => { r with order := order, ptr := nextTurn order 0, due := [] })
       let mine := (l.filter (fun p => p.1 ≠ 0)).map (fun p =>
         (d.lnk.remotes.find? (fun (x : Remote) => x.rail = n && x.dev = p.1 && x.port = p.2)).getD
           ({ rail := n, dev := p.1, port := p.2 } : Remote))
       let d := { d with lnk := { d.lnk with remotes := d.lnk.remotes.filter (fun (x : Remote) => x.rail ≠ n) ++ mine } }
       (((d.retarget n false).syncMembers n).syncShare n).syncStages) := by
  unfold Core.commitOrder
  exact if_neg (by rw [h]; decide)

/-- The rail at the end of an averaging window, with the automatic term and the target found again (R127). -/
def Core.windowed (c : Core) (n : Nat) : Core :=
  let r := c.rail n
  let need := ((r.avgSum : Rat) / (64 * r.avgCnt * zeroAsOne (c.fld (pgV n) V_SHEDAUTO_IPP) : Nat)).ceil + (c.fld (pgV n) V_SHEDAUTO_NMARG : Int)
  (c.modRail n (fun r => { r with
    autoTerm := need.toNat, autoValid := r.autoValid || r.autoWhole, autoWhole := true, avgSum := 0, avgCnt := 0 })).retarget n false

theorem Core.autoWindow_kept (c : Core) (n count : Nat) (h1 : c.tlm.count = some count)
    (h2 : count % 2 ^ min 14 (c.fld (pgV n) V_SHEDAUTO_AVGK) = 2 ^ min 14 (c.fld (pgV n) V_SHEDAUTO_AVGK) - 1)
    (h3 : (c.rail n).avgCnt ≠ 0) (h4 : ((c.windowed n).rail n).nact ≤ ((c.windowed n).rail n).ntarget) :
    c.autoWindow n = (c.windowed n).modRail n (fun r => { r with belowFor := none }) := by
  unfold Core.autoWindow
  refine (if_neg ?_).trans (if_pos h4)
  simp [h1, h2, h3]

theorem Core.autoWindow_below (c : Core) (n count : Nat) (h1 : c.tlm.count = some count)
    (h2 : count % 2 ^ min 14 (c.fld (pgV n) V_SHEDAUTO_AVGK) = 2 ^ min 14 (c.fld (pgV n) V_SHEDAUTO_AVGK) - 1)
    (h3 : (c.rail n).avgCnt ≠ 0) (h4 : ((c.windowed n).rail n).ntarget < ((c.windowed n).rail n).nact) :
    c.autoWindow n =
      (let r := (c.windowed n).rail n
       let t := match r.belowFor with | some t => t + 2 ^ min 14 (c.fld (pgV n) V_SHEDAUTO_AVGK) | none => 0
       let f := (c.windowed n).modRail n (fun r => { r with belowFor := some t })
       if r.rstate.fires && r.tstate = 0 && 16 * f.fld (pgV n) V_SHEDAUTO_SHDLY ≤ t then f.beginShed n (r.nact - r.ntarget) else f) := by
  unfold Core.autoWindow
  refine (if_neg ?_).trans (if_neg (Nat.not_le.mpr h4))
  simp [h1, h2, h3]


/-! ## Identification -/

/-- Results of which one lies outside the ranges of CAUSE 0, or is not given, are no good ones (R122). -/
theorem identGood_none {v : Option Nat × Option Nat} (h : ∀ l r, v = (some l, some r) → l < 160 ∨ 16000 < l ∨ r < 50 ∨ 4095 < r) :
    identGood v = none := by
  obtain ⟨a, b⟩ := v
  cases a with
  | none => rfl
  | some l =>
    cases b with
    | none => rfl
    | some r =>
      have := h l r rfl
      have : identInRange l r = false := by simp only [identInRange, Bool.and_eq_false_iff, decide_eq_false_iff_not]; omega
      rw [identGood, if_neg (by rw [this]; decide)]

/-- Both measurements of a local port are complete (R120, R122). -/
theorem Core.idEndLocal_done (c : Core) (k : Nat) (x : Slot)
    (h : (((c.modPort k (fun p => { p with ident := p.ident.turn c.time.toNat })).port k).ident.busy &&
      ((c.modPort k (fun p => { p with ident := p.ident.turn c.time.toNat })).port k).fit.done &&
      ((c.modPort k (fun p => { p with ident := p.ident.turn c.time.toNat })).port k).ident.nrep ≤
        ((c.modPort k (fun p => { p with ident := p.ident.turn c.time.toNat })).port k).ident.pairs) = true)
    (hx : (c.modPort k (fun p => { p with ident := p.ident.turn c.time.toNat })).slotOf k = some x) :
    c.idEndLocal k =
      (let d := c.modPort k (fun p => { p with ident := p.ident.turn c.time.toNat })
       let v := d.identResult (d.portRail k) x (d.port k).ident (d.port k).fit.slope
       let e := (d.setRawOpt (pgP k) P_IDRES_LRAW v.1).setRawOpt (pgP k) P_IDRES_RRAW v.2
       match identGood v with
        | some (l, r) => ((e.setFld (pgP k) P_LHAT_L l).setFld (pgP k) P_RHAT_DCR r).endIdent k 0
        | none => e.endIdent k 1) := by
  unfold Core.idEndLocal
  generalize c.modPort k (fun p => { p with ident := p.ident.turn c.time.toNat }) = d at h hx ⊢
  dsimp only
  rw [if_neg (by rw [h]; decide), hx] <;> rfl

/-- The fit of a lent port is complete (R206). -/
theorem Core.idEndLent_done (c : Core) (k : Nat) (h : (c.port k).fit.done = true) :
    c.idEndLent k =
      (let d : Core := { c with lnk := { c.lnk with idLent := c.lnk.idLent.filter (fun x => x ≠ k) } }
       let d := (d.modPort k (fun p => { p with fit := {} })).setLevel (pgP k) 3 false
       d.sendMsg (d.fld pgLNK (LNK_LEND_OWNER k)) (.idResult k (c.port k).fit.slope.num (c.port k).fit.slope.den)) := by
  unfold Core.idEndLent
  exact if_neg (by rw [h]; decide)

/-- Both measurements of a remote phase are complete, with results in range (R122, R206). -/
theorem Core.idEndRemote_done (c : Core) (n dev k : Nat) (q : Rat) (x : Slot) {l r : Nat}
    (h1 : ((c.modRemote n dev k (fun y => { y with ident := y.ident.turn c.time.toNat })).remote n dev k).ident.slope = some q)
    (h2 : ((c.modRemote n dev k (fun y => { y with ident := y.ident.turn c.time.toNat })).rail n).order.find?
      (fun x => x.dev = dev && x.port = k) = some x)
    (h3 : (((c.modRemote n dev k (fun y => { y with ident := y.ident.turn c.time.toNat })).remote n dev k).ident.busy &&
      ((c.modRemote n dev k (fun y => { y with ident := y.ident.turn c.time.toNat })).remote n dev k).ident.nrep ≤
        ((c.modRemote n dev k (fun y => { y with ident := y.ident.turn c.time.toNat })).remote n dev k).ident.pairs) = true)
    (h4 : identGood ((c.modRemote n dev k (fun y => { y with ident := y.ident.turn c.time.toNat })).identResult n x
      ((c.modRemote n dev k (fun y => { y with ident := y.ident.turn c.time.toNat })).remote n dev k).ident q) = some (l, r)) :
    c.idEndRemote n dev k =
      ((c.modRemote n dev k (fun y => { y with ident := y.ident.turn c.time.toNat })).modRemote n dev k
        (fun y => { y with l := l, dcr := r })).endRemoteIdent n dev k 0 := by
  unfold Core.idEndRemote
  generalize c.modRemote n dev k (fun y => { y with ident := y.ident.turn c.time.toNat }) = d at h1 h2 h3 h4 ⊢
  dsimp only
  rw [h1, h2]
  dsimp only
  rw [if_neg (by rw [h3]; decide), h4]

end Sys2Proof.Machine
end

