-- ==== Sys2Proof/Laws/Repairs.lean ====
section
/-! SUPPORT. What self-repair, the freeze and the test access port can do. -/
namespace Sys2Proof.Machine


theorem State.repair_eq {s : State} {f : Core → Core} (h : s.booted = true) (h1 : s.core.rpr.depth ≠ 2) : s.repair f = s.after (f s.core) := by
  unfold State.repair
  exact if_pos (by rw [h, decide_eq_true h1]; rfl)

/-- SHADOW is requested (R429). -/
theorem Core.shadowRequest_eq (c : Core) {n j : Nat} (ms : Nat) (h : c.nextSpare = some j) (h1 : c.flag pgRPR RPR_CFG_SHEN = true) (h2 : c.shadowBusy = false)
    (h3 : c.nextShadow = some n) (h4 : zeroAsOne (c.fld pgRPR RPR_CFG_SHGAP) ≤ ms) :
    c.shadowRequest n ms = (c.requestAct ⟨actSHADOW, n, j⟩).setFld pgRPR RPR_SHADOW_NEXT ((n + 1) % 8) := by
  unfold Core.shadowRequest
  rw [h]
  exact if_pos (by rw [h1, h2, h3, decide_eq_true h4]; simp)

/-- A granted shadow whose rail may not be shadowed ends (R430). -/
theorem Core.shadowStart_ends (c : Core) {a : Act} {j : Nat} (h1 : c.rpr.shadowPend = true)
    (h2 : ({ c with rpr := { c.rpr with shadowPend := false } } : Core).rpr.running.find? (fun a => a.code = actSHADOW) = some a)
    (h3 : ({ c with rpr := { c.rpr with shadowPend := false } } : Core).shadowSpare = some j)
    (h4 : ({ c with rpr := { c.rpr with shadowPend := false } } : Core).shadowable a.inst = false) :
    c.shadowStart = ({ c with rpr := { c.rpr with shadowPend := false } } : Core).endAct actSHADOW a.inst := by
  unfold Core.shadowStart
  rw [if_neg (by rw [h1]; decide)]
  dsimp only
  dsimp only at h2
  rw [h2, h3]
  exact if_pos (by rw [h4]; rfl)

/-- A granted shadow starts (R430). -/
theorem Core.shadowStart_starts (c : Core) {a : Act} {j : Nat} (h1 : c.rpr.shadowPend = true)
    (h2 : ({ c with rpr := { c.rpr with shadowPend := false } } : Core).rpr.running.find? (fun a => a.code = actSHADOW) = some a)
    (h3 : ({ c with rpr := { c.rpr with shadowPend := false } } : Core).shadowSpare = some j)
    (h4 : ({ c with rpr := { c.rpr with shadowPend := false } } : Core).shadowable a.inst = true) :
    c.shadowStart =
      (let d : Core := { c with rpr := { c.rpr with shadowPend := false } }
       let e := ((d.setFld pgRPR RPR_SHADOW_ENGINE j).setFld pgRPR RPR_SHADOW_RAIL a.inst).setFld pgRPR RPR_SHADOW_SAMPLES 0
       ((e.modEng (e.railEng a.inst) (fun x => { x with latovr := false })).setLevel (pgE j) 1 true).syncEngines) := by
  unfold Core.shadowStart
  rw [if_neg (by rw [h1]; decide)]
  dsimp only
  dsimp only at h2
  rw [h2, h3]
  exact if_neg (by rw [h4]; decide)

/-- A retest ends (R431, R433). -/
theorem Core.retestDone_eq (c : Core) (u : Nat) (ok : Bool) (h : c.actRuns actRETEST u = true) :
    c.retestDone u ok = Core.queueMap
      (let d := c.endAct actRETEST u
       if u < 10 then (d.modMap (fun m => { m with engSt := vmod m.engSt u (fun _ => if ok then 1 else 2) })).syncEngines
       else if ok then d
       else if u < 32 then d.modMap (fun m => { m with wret := m.wret ||| (1#9 <<< (u - 16)) })
       else d.retirePhaseBit (u - 32)) := by
  unfold Core.retestDone
  exact if_neg (by rw [h]; decide)

/-- The test of a unit ends (R428). -/
theorem Core.backgroundDone_eq (c : Core) (u : Nat) (ok : Bool) (h : c.actRuns actBISTBG u = true) :
    c.backgroundDone u ok =
      (let d := c.endAct actBISTBG u
       let d : Core := { d with rpr := { d.rpr with bgLeft := d.rpr.bgLeft.filter (fun x => x ≠ u) } }
       Core.backgroundNext (if ok || c.skipUnit u then d else d.backgroundFail u)) := by
  unfold Core.backgroundDone
  exact if_neg (by rw [h]; decide)

/-- A region has been measured (R434). -/
theorem Core.recalDone_eq (c : Core) (r : Nat) (fails : List Nat) (h : c.actRuns actRECAL r = true) :
    c.recalDone r fails =
      (let m := c.rpr.map
       let d := c.endAct actRECAL r
       let left := d.rpr.recalLeft.filter (fun x => x ≠ r)
       let bad := fails.filter (fun g => g < 64)
       let d := bad.foldl (fun (c : Core) g => c.retireTap g false false) ({ d with rpr := { d.rpr with recalLeft := left } } : Core)
       let d := if d.rpr.map = m then d else d.queueMap
       let d : Core := { d with engs := d.engs.map (fun e => { e with compNew := true }) }
       match left with | [] => d | r :: _ => d.requestAct ⟨actRECAL, r, 0⟩) := by
  unfold Core.recalDone
  exact if_neg (by rw [h]; decide)

/-- A slice compare is requested (R433). -/
theorem Core.compareRequest_eq (c : Core) {i u : Nat} {t : List Nat} (h : c.rpr.slq = i :: t) (h0 : c.comparing = false)
    (h1 : ({ c with rpr := { c.rpr with slq := t } } : Core).compareSpare i = some u)
    (h2 : ({ c with rpr := { c.rpr with slq := t } } : Core).flag pgRPR RPR_CFG_SLCEN = true) :
    c.compareRequest = ({ c with rpr := { c.rpr with slq := t } } : Core).requestAct ⟨actSLCMP, i, u⟩ := by
  unfold Core.compareRequest
  rw [h]
  dsimp only
  rw [if_neg (by rw [h0]; decide), h1]
  exact if_pos h2

/-- A compare ends (R433). -/
theorem Core.compareDone_eq (c : Core) (i : Nat) {a : Act} (mism : Bool) (h : c.rpr.running.find? (fun a => a.code = actSLCMP && a.inst = i) = some a) :
    c.compareDone i mism =
      (if !mism then c.endAct actSLCMP i
       else if i < 16 then
         ((((c.endAct actSLCMP i).setWindow i (a.spare - 16)).raise pgRPR 2).requestAct ⟨actRETEST, 16 + vget (c.endAct actSLCMP i).rpr.map.wsl i 15, 0⟩).queueMap
       else if (c.endAct actSLCMP i).rpr.pspend.any (fun p => p.1 = i - 16 || p.2 = a.spare - 32) then c.endAct actSLCMP i
       else { c.endAct actSLCMP i with rpr := { (c.endAct actSLCMP i).rpr with pspend := (c.endAct actSLCMP i).rpr.pspend ++ [(i - 16, a.spare - 32)] } }) := by
  unfold Core.compareDone
  rw [h]

/-- The arbiter grants a request (R437). -/
theorem Core.grant_eq (c : Core) {a : Act} (h : c.nextGrant [] c.waitingInOrder = some a) :
    c.grant = (({ c with rpr := { c.rpr with waiting := c.rpr.waiting.filter (fun b => b ≠ a) } } : Core).startAct a).syncPend := by
  unfold Core.grant
  rw [h]

/-- RECAL is requested (R434). -/
theorem Core.recalRequest_due (c : Core) (secs : Nat) (h1 : c.rpr.recalLeft = [])
    (h2 : c.rpr.recalDue = true ∨ (c.fld pgRPR RPR_CFG_RECALP ≠ 0 ∧ c.fld pgRPR RPR_CFG_RECALP ≤ secs)) :
    c.recalRequest secs = ({ c with rpr := { c.rpr with recalLeft := List.range 6, recalDue := false } } : Core).requestAct ⟨actRECAL, 0, 0⟩ := by
  unfold Core.recalRequest
  refine if_pos ?_
  rw [decide_eq_true h1]
  rcases h2 with h2 | ⟨h2, h3⟩
  · rw [h2]; rfl
  · rw [decide_eq_true h2, decide_eq_true h3]; simp

/-- A write of RPR_CTRL (R445). -/
theorem Core.writeRpr_ctrl (c : Core) (w : Word) (h : bitOf w 0 = true) : c.writeRpr 4 w = c.background := by
  have e : c.putFields pgRPR .rpr 4 w = c := rfl
  unfold Core.writeRpr
  rw [e]
  exact if_pos h

theorem State.writePage_rpr (s : State) (off : Nat) (w : Word) : s.writePage pgRPR off w = { s with core := s.core.writeRpr off w } := rfl

/-- BGNOW (R445). -/
theorem State.rprCtrl_bgnow {s : State} (h : s.serviceRuns = true) : s.fieldWrite pgRPR RPR_CTRL_BGNOW 1 = s.wrote s.core.background := by
  refine State.fieldWrite_ctrl h (by decide) rfl (by decide) ?_
  rw [State.writePage_rpr, Core.writeRpr_ctrl]
  exact (bitOf_setBits_one (s.core.wordOf pgRPR 4) 0 1 (by decide)).trans rfl


/-- A write of RPR_FRZ by SPI while the registers are open (R438, R440, R442). -/
theorem State.frz_write {s : State} (h : s.regOpen = true) (h1 : s.booted = true) (f : Field) (v : Nat) (hf : f.off = 0x48) :
    s.fieldWrite pgRPR f v =
      (let w := setBits (s.core.wordOf pgRPR 0x48) f.lo f.len v
       let t := s.onCore (fun c => c.putFields pgRPR .rpr 0x48 w)
       let t := if bitOf w 2 then t.recapture else t
       (if bitOf w 1 then t.onCore (fun c => c.enterFull false) else t).rest.frameEnd) := by
  unfold State.fieldWrite State.regWrite State.hostWrite
  rw [if_pos h, if_neg (by decide), if_neg (by rw [h1, hf]; simp [Core.freezeHolds, show kindOf pgRPR = some .rpr from rfl]), hf]
  have hd : (s.onCore fun c => c.dropHeld pgRPR 0x48) = s := by
    rw [State.onCore, Core.dropHeld, if_neg (by simp [show pgRPR ≠ pgHST by decide])]
  rw [hd]
  have e (w : Word) : s.writeReg pgRPR 0x48 w = s.onCore (fun c => c.putFields pgRPR .rpr 0x48 w) := rfl
  unfold State.writeNow
  dsimp only
  rw [if_pos (show (decide (pgRPR = pgRPR) && decide ((0x48 : Nat) = 0x48)) = true by decide), e]

/-- The bits of RPR_FRZ that ask for full freeze and a capture read 0 when the register is written back. -/
theorem frz_word (c : Core) (i v m : Nat) (hi : i < 3) (hm : m = 1 ∨ m = 2) :
    bitOf (setBits (c.wordOf pgRPR 0x48) i 1 v) m = (decide (m = i) && decide (v % 2 = 1)) := by
  by_cases h : m = i
  · subst h; rw [bitOf_setBits_one _ _ _ (by omega)]; simp
  · rw [bitOf_setBits_other _ _ _ _ _ (by omega) (by omega), bitOf_wordOf _ _ _ (show kindOf pgRPR = some .rpr from rfl),
      (by decide +kernel : ∀ m < 3, m = 1 ∨ m = 2 → ((fieldsAt PageKind.rpr 0x48).any fun f => f.acc = Access.w1s && f.lo ≤ m && m < f.lo + f.len) = true) m (by omega) hm]
    simp [h]

/-- OBS (R438). -/
theorem State.frz_obs {s : State} (h : s.regOpen = true) (h1 : s.booted = true) (b : Bool) :
    s.fieldWrite pgRPR RPR_FRZ_OBS (b2n b) = s.wrote (s.core.putFields pgRPR .rpr 0x48 (setBits (s.core.wordOf pgRPR 0x48) 0 1 (b2n b))) := by
  rw [State.frz_write h h1 _ _ rfl]
  show State.frameEnd (State.rest (if bitOf (setBits (s.core.wordOf pgRPR 0x48) 0 1 (b2n b)) 1 then _ else
    (if bitOf (setBits (s.core.wordOf pgRPR 0x48) 0 1 (b2n b)) 2 then _ else _))) = _
  rw [frz_word _ _ _ _ (by decide) (.inl rfl), frz_word _ _ _ _ (by decide) (.inr rfl), if_neg (by simp), if_neg (by simp)]
  rfl

/-- FULL (R440). -/
theorem State.frz_full {s : State} (h : s.regOpen = true) (h1 : s.booted = true) :
    s.fieldWrite pgRPR RPR_FRZ_FULL 1 = s.wrote ((s.core.putFields pgRPR .rpr 0x48 (setBits (s.core.wordOf pgRPR 0x48) 1 1 1)).enterFull false) := by
  rw [State.frz_write h h1 _ _ rfl]
  show State.frameEnd (State.rest (if bitOf (setBits (s.core.wordOf pgRPR 0x48) 1 1 1) 1 then _ else
    (if bitOf (setBits (s.core.wordOf pgRPR 0x48) 1 1 1) 2 then _ else _))) = _
  have e1 := frz_word s.core 1 1 1 (by decide) (.inl rfl)
  have e2 := frz_word s.core 1 1 2 (by decide) (.inr rfl)
  rw [if_pos (e1.trans (by decide)), if_neg (show ¬ bitOf (setBits (s.core.wordOf pgRPR 0x48) RPR_FRZ_FULL.lo RPR_FRZ_FULL.len 1) 2 = true from fun hh => absurd (e2.symm.trans hh) (by decide))]
  rfl

/-- RECAP in observe freeze (R442). -/
theorem State.frz_recap {s : State} (h : s.regOpen = true) (h1 : s.booted = true) (h2 : s.core.rpr.depth = 1) :
    s.fieldWrite pgRPR RPR_FRZ_RECAP 1 =
      ((s.onCore (fun c => c.putFields pgRPR .rpr 0x48 (setBits (c.wordOf pgRPR 0x48) 2 1 1))).onCore (fun c =>
        { c with rpr := { c.rpr with reqAt := c.absTime } })).captureRack.rest.frameEnd := by
  rw [State.frz_write h h1 _ _ rfl]
  show State.frameEnd (State.rest (if bitOf (setBits (s.core.wordOf pgRPR 0x48) 2 1 1) 1 then _ else
    (if bitOf (setBits (s.core.wordOf pgRPR 0x48) 2 1 1) 2 then _ else _))) = _
  have e1 := frz_word s.core 2 1 1 (by decide) (.inl rfl)
  have e2 := frz_word s.core 2 1 2 (by decide) (.inr rfl)
  rw [if_neg (fun hh => absurd (e1.symm.trans hh) (by decide)), if_pos (e2.trans (by decide)), State.recapture,
    if_pos (by rw [State.onCore_core, Core.putFields_rpr]; exact h2)]
  rfl

/-- An instruction of an open test access port (R443). -/
theorem State.tapLoad_eq {s : State} {code : Nat} {out : List Byte} {f : Rpr → Rpr} (h : s.tapOpen = true) :
    s.tapLoad code out f = s.onCore (fun c => { c with
      rpr := f { c.rpr with tapIr := code, extest := false }, hst := { c.hst with jtag := out } }) := by
  unfold State.tapLoad
  exact if_pos h

/-- The same scanned in, with the capture value of the instruction register. -/
theorem State.tap_eq {s : State} {code : Nat} {out : List Byte} {f : Rpr → Rpr} (h : s.tapOpen = true) :
    s.tap code out f = s.onCore (fun c => { c with
      rpr := f { c.rpr with tapIr := code, extest := false }, hst := { c.hst with jtag := out, jtagIr := 1 } }) := by
  unfold State.tap
  dsimp only
  rw [if_pos h, State.tapLoad_eq h]
  rfl

/-- A boundary scan of an open port (R443). -/
theorem State.boundary_eq {s : State} {code : Nat} {bits : List Bool} {drives : Bool} (h : s.tapOpen = true) :
    s.boundary code bits drives =
      (s.tap code (bitBytes (s.core.scanned bits.length)) (fun r => { r with bscan := s.core.scanned bits.length, preload := bits, extest := drives })).onCore
        (fun c => { c with free := c.free + bits.length }) := by
  unfold State.boundary
  exact if_pos h


/-- A sum of distinct powers of two, below its first free one. -/
theorem sumBits_lt (f : Nat → Bool) (n : Nat) : (List.range n).foldl (fun a i => a + b2n (f i) * 2 ^ i) 0 < 2 ^ n := by
  induction n with
  | zero => simp
  | succ n ih =>
    rw [List.range_succ, List.foldl_append, pow_succ]
    simp only [List.foldl_cons, List.foldl_nil]
    have : b2n (f n) * 2 ^ n ≤ 2 ^ n := by unfold b2n; split <;> omega
    omega

/-- The bits of a word gathered from flags are those flags. -/
theorem testBit_sumBits (f : Nat → Bool) (n i : Nat) :
    ((List.range n).foldl (fun a i => a + b2n (f i) * 2 ^ i) 0).testBit i = (decide (i < n) && f i) := by
  induction n with
  | zero => simp
  | succ n ih =>
    have hl := sumBits_lt f n
    rw [List.range_succ, List.foldl_append]
    simp only [List.foldl_cons, List.foldl_nil]
    rw [show (List.range n).foldl (fun a i => a + b2n (f i) * 2 ^ i) 0 + b2n (f n) * 2 ^ n =
      2 ^ n * b2n (f n) + (List.range n).foldl (fun a i => a + b2n (f i) * 2 ^ i) 0 by ring]
    rw [Nat.testBit_two_pow_mul_add _ hl]
    by_cases h : i < n
    · rw [if_pos h, ih]; simp [h, show i < n + 1 by omega]
    · rw [if_neg h]
      by_cases h' : i = n
      · subst h'; simp [b2n]; cases f i <;> simp
      · have : ¬ i < n + 1 := by omega
        simp only [this, decide_false, Bool.false_and]
        apply Nat.testBit_lt_two_pow
        have : 2 ^ 1 ≤ 2 ^ (i - n) := Nat.pow_le_pow_right (by omega) (by omega)
        have : b2n (f n) ≤ 1 := by unfold b2n; split <;> omega
        omega

/-- A bit of an interrupt summary (R30). -/
theorem Core.isum_bit (c : Core) (base i : Nat) (h : i < 32) :
    bitOf (c.isum base) i = ((kindOf (base + i)).isSome && c.irq (base + i)) := by
  have hl := sumBits_lt (fun i => (kindOf (base + i)).isSome && c.irq (base + i)) 32
  rw [bitOf_eq, Core.isum, BitVec.toNat_ofNat, Nat.mod_eq_of_lt hl, testBit_sumBits]
  simp [h]

/-- A summary is not zero when one of its bits is set. -/
theorem Core.isum_ne (c : Core) (base : Nat) :
    (decide (c.isum base ≠ 0)) = true ↔ ∃ i < 32, ((kindOf (base + i)).isSome && c.irq (base + i)) = true := by
  rw [decide_eq_true_eq]
  constructor
  · intro h
    by_contra hn
    push Not at hn
    refine h (word_ext (fun i hi => ?_))
    rw [Core.isum_bit _ _ _ hi, Bool.eq_false_of_not_eq_true (hn i hi)]
    simp [bitOf]
  · rintro ⟨i, hi, h⟩ e
    have := Core.isum_bit c base i hi
    rw [e, h] at this
    simp [bitOf] at this

/-- Some page's interrupt is raised. -/
theorem Core.anyIrq_iff (c : Core) : c.anyIrq = true ↔ ∃ pg < 96, ((kindOf pg).isSome && c.irq pg) = true := by
  rw [Core.anyIrq, Bool.or_eq_true, Bool.or_eq_true, Core.isum_ne, Core.isum_ne, Core.isum_ne]
  constructor
  · rintro ((⟨i, hi, h⟩ | ⟨i, hi, h⟩) | ⟨i, hi, h⟩) <;> exact ⟨_, by omega, h⟩
  · rintro ⟨pg, hp, h⟩
    by_cases h1 : pg < 32
    · exact .inl (.inl ⟨pg, h1, by simpa using h⟩)
    · by_cases h2 : pg < 64
      · exact .inl (.inr ⟨pg - 32, by omega, by rw [show 0x20 + (pg - 32) = pg by omega]; exact h⟩)
      · exact .inr ⟨pg - 64, by omega, by rw [show 0x40 + (pg - 64) = pg by omega]; exact h⟩


/-- A fold that changes nothing at each step changes nothing. -/
theorem foldl_fixed {α β : Type} (f : β → α → β) (c : β) : ∀ (l : List α), (∀ a ∈ l, f c a = c) → l.foldl f c = c
  | [], _ => rfl
  | a :: l, h => by rw [List.foldl_cons, h a (by simp)]; exact foldl_fixed f c l (fun b hb => h b (by simp [hb]))

/-- A port whose state is the one that its causes force, or that no cause concerns, stays as it is. -/
theorem Core.settlePort_fixed {c : Core} {k : Nat} (h : (c.forcedPwm k = some .mid ∧ (c.port k).pwm = .mid) ∨
    (c.forcedPwm k = none ∧ c.limitHi k = false ∧ c.cmpLo (8 + k) = false)) : c.settlePort k = c := by
  unfold Core.settlePort
  rcases h with ⟨h, h'⟩ | ⟨h, h1, h2⟩
  · rw [h]; exact if_pos h'
  · rw [h, h1, h2]; rfl

/-- A rail without an arrived soft turn-off. -/
theorem Core.softArrive_fixed {c : Core} {n : Nat} (h : (c.rail n).rstate ≠ .softoff ∨ (c.rail n).arrived = false) : c.softArrive n = c := by
  unfold Core.softArrive
  refine if_neg ?_
  rcases h with h | h
  · simp [h]
  · rw [h]; simp

/-- The core's part of what follows a command leaves a settled core as it is. -/
theorem Core.done_fixed {c : Core}
    (hk : ∀ k < 24, (c.forcedPwm k = some .mid ∧ (c.port k).pwm = .mid) ∨ (c.forcedPwm k = none ∧ c.limitHi k = false ∧ c.cmpLo (8 + k) = false))
    (hn : ∀ n < 8, (c.rail n).rstate ≠ .softoff ∨ (c.rail n).arrived = false)
    (hi : ∀ n < 8, (c.rail n).rstate.fires = true ∨ (c.rail n).irail = 0) (hh : c.holdCause = false ∨ c.stat pgNVM 8 = true)
    (ho : c.flt.outbox = []) (hp : c.rpr.pspend = []) (ht : ∀ n < 4, c.tripped (8 + n) = false ∧ (c.xch n).tripHold = false)
    (hq : c.lnk.outq = []) (hb : ∀ a ∈ c.rpr.running ++ c.rpr.waiting, a.code ≠ actBISTBG ∨ c.skipUnit a.inst = false)
    (hs : c.sec.burn = none ∨ c.sec.burnOn = true ∨ c.held = true ∨ c.rpr.depth ≠ 0)
    (hf : ∀ x, c.nvm.host = some x → x.begun = true ∨ c.hostReady x.op = false) : c.done = c := by
  have e1 : c.pumpSlices = c := by unfold Core.pumpSlices; rw [hp]; rfl
  have e2 : c.xTrips = c := by
    unfold Core.xTrips
    refine foldl_fixed _ _ _ (fun n h => ?_)
    obtain ⟨t1, t2⟩ := ht n (List.mem_range.mp h)
    rw [if_neg (by rw [t1]; decide), if_neg (by rw [t2]; simp)]
  have e3 : c.settle = c := by
    unfold Core.settle
    have := foldl_fixed (fun (c : Core) k => c.settlePort k) c (List.range 24) (fun k h => Core.settlePort_fixed (hk k (List.mem_range.mp h)))
    rw [this]
    refine foldl_fixed _ _ _ (fun n h => ?_)
    dsimp only
    rw [Core.softArrive_fixed (hn n (List.mem_range.mp h))]
    exact if_pos (by rcases hi n (List.mem_range.mp h) with h | h <;> simp [h])
  unfold Core.done Core.finish
  rw [e1, e2, e3]
  have e4 : (c.holdCause && !c.stat pgNVM 8) = false := by rcases hh with h | h <;> rw [h] <;> simp
  dsimp only
  rw [e4, if_neg Bool.false_ne_true]
  have e5 : c.flushOutbox = c := by unfold Core.flushOutbox; exact if_pos ho
  rw [e5]
  have e6 : c.pumpOut = c := by unfold Core.pumpOut; exact if_pos hq
  have e7 : c.releaseTests = c := by
    unfold Core.releaseTests
    rw [List.filter_eq_nil_iff.mpr (fun a ha => by rcases hb a ha with h | h <;> simp [h])]
    rfl
  have e8 : c.letBurn = c := by
    unfold Core.letBurn
    exact if_neg (by rcases hs with h | h | h | h <;> simp [h])
  rw [e6, e7, e8]
  unfold Core.letHost
  split
  · rfl
  · rename_i x hx
    exact if_pos (by rcases hf x hx with h | h <;> simp [h])

/-- A settled machine stays as it is. -/
theorem State.rest_fixed {s : State} (hd : s.core.done = s.core) (hb : s.core.bkh.running = false)
    (ha : s.booted = false ∨ s.core.askRecord = s.core) (hf : s.booted = false ∨ s.core.rpr.depth = 2 ∨ s.core.freezeWant = s.core.rpr.depth) : s.rest = s := by
  have e : s.onCore Core.done = s := by unfold State.onCore; rw [hd]
  have p : s.pumpBake = s := by unfold State.pumpBake; exact if_pos (by rw [hb]; simp)
  have f : s.settleFreeze = s := by
    unfold State.settleFreeze
    by_cases h0 : (!s.booted || decide (s.core.rpr.depth = 2)) = true
    · exact if_pos h0
    · rw [if_neg h0]
      have hw : s.core.freezeWant = s.core.rpr.depth := by
        rcases hf with h | h | h
        · simp [h] at h0
        · simp [h] at h0
        · exact h
      have h2 : ¬ s.core.rpr.depth = 2 := fun h => by simp [h] at h0
      dsimp only
      split
      · rename_i h; exact absurd (hw.symm.trans h) h2
      · rename_i h; exact if_neg (fun h' => by rw [← hw, h] at h'; exact absurd h' (by decide))
      · rename_i h1; exact if_neg (fun h' => h1 (hw.trans h'))
  have a : s.askRecord = s := by
    unfold State.askRecord
    rcases ha with h | h
    · rw [h]; rfl
    · rw [State.onCore, h, ite_self]
  unfold State.rest
  rw [e, p, f, e, a]

/-- Nothing asks the arbiter for a record's write: none is queued and none runs, or each queued one has begun. -/
theorem Core.askRecord_fixed {c : Core}
    (h : if c.bkh.queue = [] then ∀ a ∈ c.rpr.running ++ c.rpr.waiting, a.code ≠ actBBWRITE else c.unwritten = 0) :
    c.askRecord = c := by
  unfold Core.askRecord
  split at h
  · rename_i hq
    rw [if_pos hq]
    exact if_pos (by rw [List.all_eq_true]; exact fun a ha => decide_eq_true (h a ha))
  · rename_i hq
    rw [if_neg hq, if_pos h]

end Sys2Proof.Machine
end

