-- ==== Sys2Proof/Laws/Ring.lean ====
section
/-! SUPPORT. What the ring's operations can do: enable and bring-up, frames taken, tokens and summaries, chord and breaks. -/
namespace Sys2Proof.Machine

theorem Core.writeLnk_ctrl (c : Core) (w : Word) :
    c.writeLnk 4 w = if bitOf w 1 then (c.ringEnable (bitOf w 0)).ringOpen else c.ringEnable (bitOf w 0) := rfl

/-- A write of EN that changes nothing (R196). -/
theorem Core.ringEnable_same (c : Core) (en : Bool) (h : c.ringOn = en) : c.ringEnable en = c.setFld pgLNK LNK_CTRL_EN (b2n en) := by
  subst h
  unfold Core.ringEnable
  cases c.ringOn <;> rfl

/-- EN takes the device onto the ring (R196). -/
theorem Core.ringEnable_on (c : Core) (h : c.ringOn = false) : c.ringEnable true = (c.setFld pgLNK LNK_CTRL_EN 1).setRstate 1 := by
  unfold Core.ringEnable
  exact if_pos (by rw [h]; rfl)

/-- EN takes the device off the ring (R196). -/
theorem Core.ringEnable_off (c : Core) (h : c.ringOn = true) :
    c.ringEnable false =
      (let d := (((c.setFld pgLNK LNK_CTRL_EN 0).setFld pgLNK LNK_ID_DEVID 0).setFld pgLNK LNK_ID_NDEV 0).setRstate 0
       let d := (List.range 8).foldl (fun (c : Core) n => c.setFld pgLNK (LNK_CRST_READY n) 0) d
       let d := (List.range 24).foldl (fun (c : Core) k => c.setFld pgLNK (LNK_LEND_BOUND k) 0) d
       let d := (d.setLevel pgLNK 2 false).setLevel pgLNK 4 false
       ({ d with
         lnk := { d.lnk with
           locked := false, openDue := false, absent := none, credits := Vector.replicate 8 0, outq := [], inq := [], failed := false, prior := none
           meas := [], map := [], chordDelay := 0, chordStore := [], chordSeen := [], source := false }
         flt := { d.flt with live := d.flt.live.filter (fun p => p.1 ≠ 0x38) } }).lentAllRelease.showLabels) := by
  unfold Core.ringEnable
  exact (if_neg Bool.false_ne_true).trans (if_pos (by rw [h]; rfl))

/-! ## Frames taken (R193, R194, R212, R214) -/

/-- What the matching of a chord copy may change: the two lists of copies alone. -/
theorem Core.matchChord_is (c : Core) (f : Frame) :
    ∃ a b, c.matchChord f = { c with lnk := { c.lnk with chordStore := a, chordSeen := b } } := by
  unfold Core.matchChord
  cases f.key with
  | none => exact ⟨c.lnk.chordStore, c.lnk.chordSeen, rfl⟩
  | some k => exact ⟨_, _, rfl⟩

theorem Core.taken_is (c : Core) (h : FrameHead) (m : RingMsg) :
    ∃ a b, c.taken h m = { c with lnk := { c.lnk with chordStore := a, chordSeen := b } } := by
  unfold Core.taken
  split
  · exact ⟨c.lnk.chordStore, c.lnk.chordSeen, rfl⟩
  · exact Core.matchChord_is c _

/-- What is done with a sound frame depends on nothing that the matching changes. -/
theorem Core.taken_ringId (c : Core) (h : FrameHead) (m : RingMsg) : (c.taken h m).ringId = c.ringId := by
  obtain ⟨a, b, e⟩ := Core.taken_is c h m; rw [e]; rfl

/-- A sound frame that this device takes and is for it, or for all (R193, R194, R212). -/
theorem Core.rxMsg_takes (c : Core) (h : FrameHead) (m : RingMsg) (bound : List (Nat × Nat × Nat)) (h0 : c.rpr.depth = 0)
    (hm : ∀ id, m ≠ .enum id) (h1 : c.listens h = true) (h2 : c.heeds h = true) :
    c.rxMsg h m bound = c.passes h m ((c.taken h m).ringAct h.src bound m) := by
  simp only [Core.listens, Bool.and_eq_true, decide_eq_true_eq] at h1
  obtain ⟨⟨⟨i1, i2⟩, i3⟩, i4⟩ := h1
  have e0 : c.rxMsg h m bound = (c.taken h m).process h m bound := by
    unfold Core.rxMsg
    rw [if_neg (by rw [i1]; decide), i3]
    dsimp only
    rw [if_pos (show c.selected h = true from decide_eq_true i4),
      show (if h.chord = true then c else c.matchChord (.msg h.clsB h.dest h.src h.fn m)) = c.taken h m from rfl,
      if_neg (by rw [Core.taken_ringId]; exact i2)]
    have d0 : (c.taken h m).rpr.depth = 0 := by obtain ⟨a, b, e⟩ := Core.taken_is c h m; rw [e]; exact h0
    unfold Core.takeFrame
    dsimp only
    rw [if_neg (by rw [d0]; decide)]
    cases m <;> first | rfl | exact absurd rfl (hm _)
  rw [e0]
  obtain ⟨a, b, e⟩ := Core.taken_is c h m
  have r : (c.taken h m).ringId = c.ringId := Core.taken_ringId c h m
  have rm : (c.taken h m).isMaster = c.isMaster := by rw [e]; rfl
  have ra : (c.taken h m).lnk.absent = c.lnk.absent := by rw [e]
  have rc : (c.taken h m).classChanger = c.classChanger := by rw [e]; rfl
  have ro : (c.taken h m).onRing 0xFF = true := by simp [Core.onRing]
  simp only [Core.heeds, Core.isFor, Bool.or_eq_true, Bool.and_eq_true, decide_eq_true_eq, Bool.not_eq_true'] at h2
  unfold Core.process
  extract_lets act
  unfold Core.passes Core.isFor Core.standsIn
  rw [r, rm, ra, rc]
  rcases h2 with (⟨j1, j2⟩ | ⟨⟨j1, j2⟩, j3⟩) | ⟨⟨j1, j2⟩, j3⟩
  · rw [if_neg (by simp [j1]), if_pos (by rw [decide_eq_true j1, decide_eq_true j2]; rfl), if_neg (by simp [j1])]
  · rw [if_pos (by simp [j1, j2]), if_pos j3, if_neg (by simp [j2])]
  · rw [if_neg (by simp [j2]), if_neg (by simp [j1]), if_neg (by simp [j1]), if_neg (by rw [j3]; decide),
      if_neg (by rw [j1, ro]; simp), if_pos j1, if_pos (by simp [j1, j2])]

/-- A VC0 frame for this device (R193, R194). -/
theorem Core.rxVC0_takes (c : Core) (h : FrameHead) (ty port payload : Nat) (act : Core → Core) (h1 : c.inputsOn = true)
    (h2 : c.ringId ≠ 0) (h3 : h.err ≠ .code) (h4 : h.chord = c.stat pgLNK 2) (h5 : h.dest = c.ringId) :
    c.rxVC0 h ty port payload act = (act c).giveCredit 0 h.clsB := by
  unfold Core.rxVC0
  rw [if_neg (by rw [h1]; decide), if_neg h3, if_neg (by rw [show c.selected h = true from decide_eq_true h4]; decide)]
  exact (if_neg h2).trans (if_pos h5)

/-! ## Bring-up (R195 to R201) -/

/-- A slot map that is taken (R196, R199, R201). -/
theorem Core.slotMap_eq (c : Core) (ndev : Nat) (map : List Nat) (hops : List (Nat × Nat)) (bound : List (Nat × Nat × Nat))
    (h1 : c.ringOn = true) (h2 : c.ringId ≠ 0) (h3 : c.rstate = 2 ∨ c.rstate = 3) (h4 : c.lnk.failed = false) :
    c.slotMap ndev map hops bound =
      (let d := (c.setFld pgLNK LNK_ID_NDEV ndev).setRstate 3
       let d := if d.isMaster then d
         else (List.range 4).foldl (fun (c : Core) m => c.setReg pgLNK (0x24 + 4 * m)
           (BitVec.ofNat 32 ((List.range 4).foldl (fun a i => a + ((map[4 * m + i]?).getD 0) % 256 * 2 ^ (8 * i)) 0)))
           ({ d with lnk := { d.lnk with map := map, hops := hops } } : Core)
       let d := (List.range 8).foldl (fun (c : Core) n => c.checkRail n bound) d.showLabels
       d.sendMsg 1 (.answer d.ringId d.cascBusy)) := by
  unfold Core.slotMap
  refine if_neg ?_
  rw [h1, decide_eq_false h2, h4]
  rcases h3 with h3 | h3 <;> rw [h3] <;> decide

/-- A step-5 answer that reaches the master (R196, R198). -/
theorem Core.cascAnswer_eq (c : Core) (id : Nat) (busy : Bool) (h1 : c.isMaster = true) (h2 : c.rstate = 3) (h3 : c.lnk.failed = false) :
    c.cascAnswer id busy =
      (let a := if c.lnk.answers.contains id then c.lnk.answers else c.lnk.answers ++ [id]
       let d := { c with lnk := { c.lnk with answers := a, busyRail := c.lnk.busyRail || busy } }
       if a.length < d.fld pgLNK LNK_ID_NDEV then d
       else if d.lnk.busyRail then (d.sendMsg 0xFF (.opened true)).openRefused.raise pgLNK 13 else d.sendMsg 0xFF (.opened false)) := by
  unfold Core.cascAnswer
  exact if_neg (by rw [h1, h2, h3]; decide)

/-- A measurement that this device takes (R196 step 4, R200). -/
theorem Core.measured_eq (c : Core) (fwd : Nat) (chofs : Int) (rtt : Nat) (h1 : c.ringOn = true) (h2 : c.ringId ≠ 0)
    (h3 : c.rstate = 2 ∨ c.rstate = 3) (h4 : c.lnk.failed = false) :
    c.measured fwd chofs rtt =
      (let d := (c.setRstate 3).setFld pgLNK LNK_MEAS_FWD (min 511 fwd)
       let d := if 0 ≤ chofs && chofs < 1024 then d.setFld pgLNK LNK_MEAS_CHOFS chofs.toNat else d.freeFld pgLNK LNK_MEAS_CHOFS
       let d := if chofsOk chofs then { d with lnk := { d.lnk with chordDelay := chofs.toNat } } else d
       if d.isMaster then (d.setFld pgLNK LNK_RTT_RTT (min 0xFFFF rtt)).collect 1 (min 511 fwd) chofs
       else
         let e := d.sendMsg 1 (.measure d.ringId (min 511 fwd) chofs)
         if chofsOk chofs then e else e.openStops 1) := by
  unfold Core.measured
  refine if_neg ?_
  rw [h1, decide_eq_false h2, h4]
  rcases h3 with h3 | h3 <;> rw [h3] <;> decide

/-! ## The loop channel -/

/-- The token of a remote firing leaves in an owned slot (R189, R203, R204). -/
theorem Core.dispatch_remote (c : Core) (n : Nat) (d : Due) (rest : List Due) (x : Slot) (h1 : (c.rail n).due = d :: rest)
    (h2 : c.crowHeld n = false) (h3 : c.tripped n = false) (h4 : d.dev ≠ 0)
    (h5 : ((c.overdue n d.dev d.port).rail n).due = d :: rest)
    (h6 : ((c.overdue n d.dev d.port).rail n).order.find? (fun x => x.dev = d.dev && x.port = d.port && x.member) = some x)
    (h7 : (c.overdue n d.dev d.port).rstate = 4)
    (h8 : (c.overdue n d.dev d.port).ownLabels.contains ((c.overdue n d.dev d.port).nextSsn % 16) = true)
    (h9 : ((c.overdue n d.dev d.port).remote n d.dev d.port).notBefore ≤ (c.overdue n d.dev d.port).time.toNat)
    (h10 : (c.overdue n d.dev d.port).offPassed n x = true) :
    c.dispatch n = (c.overdue n d.dev d.port).fireRemote n d rest := by
  rw [Core.dispatch, h1]
  dsimp only
  rw [if_neg (by rw [h2, h3]; decide), if_neg h4]
  generalize c.overdue n d.dev d.port = e at h5 h6 h7 h8 h9 h10 ⊢
  rw [h5]
  dsimp only
  rw [h6]
  dsimp only
  rw [if_neg h4, if_neg (by rw [h7, h8, h10, decide_eq_false (Nat.not_lt.mpr h9)]; decide)]

/-- A token for this device (R189). -/
theorem Core.token_mine (c : Core) (devid rail port : Nat) (a b : Bool) (age : Option Nat) (safe : Bool) (h0 : c.inputsOn = true)
    (h1 : (a && b) = false) (h2 : ((c.copyError a).copyError b).ringId ≠ 0) (h3 : devid = ((c.copyError a).copyError b).ringId) :
    c.token devid rail port a b age safe = ((((c.copyError a).copyError b).slotOut false).lentToken port rail age safe) := by
  have g : (!c.ringOn || !c.lnk.locked) = false := by
    have : (c.ringOn && c.lnk.locked) = true := h0
    simp only [Bool.and_eq_true] at this; rw [this.1, this.2]; rfl
  unfold Core.token
  rw [if_neg (by rw [g]; decide)]
  exact (if_neg (by rw [h1]; decide)).trans ((if_neg h2).trans (if_pos h3))

/-- A token that this device does not consume as its own (R188, R189, R212). -/
theorem Core.token_other (c : Core) (devid rail port : Nat) (a b : Bool) (age : Option Nat) (safe : Bool) (h0 : c.inputsOn = true) :
    let d := (c.copyError a).copyError b
    ((a && b) = true → c.token devid rail port a b age safe = d.slotOut false) ∧
    ((a && b) = false → d.ringId = 0 → c.token devid rail port a b age safe = (d.slotOut true).sendFrame (.token devid rail port)) ∧
    ((a && b) = false → d.ringId ≠ 0 → devid ≠ d.ringId → (a && devid = d.predecessor) = true →
      c.token devid rail port a b age safe = d.slotOut false) ∧
    ((a && b) = false → d.ringId ≠ 0 → devid ≠ d.ringId → (a && devid = d.predecessor) = false → d.isSink = true →
      c.token devid rail port a b age safe = (d.slotOut false).countMiss) ∧
    ((a && b) = false → d.ringId ≠ 0 → devid ≠ d.ringId → (a && devid = d.predecessor) = false → d.isSink = false →
      c.token devid rail port a b age safe = (d.slotOut true).sendFrame (.token devid rail port)) := by
  intro d
  have g : (!c.ringOn || !c.lnk.locked) = false := by
    have : (c.ringOn && c.lnk.locked) = true := h0
    simp only [Bool.and_eq_true] at this; rw [this.1, this.2]; rfl
  have e : c.token devid rail port a b age safe = if a && b then d.slotOut false
      else if d.ringId = 0 then (d.slotOut true).sendFrame (.token devid rail port)
      else if devid = d.ringId then (d.slotOut false).lentToken port rail age safe
      else if a && devid = d.predecessor then d.slotOut false
      else if d.isSink then (d.slotOut false).countMiss
      else (d.slotOut true).sendFrame (.token devid rail port) := by
    unfold Core.token
    exact if_neg (by rw [g]; decide)
  rw [e]
  refine ⟨fun h1 => if_pos h1, fun h1 h2 => ?_, fun h1 h2 h3 h4 => ?_, fun h1 h2 h3 h4 h5 => ?_, fun h1 h2 h3 h4 h5 => ?_⟩ <;>
    rw [if_neg (by rw [h1]; decide)]
  · exact if_pos h2
  · rw [if_neg h2, if_neg h3]; exact if_pos h4
  · rw [if_neg h2, if_neg h3, if_neg (by rw [h4]; decide)]; exact if_pos h5
  · rw [if_neg h2, if_neg h3, if_neg (by rw [h4]; decide)]; exact if_neg (by rw [h5]; decide)

/-- A token that fires a lent port (R203). -/
theorem Core.lentToken_fires (d : Core) (port rail : Nat) (age : Option Nat) (safe : Bool) (ton : Nat)
    (h3 : (d.lentBound port && d.fld pgLNK (LNK_LEND_ORAIL port) = rail) = true) (h4 : d.lentHeld port safe = false)
    (h5 : d.cmpHi (8 + port) = false) (h6 : vget d.lnk.preloads port none = some ton) :
    d.lentToken port rail age safe =
      (let g := d.fld pgTRP TRP_CFG_LENTGRP
       let e := { d with lnk := { d.lnk with
         preloads := vmod d.lnk.preloads port (fun _ => none)
         lentFired := vmod d.lnk.lentFired port (fun _ => true)
         lentMid := vmod d.lnk.lentMid port (fun _ => false)
         lentLater := vmod d.lnk.lentLater port (fun _ => false) } }
       (e.portHigh port (if g < 8 then e.fld pgTRP (TRP_RAIL_LEB g) else 0)).sendSummary port 2 age) := by
  unfold Core.lentToken
  rw [if_neg (by rw [h3]; decide), if_neg (by rw [h4]; decide), if_neg (by rw [h5]; decide), h6]

/-- A summary that comes too late (R205). -/
theorem Core.summary_late (c : Core) (fired : Bool) (dev port : Nat) (isamp : Int) (age late n : Nat) (a : Await) (rest : List Await)
    (h1 : c.awaited dev port = some n) (h2 : c.fld pgLNK (LNK_CR_BUDGET n) < late)
    (h3 : takeAwait true (((c.incSat pgLNK LNK_CNT1_LATE 1).raise pgLNK 8).remote n dev port).awaits = some (a, rest)) :
    c.summary fired dev port isamp age late =
      (let e := ((c.incSat pgLNK LNK_CNT1_LATE 1).raise pgLNK 8).modRemote n dev port (fun y => { y with awaits := rest })
       if a.lost then e else e.remoteFail n dev port) := by
  rw [Core.summary, h1]
  dsimp only
  rw [if_pos h2, decide_eq_true h2, h3]
  dsimp only
  rw [if_pos h2]

/-- A summary in time (R205). -/
theorem Core.summary_timely (c : Core) (fired : Bool) (dev port : Nat) (isamp : Int) (age late n : Nat) (a : Await) (rest : List Await)
    (h1 : c.awaited dev port = some n) (h2 : late ≤ c.fld pgLNK (LNK_CR_BUDGET n))
    (h3 : takeAwait false (c.remote n dev port).awaits = some (a, rest)) :
    c.summary fired dev port isamp age late =
      (let e := c.modRemote n dev port (fun y => { y with awaits := rest })
       if fired then
         let e := e.modRemote n dev port (fun y => { y with fails := 0 })
         if 15 ≤ age then e
         else e.modSlot n dev port (fun x => x.correct isamp a.edge age (e.fld (pgV n) V_MODEL_CSHIFT))
       else (e.modSlot n dev port (fun x => x.unfired isamp a.edge e.time.toNat)).countMiss.remoteFail n dev port) := by
  have h2' := Nat.not_lt.mpr h2
  rw [Core.summary, h1]
  dsimp only
  rw [if_neg h2', decide_eq_false h2', h3]
  dsimp only
  rw [if_neg h2']

/-! ## Chord and breaks -/

/-- The loss of the primary on an open ring (R213 to R215). -/
theorem Core.primaryLoss_eq (c : Core) (h1 : c.ringUp = true) (h2 : c.stat pgLNK 2 = false) :
    c.primaryLoss =
      (let p := c.predecessor
       let d := { c with lnk := { c.lnk with absent := some p, chordStore := [], chordSeen := [] } }
       let d := (((d.setLevel pgLNK 2 true).setLive 0x38 (ringAddr p none) true).send 0x38 0 (ringAddr p none)).incSat pgLNK LNK_CNT0_CHORDSW 1
       let d := if p = 1 && d.ringId = 2 then d.setLevel pgLNK 4 true else d
       ((d.sendMsg 0xFF (.absent p)).dropWhere (fun x => x = p)).recover p c.lnk.chordStore) := by
  unfold Core.primaryLoss
  exact if_neg (by rw [h1, h2]; decide)

/-- The idle slot of a device whose inputs have locked (R186, R187). -/
theorem Core.idleSlot_eq (c : Core) (prim chord : Option Nat) (h1 : c.inputsOn = true) :
    c.idleSlot prim chord =
      (let d := (c.copyError prim.isNone).copyError chord.isNone
       match prim.orElse (fun _ => chord) with
       | none => d.slotOut false
       | some v =>
         (if v % 256 = (d.lnk.ssnIn + 1) % 256 then d
          else { d.codeError with lnk := { d.lnk with ssnIn := (v + 255) % 256 } }).slotOut false) := by
  have : (c.ringOn && c.lnk.locked) = true := h1
  simp only [Bool.and_eq_true] at this
  unfold Core.idleSlot
  rw [if_neg (by rw [this.1]; decide), if_neg (by rw [this.2]; decide)]
  cases prim.orElse (fun _ => chord) <;> rfl

end Sys2Proof.Machine
end

