-- ==== Sys2Proof/Laws/Steps.lean ====
section
/-! SUPPORT. A predicate that every primitive change keeps is kept by every command and by every step. -/
namespace Sys2Proof.Machine

variable {P : State → Prop} {s s' : State}

theorem next_holds {a : State} (h : Holds P a) (e : (Host.Outcome.next a : Result) = .next s') : Holds P s' :=
  Host.Outcome.next.inj e ▸ h

theorem execRegWrite_holds (hP : Closed P) (p : HostPort) (pg off : Nat) (v : Word) (h : Holds P s) (e : execRegWrite p pg off v s = .next s') : Holds P s' := by
  unfold execRegWrite at e
  split at e
  · exact next_holds (by simp (maxDischargeDepth := 40) [hP, h]) e
  · cases e

theorem execStkyClear_holds (hP : Closed P) (pg off : Nat) (mask coinc : Word) (h : Holds P s) (e : execStkyClear pg off mask coinc s = .next s') : Holds P s' := by
  unfold execStkyClear at e
  split at e
  · cases e
  · exact next_holds (by simp (maxDischargeDepth := 40) [hP, h]) e

theorem execEvcClear_holds (hP : Closed P) (pg incs : Nat) (h : Holds P s) (e : execEvcClear pg incs s = .next s') : Holds P s' := by
  unfold execEvcClear at e
  split at e
  · cases e
  · exact next_holds (by simp (maxDischargeDepth := 40) [hP, h]) e

theorem execFrcForce_holds (hP : Closed P) (pg : Nat) (mask : Word) (h : Holds P s) (e : execFrcForce pg mask s = .next s') : Holds P s' := by
  unfold execFrcForce at e
  split at e
  · exact next_holds (by simp (maxDischargeDepth := 40) [hP, h]) e
  · cases e

theorem execLockWrite_holds (hP : Closed P) (pg : Nat) (v : Word) (h : Holds P s) (e : execLockWrite pg v s = .next s') : Holds P s' := by
  unfold execLockWrite at e
  split at e
  · exact next_holds (by simp (maxDischargeDepth := 40) [hP, h]) e
  · cases e

theorem execPageReset_holds (hP : Closed P) (pg : Nat) (h : Holds P s) (e : execPageReset pg s = .next s') : Holds P s' := by
  unfold execPageReset at e
  split at e
  · exact next_holds (by simp (maxDischargeDepth := 40) [hP, h]) e
  · cases e

theorem execRailPageReset_holds (hP : Closed P) (n : Fin 8) (h : Holds P s) (e : execRailPageReset n s = .next s') : Holds P s' := by
  unfold execRailPageReset at e
  exact next_holds (by simp (maxDischargeDepth := 40) [hP, h]) e

theorem execHstPageReset_holds (hP : Closed P)  (h : Holds P s) (e : execHstPageReset s = .next s') : Holds P s' := by
  unfold execHstPageReset at e
  exact next_holds (by simp (maxDischargeDepth := 40) [hP, h]) e

theorem execCmdEngineReset_holds (hP : Closed P)  (h : Holds P s) (e : execCmdEngineReset s = .next s') : Holds P s' := by
  unfold execCmdEngineReset at e
  exact next_holds (by simp (maxDischargeDepth := 40) [hP, h]) e

theorem execCmpPageReset_holds (hP : Closed P)  (h : Holds P s) (e : execCmpPageReset s = .next s') : Holds P s' := by
  unfold execCmpPageReset at e
  exact next_holds (by simp (maxDischargeDepth := 40) [hP, h]) e

theorem execTrpPageReset_holds (hP : Closed P)  (h : Holds P s) (e : execTrpPageReset s = .next s') : Holds P s' := by
  unfold execTrpPageReset at e
  exact next_holds (by simp (maxDischargeDepth := 40) [hP, h]) e

theorem execTlmPageReset_holds (hP : Closed P)  (h : Holds P s) (e : execTlmPageReset s = .next s') : Holds P s' := by
  unfold execTlmPageReset at e
  exact next_holds (by simp (maxDischargeDepth := 40) [hP, h]) e

theorem execCrbPageReset_holds (hP : Closed P)  (h : Holds P s) (e : execCrbPageReset s = .next s') : Holds P s' := by
  unfold execCrbPageReset at e
  exact next_holds (by simp (maxDischargeDepth := 40) [hP, h]) e

theorem execThmPageReset_holds (hP : Closed P)  (h : Holds P s) (e : execThmPageReset s = .next s') : Holds P s' := by
  unfold execThmPageReset at e
  exact next_holds (by simp (maxDischargeDepth := 40) [hP, h]) e

theorem execFltPageReset_holds (hP : Closed P)  (h : Holds P s) (e : execFltPageReset s = .next s') : Holds P s' := by
  unfold execFltPageReset at e
  exact next_holds (by simp (maxDischargeDepth := 40) [hP, h]) e

theorem execSpiReadSingle_holds (hP : Closed P) (cmd pg off hcrc : Byte) (waits : Nat) (h : Holds P s) (e : execSpiReadSingle cmd pg off hcrc waits s = .next s') : Holds P s' := by
  unfold execSpiReadSingle at e
  exact next_holds (by simp (maxDischargeDepth := 40) [hP, h]) e

theorem execSpiReadBurst_holds (hP : Closed P) (cmd pg off hcrc : Byte) (waits : Nat) (h : Holds P s) (e : execSpiReadBurst cmd pg off hcrc waits s = .next s') : Holds P s' := by
  unfold execSpiReadBurst at e
  exact next_holds (by simp (maxDischargeDepth := 40) [hP, h]) e

theorem execSpiReadStream_holds (hP : Closed P) (cmd pg off hcrc : Byte) (waits : Nat) (h : Holds P s) (e : execSpiReadStream cmd pg off hcrc waits s = .next s') : Holds P s' := by
  unfold execSpiReadStream at e
  exact next_holds (by simp (maxDischargeDepth := 40) [hP, h]) e

theorem execSpiWriteSingle_holds (hP : Closed P) (cmd pg off hcrc : Byte) (data : List Byte) (dcrc : Byte) (h : Holds P s) (e : execSpiWriteSingle cmd pg off hcrc data dcrc s = .next s') : Holds P s' := by
  unfold execSpiWriteSingle at e
  exact next_holds (by simp (maxDischargeDepth := 40) [hP, h]) e

theorem execSpiWriteBurst_holds (hP : Closed P) (cmd pg off hcrc : Byte) (data : List Byte) (dcrc : Byte) (h : Holds P s) (e : execSpiWriteBurst cmd pg off hcrc data dcrc s = .next s') : Holds P s' := by
  unfold execSpiWriteBurst at e
  exact next_holds (by simp (maxDischargeDepth := 40) [hP, h]) e

theorem execSpiFrameAbort_holds (hP : Closed P) (hdr : List Byte) (words : Nat) (dcrcBad : Bool) (h : Holds P s) (e : execSpiFrameAbort hdr words dcrcBad s = .next s') : Holds P s' := by
  unfold execSpiFrameAbort at e
  exact next_holds (by simp (maxDischargeDepth := 40) [hP, h]) e

theorem execSpiStreamSlotFill_holds (hP : Closed P) (waits : Nat) (h : Holds P s) (e : execSpiStreamSlotFill waits s = .next s') : Holds P s' := by
  unfold execSpiStreamSlotFill at e
  exact next_holds (by simp (maxDischargeDepth := 40) [hP, h]) e

theorem execSpiStrabn_holds (hP : Closed P)  (h : Holds P s) (e : execSpiStrabn s = .next s') : Holds P s' := by
  unfold execSpiStrabn at e
  exact next_holds (by simp (maxDischargeDepth := 40) [hP, h]) e

theorem execSmbTimeout_holds (hP : Closed P)  (h : Holds P s) (e : execSmbTimeout s = .next s') : Holds P s' := by
  unfold execSmbTimeout at e
  exact next_holds (by simp (maxDischargeDepth := 40) [hP, h]) e

theorem execSmbAlertResponse_holds (hP : Closed P) (won pec : Bool) (h : Holds P s) (e : execSmbAlertResponse won pec s = .next s') : Holds P s' := by
  unfold execSmbAlertResponse at e
  exact next_holds (by simp (maxDischargeDepth := 40) [hP, h]) e

theorem execPmbusUnsupported_holds (hP : Closed P) (code : Byte) (rd : Option Nat) (h : Holds P s) (e : execPmbusUnsupported code rd s = .next s') : Holds P s' := by
  unfold execPmbusUnsupported at e
  exact next_holds (by simp (maxDischargeDepth := 40) [hP, h]) e

theorem execPage_holds (hP : Closed P) (op : PmOp) (h : Holds P s) (e : execPage op s = .next s') : Holds P s' := by
  unfold execPage at e
  exact next_holds (by simp (maxDischargeDepth := 40) [hP, h]) e

theorem execOperationOn_holds (hP : Closed P) (op : PmOp) (h : Holds P s) (e : execOperationOn op s = .next s') : Holds P s' := by
  unfold execOperationOn at e
  exact next_holds (by simp (maxDischargeDepth := 40) [hP, h]) e

theorem execOperationSoftOff_holds (hP : Closed P) (pec : Pec) (h : Holds P s) (e : execOperationSoftOff pec s = .next s') : Holds P s' := by
  unfold execOperationSoftOff at e
  exact next_holds (by simp (maxDischargeDepth := 40) [hP, h]) e

theorem execOperationImmediateOff_holds (hP : Closed P) (pec : Pec) (h : Holds P s) (e : execOperationImmediateOff pec s = .next s') : Holds P s' := by
  unfold execOperationImmediateOff at e
  exact next_holds (by simp (maxDischargeDepth := 40) [hP, h]) e

theorem execOnOffConfig_holds (hP : Closed P) (op : PmOp) (h : Holds P s) (e : execOnOffConfig op s = .next s') : Holds P s' := by
  unfold execOnOffConfig at e
  exact next_holds (by simp (maxDischargeDepth := 40) [hP, h]) e

theorem execClearFaults_holds (hP : Closed P) (pec : Pec) (h : Holds P s) (e : execClearFaults pec s = .next s') : Holds P s' :=
  next_holds (State.smbWrite_holds hP _ _ _ (fun _ ht => State.onCore_holds hP _ ht) h) e

theorem execWriteProtect_holds (hP : Closed P) (op : PmOp) (h : Holds P s) (e : execWriteProtect op s = .next s') : Holds P s' := by
  unfold execWriteProtect at e
  exact next_holds (by simp (maxDischargeDepth := 40) [hP, h]) e

theorem execCapability_holds (hP : Closed P) (op : PmOp) (h : Holds P s) (e : execCapability op s = .next s') : Holds P s' := by
  unfold execCapability at e
  exact next_holds (by simp (maxDischargeDepth := 40) [hP, h]) e

theorem execVoutMode_holds (hP : Closed P) (op : PmOp) (h : Holds P s) (e : execVoutMode op s = .next s') : Holds P s' := by
  unfold execVoutMode at e
  exact next_holds (by simp (maxDischargeDepth := 40) [hP, h]) e

theorem execVoutCommand_holds (hP : Closed P) (op : PmOp) (h : Holds P s) (e : execVoutCommand op s = .next s') : Holds P s' := by
  unfold execVoutCommand at e
  exact next_holds (by simp (maxDischargeDepth := 40) [hP, h]) e

theorem execVoutMax_holds (hP : Closed P) (op : PmOp) (h : Holds P s) (e : execVoutMax op s = .next s') : Holds P s' := by
  unfold execVoutMax at e
  exact next_holds (by simp (maxDischargeDepth := 40) [hP, h]) e

theorem execVoutTransitionRate_holds (hP : Closed P) (op : PmOp) (h : Holds P s) (e : execVoutTransitionRate op s = .next s') : Holds P s' := by
  unfold execVoutTransitionRate at e
  exact next_holds (by simp (maxDischargeDepth := 40) [hP, h]) e

theorem execCoefficients_holds (hP : Closed P) (code rw : Byte) (pec : Bool) (h : Holds P s) (e : execCoefficients code rw pec s = .next s') : Holds P s' := by
  unfold execCoefficients at e
  exact next_holds (by simp (maxDischargeDepth := 40) [hP, h]) e

theorem execVoutOvFaultLimit_holds (hP : Closed P) (op : PmOp) (h : Holds P s) (e : execVoutOvFaultLimit op s = .next s') : Holds P s' := by
  unfold execVoutOvFaultLimit at e
  exact next_holds (by simp (maxDischargeDepth := 40) [hP, h]) e

theorem execVoutUvFaultLimit_holds (hP : Closed P) (op : PmOp) (h : Holds P s) (e : execVoutUvFaultLimit op s = .next s') : Holds P s' := by
  unfold execVoutUvFaultLimit at e
  exact next_holds (by simp (maxDischargeDepth := 40) [hP, h]) e

theorem execIoutOcFaultLimit_holds (hP : Closed P) (op : PmOp) (h : Holds P s) (e : execIoutOcFaultLimit op s = .next s') : Holds P s' := by
  unfold execIoutOcFaultLimit at e
  exact next_holds (by simp (maxDischargeDepth := 40) [hP, h]) e

theorem execOtFaultLimit_holds (hP : Closed P) (op : PmOp) (h : Holds P s) (e : execOtFaultLimit op s = .next s') : Holds P s' := by
  unfold execOtFaultLimit at e
  exact next_holds (by simp (maxDischargeDepth := 40) [hP, h]) e

theorem execVinOvFaultLimit_holds (hP : Closed P) (op : PmOp) (h : Holds P s) (e : execVinOvFaultLimit op s = .next s') : Holds P s' := by
  unfold execVinOvFaultLimit at e
  exact next_holds (by simp (maxDischargeDepth := 40) [hP, h]) e

theorem execVinUvFaultLimit_holds (hP : Closed P) (op : PmOp) (h : Holds P s) (e : execVinUvFaultLimit op s = .next s') : Holds P s' := by
  unfold execVinUvFaultLimit at e
  exact next_holds (by simp (maxDischargeDepth := 40) [hP, h]) e

theorem execStatusByte_holds (hP : Closed P) (op : PmOp) (h : Holds P s) (e : execStatusByte op s = .next s') : Holds P s' := by
  unfold execStatusByte at e
  exact next_holds (by simp (maxDischargeDepth := 40) [hP, h]) e

theorem execStatusWord_holds (hP : Closed P) (op : PmOp) (h : Holds P s) (e : execStatusWord op s = .next s') : Holds P s' := by
  unfold execStatusWord at e
  exact next_holds (by simp (maxDischargeDepth := 40) [hP, h]) e

theorem execStatusVout_holds (hP : Closed P) (op : PmOp) (h : Holds P s) (e : execStatusVout op s = .next s') : Holds P s' := by
  unfold execStatusVout at e
  exact next_holds (by simp (maxDischargeDepth := 40) [hP, h]) e

theorem execStatusIout_holds (hP : Closed P) (op : PmOp) (h : Holds P s) (e : execStatusIout op s = .next s') : Holds P s' := by
  unfold execStatusIout at e
  exact next_holds (by simp (maxDischargeDepth := 40) [hP, h]) e

theorem execStatusInput_holds (hP : Closed P) (op : PmOp) (h : Holds P s) (e : execStatusInput op s = .next s') : Holds P s' := by
  unfold execStatusInput at e
  exact next_holds (by simp (maxDischargeDepth := 40) [hP, h]) e

theorem execStatusTemperature_holds (hP : Closed P) (op : PmOp) (h : Holds P s) (e : execStatusTemperature op s = .next s') : Holds P s' := by
  unfold execStatusTemperature at e
  exact next_holds (by simp (maxDischargeDepth := 40) [hP, h]) e

theorem execStatusCml_holds (hP : Closed P) (op : PmOp) (h : Holds P s) (e : execStatusCml op s = .next s') : Holds P s' := by
  unfold execStatusCml at e
  exact next_holds (by simp (maxDischargeDepth := 40) [hP, h]) e

theorem execReadVin_holds (hP : Closed P) (op : PmOp) (h : Holds P s) (e : execReadVin op s = .next s') : Holds P s' := by
  unfold execReadVin at e
  exact next_holds (by simp (maxDischargeDepth := 40) [hP, h]) e

theorem execReadIin_holds (hP : Closed P) (op : PmOp) (h : Holds P s) (e : execReadIin op s = .next s') : Holds P s' := by
  unfold execReadIin at e
  exact next_holds (by simp (maxDischargeDepth := 40) [hP, h]) e

theorem execReadVout_holds (hP : Closed P) (op : PmOp) (h : Holds P s) (e : execReadVout op s = .next s') : Holds P s' := by
  unfold execReadVout at e
  exact next_holds (by simp (maxDischargeDepth := 40) [hP, h]) e

theorem execReadIout_holds (hP : Closed P) (op : PmOp) (h : Holds P s) (e : execReadIout op s = .next s') : Holds P s' := by
  unfold execReadIout at e
  exact next_holds (by simp (maxDischargeDepth := 40) [hP, h]) e

theorem execReadTemperature1_holds (hP : Closed P) (op : PmOp) (h : Holds P s) (e : execReadTemperature1 op s = .next s') : Holds P s' := by
  unfold execReadTemperature1 at e
  exact next_holds (by simp (maxDischargeDepth := 40) [hP, h]) e

theorem execReadTemperature2_holds (hP : Closed P) (op : PmOp) (h : Holds P s) (e : execReadTemperature2 op s = .next s') : Holds P s' := by
  unfold execReadTemperature2 at e
  exact next_holds (by simp (maxDischargeDepth := 40) [hP, h]) e

theorem execReadPout_holds (hP : Closed P) (op : PmOp) (h : Holds P s) (e : execReadPout op s = .next s') : Holds P s' := by
  unfold execReadPout at e
  exact next_holds (by simp (maxDischargeDepth := 40) [hP, h]) e

theorem execPmbusRevision_holds (hP : Closed P) (op : PmOp) (h : Holds P s) (e : execPmbusRevision op s = .next s') : Holds P s' := by
  unfold execPmbusRevision at e
  exact next_holds (by simp (maxDischargeDepth := 40) [hP, h]) e

theorem execMfrId_holds (hP : Closed P) (op : PmOp) (h : Holds P s) (e : execMfrId op s = .next s') : Holds P s' := by
  unfold execMfrId at e
  exact next_holds (by simp (maxDischargeDepth := 40) [hP, h]) e

theorem execMfrModel_holds (hP : Closed P) (op : PmOp) (h : Holds P s) (e : execMfrModel op s = .next s') : Holds P s' := by
  unfold execMfrModel at e
  exact next_holds (by simp (maxDischargeDepth := 40) [hP, h]) e

theorem execMfrRevision_holds (hP : Closed P) (op : PmOp) (h : Holds P s) (e : execMfrRevision op s = .next s') : Holds P s' := by
  unfold execMfrRevision at e
  exact next_holds (by simp (maxDischargeDepth := 40) [hP, h]) e

theorem execMfrWindowAddr_holds (hP : Closed P) (op : PmOp) (h : Holds P s) (e : execMfrWindowAddr op s = .next s') : Holds P s' := by
  unfold execMfrWindowAddr at e
  exact next_holds (by simp (maxDischargeDepth := 40) [hP, h]) e

theorem execMfrWindowData_holds (hP : Closed P) (op : PmOp) (h : Holds P s) (e : execMfrWindowData op s = .next s') : Holds P s' := by
  unfold execMfrWindowData at e
  exact next_holds (by simp (maxDischargeDepth := 40) [hP, h]) e

theorem execMfrWindowDataInc_holds (hP : Closed P) (op : PmOp) (h : Holds P s) (e : execMfrWindowDataInc op s = .next s') : Holds P s' := by
  unfold execMfrWindowDataInc at e
  exact next_holds (by simp (maxDischargeDepth := 40) [hP, h]) e

theorem execMfrFleetReport_holds (hP : Closed P) (op : PmOp) (h : Holds P s) (e : execMfrFleetReport op s = .next s') : Holds P s' := by
  unfold execMfrFleetReport at e
  exact next_holds (by simp (maxDischargeDepth := 40) [hP, h]) e

theorem execWindowSample_holds (hP : Closed P) (n : Fin 8) (d : Int) (lag2 : Bool) (mism : Bool) (h : Holds P s) (e : execWindowSample n d lag2 mism s = .next s') : Holds P s' := by
  unfold execWindowSample at e
  exact next_holds (by simp (maxDischargeDepth := 40) [hP, h]) e

theorem execPacemiss_holds (hP : Closed P) (slice : Fin 9) (h : Holds P s) (e : execPacemiss slice s = .next s') : Holds P s' := by
  unfold execPacemiss at e
  exact next_holds (by simp (maxDischargeDepth := 40) [hP, h]) e

theorem execRailFire_holds (hP : Closed P) (n : Fin 8) (sinceFire offFor lat : Nat) (h : Holds P s) (e : execRailFire n sinceFire offFor lat s = .next s') : Holds P s' := by
  unfold execRailFire at e
  exact next_holds (by simp (maxDischargeDepth := 40) [hP, h]) e

theorem execOnTimeEnd_holds (hP : Closed P) (k : Fin 24) (h : Holds P s) (e : execOnTimeEnd k s = .next s') : Holds P s' := by
  unfold execOnTimeEnd at e
  exact next_holds (by simp (maxDischargeDepth := 40) [hP, h]) e

theorem execIntegratorReset_holds (hP : Closed P) (n : Fin 8) (h : Holds P s) (e : execIntegratorReset n s = .next s') : Holds P s' := by
  unfold execIntegratorReset at e
  exact next_holds (by simp (maxDischargeDepth := 40) [hP, h]) e

theorem execRailEnable_holds (hP : Closed P) (n : Fin 8) (h : Holds P s) (e : execRailEnable n s = .next s') : Holds P s' := by
  unfold execRailEnable at e
  exact next_holds (by simp (maxDischargeDepth := 40) [hP, h]) e

theorem execRailDisable_holds (hP : Closed P) (n : Fin 8) (soft : Bool) (h : Holds P s) (e : execRailDisable n soft s = .next s') : Holds P s' := by
  unfold execRailDisable at e
  exact next_holds (by simp (maxDischargeDepth := 40) [hP, h]) e

theorem execPrecheckDone_holds (hP : Closed P) (n : Fin 8) (h : Holds P s) (e : execPrecheckDone n s = .next s') : Holds P s' := by
  unfold execPrecheckDone at e
  exact next_holds (by simp (maxDischargeDepth := 40) [hP, h]) e

theorem execPrebiasDone_holds (hP : Closed P) (n : Fin 8) (h : Holds P s) (e : execPrebiasDone n s = .next s') : Holds P s' := by
  unfold execPrebiasDone at e
  exact next_holds (by simp (maxDischargeDepth := 40) [hP, h]) e

theorem execPgoodRise_holds (hP : Closed P) (n : Fin 8) (heldUs : Nat) (h : Holds P s) (e : execPgoodRise n heldUs s = .next s') : Holds P s' := by
  unfold execPgoodRise at e
  exact next_holds (by simp (maxDischargeDepth := 40) [hP, h]) e

theorem execPgoodFall_holds (hP : Closed P) (n : Fin 8) (heldNs : Nat) (h : Holds P s) (e : execPgoodFall n heldNs s = .next s') : Holds P s' := by
  unfold execPgoodFall at e
  exact next_holds (by simp (maxDischargeDepth := 40) [hP, h]) e

theorem execRampfailPgtmo_holds (hP : Closed P) (n : Fin 8) (us : Nat) (h : Holds P s) (e : execRampfailPgtmo n us s = .next s') : Holds P s' := by
  unfold execRampfailPgtmo at e
  exact next_holds (by simp (maxDischargeDepth := 40) [hP, h]) e

theorem execSnsopen_holds (hP : Closed P) (n : Fin 8) (h : Holds P s) (e : execSnsopen n s = .next s') : Holds P s' := by
  unfold execSnsopen at e
  exact next_holds (by simp (maxDischargeDepth := 40) [hP, h]) e

theorem execEngineSnapshot_holds (hP : Closed P) (j : Fin 10) (h : Holds P s) (e : execEngineSnapshot j s = .next s') : Holds P s' := by
  unfold execEngineSnapshot at e
  exact next_holds (by simp (maxDischargeDepth := 40) [hP, h]) e

theorem execCompWordApply_holds (hP : Closed P) (j : Fin 10) (h : Holds P s) (e : execCompWordApply j s = .next s') : Holds P s' := by
  unfold execCompWordApply at e
  exact next_holds (by simp (maxDischargeDepth := 40) [hP, h]) e

theorem execEngineTakeover_holds (hP : Closed P) (n : Fin 8) (h : Holds P s) (e : execEngineTakeover n s = .next s') : Holds P s' := by
  unfold execEngineTakeover at e
  exact next_holds (by simp (maxDischargeDepth := 40) [hP, h]) e

theorem execCalStart_holds (hP : Closed P) (k : Fin 24) (h : Holds P s) (e : execCalStart k s = .next s') : Holds P s' := by
  unfold execCalStart at e
  exact next_holds (by simp (maxDischargeDepth := 40) [hP, h]) e

theorem execCalDone_holds (hP : Closed P) (k : Fin 24) (mean : Int) (csrefOk : Bool) (h : Holds P s) (e : execCalDone k mean csrefOk s = .next s') : Holds P s' := by
  unfold execCalDone at e
  exact next_holds (by simp (maxDischargeDepth := 40) [hP, h]) e

theorem execStgfltTrip_holds (hP : Closed P) (g : Fin 3) (ns : Nat) (h : Holds P s) (e : execStgfltTrip g ns s = .next s') : Holds P s' := by
  unfold execStgfltTrip at e
  exact next_holds (by simp (maxDischargeDepth := 40) [hP, h]) e

theorem execStgfltRelease_holds (hP : Closed P) (g : Fin 3) (ns : Nat) (h : Holds P s) (e : execStgfltRelease g ns s = .next s') : Holds P s' := by
  unfold execStgfltRelease at e
  exact next_holds (by simp (maxDischargeDepth := 40) [hP, h]) e

theorem execPortAssign_holds (hP : Closed P) (k : Fin 24) (rail shpri : Nat) (h : Holds P s) (e : execPortAssign k rail shpri s = .next s') : Holds P s' := by
  unfold execPortAssign at e
  exact next_holds (by simp (maxDischargeDepth := 40) [hP, h]) e

theorem execOrderCommit_holds (hP : Closed P) (n : Fin 8) (h : Holds P s) (e : execOrderCommit n s = .next s') : Holds P s' := by
  unfold execOrderCommit at e
  exact next_holds (by simp (maxDischargeDepth := 40) [hP, h]) e

theorem execIdStart_holds (hP : Closed P) (k : Fin 24) (h : Holds P s) (e : execIdStart k s = .next s') : Holds P s' := by
  unfold execIdStart at e
  exact next_holds (by simp (maxDischargeDepth := 40) [hP, h]) e

theorem execIdEnd_holds (hP : Closed P) (dev : Nat) (k : Fin 24) (h : Holds P s) (e : execIdEnd dev k s = .next s') : Holds P s' := by
  unfold execIdEnd at e
  exact next_holds (by simp (maxDischargeDepth := 40) [hP, h]) e

theorem execShareRise_holds (hP : Closed P) (k : Fin 24) (periods : Nat) (h : Holds P s) (e : execShareRise k periods s = .next s') : Holds P s' := by
  unfold execShareRise at e
  exact next_holds (by simp (maxDischargeDepth := 40) [hP, h]) e

theorem execShareFall_holds (hP : Closed P) (k : Fin 24) (periods : Nat) (h : Holds P s) (e : execShareFall k periods s = .next s') : Holds P s' := by
  unfold execShareFall at e
  exact next_holds (by simp (maxDischargeDepth := 40) [hP, h]) e

theorem execAutoshedWindowEnd_holds (hP : Closed P) (n : Fin 8) (h : Holds P s) (e : execAutoshedWindowEnd n s = .next s') : Holds P s' := by
  unfold execAutoshedWindowEnd at e
  exact next_holds (by simp (maxDischargeDepth := 40) [hP, h]) e

theorem execI3cBusUp_holds (hP : Closed P) (b : Fin 2) (targets : List Target) (h : Holds P s) (e : execI3cBusUp b targets s = .next s') : Holds P s' := by
  unfold execI3cBusUp at e
  exact next_holds (by simp (maxDischargeDepth := 40) [hP, h]) e

theorem execI3cBusDisable_holds (hP : Closed P) (b : Fin 2) (h : Holds P s) (e : execI3cBusDisable b s = .next s') : Holds P s' := by
  unfold execI3cBusDisable at e
  exact next_holds (by simp (maxDischargeDepth := 40) [hP, h]) e

theorem execI3cBusReset_holds (hP : Closed P) (b : Fin 2) (h : Holds P s) (e : execI3cBusReset b s = .next s') : Holds P s' := by
  unfold execI3cBusReset at e
  exact next_holds (by simp (maxDischargeDepth := 40) [hP, h]) e

theorem execI3cDaa_holds (hP : Closed P) (b : Fin 2) (targets : List Target) (h : Holds P s) (e : execI3cDaa b targets s = .next s') : Holds P s' := by
  unfold execI3cDaa at e
  exact next_holds (by simp (maxDischargeDepth := 40) [hP, h]) e

theorem execI3cHotJoin_holds (hP : Closed P) (b : Fin 2) (targets : List Target) (h : Holds P s) (e : execI3cHotJoin b targets s = .next s') : Holds P s' := by
  unfold execI3cHotJoin at e
  exact next_holds (by simp (maxDischargeDepth := 40) [hP, h]) e

theorem execI3cIbi_holds (hP : Closed P) (b : Fin 2) (da : Nat) (mdb : Byte) (h : Holds P s) (e : execI3cIbi b da mdb s = .next s') : Holds P s' := by
  unfold execI3cIbi at e
  exact next_holds (by simp (maxDischargeDepth := 40) [hP, h]) e

theorem execItemRead_holds (hP : Closed P) (b : Fin 2) (h : Holds P s) (e : execItemRead b s = .next s') : Holds P s' := by
  unfold execItemRead at e
  exact next_holds (by simp (maxDischargeDepth := 40) [hP, h]) e

theorem execItemReceived_holds (hP : Closed P) (b : Fin 2) (reply : Option (List Byte)) (h : Holds P s) (e : execItemReceived b reply s = .next s') : Holds P s' := by
  unfold execItemReceived at e
  exact next_holds (by simp (maxDischargeDepth := 40) [hP, h]) e

theorem execItemReadRetry_holds (hP : Closed P) (b : Fin 2) (h : Holds P s) (e : execItemReadRetry b s = .next s') : Holds P s' := by
  unfold execItemReadRetry at e
  exact next_holds (by simp (maxDischargeDepth := 40) [hP, h]) e

theorem execNop_holds (hP : Closed P) (t : Fin 128) (h : Holds P s) (e : execNop t s = .next s') : Holds P s' := by
  unfold execNop at e
  exact next_holds (by simp (maxDischargeDepth := 40) [hP, h]) e

theorem execVset_holds (hP : Closed P) (t : Fin 128) (h : Holds P s) (e : execVset t s = .next s') : Holds P s' := by
  unfold execVset at e
  exact next_holds (by simp (maxDischargeDepth := 40) [hP, h]) e

theorem execVrel_holds (hP : Closed P) (t : Fin 128) (h : Holds P s) (e : execVrel t s = .next s') : Holds P s' := by
  unfold execVrel at e
  exact next_holds (by simp (maxDischargeDepth := 40) [hP, h]) e

theorem execPhreq_holds (hP : Closed P) (t : Fin 128) (h : Holds P s) (e : execPhreq t s = .next s') : Holds P s' := by
  unfold execPhreq at e
  exact next_holds (by simp (maxDischargeDepth := 40) [hP, h]) e

theorem execVquery_holds (hP : Closed P) (t : Fin 128) (h : Holds P s) (e : execVquery t s = .next s') : Holds P s' := by
  unfold execVquery at e
  exact next_holds (by simp (maxDischargeDepth := 40) [hP, h]) e

theorem execTlmrd_holds (hP : Closed P) (t : Fin 128) (h : Holds P s) (e : execTlmrd t s = .next s') : Holds P s' := by
  unfold execTlmrd at e
  exact next_holds (by simp (maxDischargeDepth := 40) [hP, h]) e

theorem execVseta_holds (hP : Closed P) (t : Fin 128) (h : Holds P s) (e : execVseta t s = .next s') : Holds P s' := by
  unfold execVseta at e
  exact next_holds (by simp (maxDischargeDepth := 40) [hP, h]) e

theorem execAuwr_holds (hP : Closed P) (t : Fin 128) (h : Holds P s) (e : execAuwr t s = .next s') : Holds P s' := by
  unfold execAuwr at e
  exact next_holds (by simp (maxDischargeDepth := 40) [hP, h]) e

theorem execRecordWrite_holds (hP : Closed P) (b : Fin 2) (ack : Bool) (h : Holds P s) (e : execRecordWrite b ack s = .next s') : Holds P s' := by
  unfold execRecordWrite at e
  exact next_holds (by simp (maxDischargeDepth := 40) [hP, h]) e

theorem execRecordRetry_holds (hP : Closed P) (b : Fin 2) (ack : Bool) (h : Holds P s) (e : execRecordRetry b ack s = .next s') : Holds P s' := by
  unfold execRecordRetry at e
  exact next_holds (by simp (maxDischargeDepth := 40) [hP, h]) e

theorem execGetstatusPoll_holds (hP : Closed P) (b : Fin 2) (da : Nat) (reply : Option Word) (h : Holds P s) (e : execGetstatusPoll b da reply s = .next s') : Holds P s' := by
  unfold execGetstatusPoll at e
  exact next_holds (by simp (maxDischargeDepth := 40) [hP, h]) e

theorem execOvfVoteExpire_holds (hP : Closed P) (n : Fin 8) (h : Holds P s) (e : execOvfVoteExpire n s = .next s') : Holds P s' := by
  unfold execOvfVoteExpire at e
  exact next_holds (by simp (maxDischargeDepth := 40) [hP, h]) e

theorem execCmdFlush_holds (hP : Closed P) (ctx : Nat) (h : Holds P s) (e : execCmdFlush ctx s = .next s') : Holds P s' := by
  unfold execCmdFlush at e
  exact next_holds (by simp (maxDischargeDepth := 40) [hP, h]) e

theorem execFlushall_holds (hP : Closed P)  (h : Holds P s) (e : execFlushall s = .next s') : Holds P s' := by
  unfold execFlushall at e
  exact next_holds (by simp (maxDischargeDepth := 40) [hP, h]) e

theorem execOrpPop_holds (hP : Closed P)  (h : Holds P s) (e : execOrpPop s = .next s') : Holds P s' := by
  unfold execOrpPop at e
  exact next_holds (by simp (maxDischargeDepth := 40) [hP, h]) e

theorem execLnkEnable_holds (hP : Closed P) (en : Bool) (h : Holds P s) (e : execLnkEnable en s = .next s') : Holds P s' := by
  unfold execLnkEnable at e
  exact next_holds (by simp (maxDischargeDepth := 40) [hP, h]) e

theorem execLnkInputLock_holds (hP : Closed P)  (h : Holds P s) (e : execLnkInputLock s = .next s') : Holds P s' := by
  unfold execLnkInputLock at e
  exact next_holds (by simp (maxDischargeDepth := 40) [hP, h]) e

theorem execRingOpen_holds (hP : Closed P)  (h : Holds P s) (e : execRingOpen s = .next s') : Holds P s' := by
  unfold execRingOpen at e
  exact next_holds (by simp (maxDischargeDepth := 40) [hP, h]) e

theorem execEnumFrame_holds (hP : Closed P) (fh : FrameHead) (id : Nat) (own : Bool) (h : Holds P s) (e : execEnumFrame fh id own s = .next s') : Holds P s' := by
  unfold execEnumFrame at e
  exact next_holds (by simp (maxDischargeDepth := 40) [hP, h]) e

theorem execRingMeasureDone_holds (hP : Closed P) (fh : Option FrameHead) (id fwd : Nat) (chofs : Int) (rtt : Nat) (h : Holds P s) (e : execRingMeasureDone fh id fwd chofs rtt s = .next s') : Holds P s' := by
  unfold execRingMeasureDone at e
  exact next_holds (by simp (maxDischargeDepth := 40) [hP, h]) e

theorem execSlotmapFrame_holds (hP : Closed P) (fh : FrameHead) (ndev : Nat) (map : List Nat) (hops : List (Nat × Nat)) (bound : List (Nat × Nat × Nat)) (h : Holds P s) (e : execSlotmapFrame fh ndev map hops bound s = .next s') : Holds P s' := by
  unfold execSlotmapFrame at e
  exact next_holds (by simp (maxDischargeDepth := 40) [hP, h]) e

theorem execBindCheckFrame_holds (hP : Closed P) (fh : FrameHead) (port orail : Nat) (confirm : Bool) (h : Holds P s) (e : execBindCheckFrame fh port orail confirm s = .next s') : Holds P s' := by
  unfold execBindCheckFrame at e
  exact next_holds (by simp (maxDischargeDepth := 40) [hP, h]) e

theorem execOpenFrame_holds (hP : Closed P) (fh : FrameHead) (refused : Bool) (h : Holds P s) (e : execOpenFrame fh refused s = .next s') : Holds P s' := by
  unfold execOpenFrame at e
  exact next_holds (by simp (maxDischargeDepth := 40) [hP, h]) e

theorem execCreditFrame_holds (hP : Closed P) (fh : FrameHead) (vc cls count : Nat) (h : Holds P s) (e : execCreditFrame fh vc cls count s = .next s') : Holds P s' := by
  unfold execCreditFrame at e
  exact next_holds (by simp (maxDischargeDepth := 40) [hP, h]) e

theorem execTokenDispatch_holds (hP : Closed P) (n : Fin 8) (h : Holds P s) (e : execTokenDispatch n s = .next s') : Holds P s' := by
  unfold execTokenDispatch at e
  exact next_holds (by simp (maxDischargeDepth := 40) [hP, h]) e

theorem execToken_holds (hP : Closed P) (devid rail port : Nat) (primBad chordBad : Bool) (age : Option Nat) (h : Holds P s) (e : execToken devid rail port primBad chordBad age s = .next s') : Holds P s' := by
  unfold execToken at e
  exact next_holds (by simp (maxDischargeDepth := 40) [hP, h]) e

theorem execPreload_holds (hP : Closed P) (fh : FrameHead) (port ton : Nat) (h : Holds P s) (e : execPreload fh port ton s = .next s') : Holds P s' := by
  unfold execPreload at e
  exact next_holds (by simp (maxDischargeDepth := 40) [hP, h]) e

theorem execFired_holds (hP : Closed P) (fh : FrameHead) (src port : Nat) (isamp : Int) (age late : Nat) (h : Holds P s) (e : execFired fh src port isamp age late s = .next s') : Holds P s' := by
  unfold execFired at e
  exact next_holds (by simp (maxDischargeDepth := 40) [hP, h]) e

theorem execMissed_holds (hP : Closed P) (fh : FrameHead) (src port : Nat) (isamp : Int) (age late : Nat) (h : Holds P s) (e : execMissed fh src port isamp age late s = .next s') : Holds P s' := by
  unfold execMissed at e
  exact next_holds (by simp (maxDischargeDepth := 40) [hP, h]) e

theorem execHeld_holds (hP : Closed P) (fh : FrameHead) (src port : Nat) (isamp : Int) (age late : Nat) (h : Holds P s) (e : execHeld fh src port isamp age late s = .next s') : Holds P s' := by
  unfold execHeld at e
  exact next_holds (by simp (maxDischargeDepth := 40) [hP, h]) e

theorem execMid_holds (hP : Closed P) (fh : FrameHead) (port : Nat) (h : Holds P s) (e : execMid fh port s = .next s') : Holds P s' := by
  unfold execMid at e
  exact next_holds (by simp (maxDischargeDepth := 40) [hP, h]) e

theorem execIdResultFrame_holds (hP : Closed P) (fh : FrameHead) (port : Nat) (num : Int) (den : Nat) (h : Holds P s) (e : execIdResultFrame fh port num den s = .next s') : Holds P s' := by
  unfold execIdResultFrame at e
  exact next_holds (by simp (maxDischargeDepth := 40) [hP, h]) e

theorem execFaultRelayFrame_holds (hP : Closed P) (fh : FrameHead) (group : Nat) (tripped : Bool) (h : Holds P s) (e : execFaultRelayFrame fh group tripped s = .next s') : Holds P s' := by
  unfold execFaultRelayFrame at e
  exact next_holds (by simp (maxDischargeDepth := 40) [hP, h]) e

theorem execLendtmo_holds (hP : Closed P) (k : Fin 24) (us : Nat) (h : Holds P s) (e : execLendtmo k us s = .next s') : Holds P s' := by
  unfold execLendtmo at e
  exact next_holds (by simp (maxDischargeDepth := 40) [hP, h]) e

theorem execPrimaryLoss_holds (hP : Closed P)  (h : Holds P s) (e : execPrimaryLoss s = .next s') : Holds P s' := by
  unfold execPrimaryLoss at e
  exact next_holds (by simp (maxDischargeDepth := 40) [hP, h]) e

theorem execAbsentNotice_holds (hP : Closed P) (fh : FrameHead) (id : Nat) (h : Holds P s) (e : execAbsentNotice fh id s = .next s') : Holds P s' := by
  unfold execAbsentNotice at e
  exact next_holds (by simp (maxDischargeDepth := 40) [hP, h]) e

theorem execPrimaryReturn_holds (hP : Closed P)  (h : Holds P s) (e : execPrimaryReturn s = .next s') : Holds P s' := by
  unfold execPrimaryReturn at e
  exact next_holds (by simp (maxDischargeDepth := 40) [hP, h]) e

theorem execRingBreak_holds (hP : Closed P)  (h : Holds P s) (e : execRingBreak s = .next s') : Holds P s' := by
  unfold execRingBreak at e
  exact next_holds (by simp (maxDischargeDepth := 40) [hP, h]) e

theorem execBreakNotice_holds (hP : Closed P) (fh : FrameHead) (id : Nat) (h : Holds P s) (e : execBreakNotice fh id s = .next s') : Holds P s' := by
  unfold execBreakNotice at e
  exact next_holds (by simp (maxDischargeDepth := 40) [hP, h]) e

theorem execComparatorAssert_holds (hP : Closed P) (c : Fin 56) (hi : Bool) (h : Holds P s) (e : execComparatorAssert c hi s = .next s') : Holds P s' := by
  unfold execComparatorAssert at e
  exact next_holds (by simp (maxDischargeDepth := 40) [hP, h]) e

theorem execComparatorDeassert_holds (hP : Closed P) (c : Fin 56) (hi : Bool) (h : Holds P s) (e : execComparatorDeassert c hi s = .next s') : Holds P s' := by
  unfold execComparatorDeassert at e
  exact next_holds (by simp (maxDischargeDepth := 40) [hP, h]) e

theorem execCmpThresholdWrite_holds (hP : Closed P) (i : Fin 28) (v : Word) (h : Holds P s) (e : execCmpThresholdWrite i v s = .next s') : Holds P s' := by
  unfold execCmpThresholdWrite at e
  exact next_holds (by simp (maxDischargeDepth := 40) [hP, h]) e

theorem execCmpModeWrite_holds (hP : Closed P) (i : Fin 4) (v : Word) (h : Holds P s) (e : execCmpModeWrite i v s = .next s') : Holds P s' := by
  unfold execCmpModeWrite at e
  exact next_holds (by simp (maxDischargeDepth := 40) [hP, h]) e

theorem execCrowClear_holds (hP : Closed P) (n : Fin 8) (h : Holds P s) (e : execCrowClear n s = .next s') : Holds P s' := by
  unfold execCrowClear at e
  exact next_holds (by simp (maxDischargeDepth := 40) [hP, h]) e

theorem execPclactExpire_holds (hP : Closed P) (n : Fin 8) (h : Holds P s) (e : execPclactExpire n s = .next s') : Holds P s' := by
  unfold execPclactExpire at e
  exact next_holds (by simp (maxDischargeDepth := 40) [hP, h]) e

theorem execHiccupTrigger_holds (hP : Closed P) (n : Fin 8) (byRoc : Bool) (count : Nat) (h : Holds P s) (e : execHiccupTrigger n byRoc count s = .next s') : Holds P s' := by
  unfold execHiccupTrigger at e
  exact next_holds (by simp (maxDischargeDepth := 40) [hP, h]) e

theorem execHiccupRestart_holds (hP : Closed P) (n : Fin 8) (h : Holds P s) (e : execHiccupRestart n s = .next s') : Holds P s' := by
  unfold execHiccupRestart at e
  exact next_holds (by simp (maxDischargeDepth := 40) [hP, h]) e

theorem execHiccupCountClear_holds (hP : Closed P) (n : Fin 8) (h : Holds P s) (e : execHiccupCountClear n s = .next s') : Holds P s' := by
  unfold execHiccupCountClear at e
  exact next_holds (by simp (maxDischargeDepth := 40) [hP, h]) e

theorem execUvArm_holds (hP : Closed P) (n : Fin 8) (h : Holds P s) (e : execUvArm n s = .next s') : Holds P s' := by
  unfold execUvArm at e
  exact next_holds (by simp (maxDischargeDepth := 40) [hP, h]) e

theorem execUvFault_holds (hP : Closed P) (n : Fin 8) (h : Holds P s) (e : execUvFault n s = .next s') : Holds P s' := by
  unfold execUvFault at e
  exact next_holds (by simp (maxDischargeDepth := 40) [hP, h]) e

theorem execTripLineActive_holds (hP : Closed P) (l : Nat) (h : Holds P s) (e : execTripLineActive l s = .next s') : Holds P s' := by
  unfold execTripLineActive at e
  exact next_holds (by simp (maxDischargeDepth := 40) [hP, h]) e

theorem execTripLineInactive_holds (hP : Closed P) (l : Nat) (h : Holds P s) (e : execTripLineInactive l s = .next s') : Holds P s' := by
  unfold execTripLineInactive at e
  exact next_holds (by simp (maxDischargeDepth := 40) [hP, h]) e

theorem execTripClear_holds (hP : Closed P) (g : Fin 12) (h : Holds P s) (e : execTripClear g s = .next s') : Holds P s' := by
  unfold execTripClear at e
  exact next_holds (by simp (maxDischargeDepth := 40) [hP, h]) e

theorem execAuxEnable_holds (hP : Closed P) (n : Fin 4) (h : Holds P s) (e : execAuxEnable n s = .next s') : Holds P s' := by
  unfold execAuxEnable at e
  exact next_holds (by simp (maxDischargeDepth := 40) [hP, h]) e

theorem execAuxDisable_holds (hP : Closed P) (n : Fin 4) (h : Holds P s) (e : execAuxDisable n s = .next s') : Holds P s' := by
  unfold execAuxDisable at e
  exact next_holds (by simp (maxDischargeDepth := 40) [hP, h]) e

theorem execAuxCapture_holds (hP : Closed P) (n : Fin 4) (vfb ns : Nat) (h : Holds P s) (e : execAuxCapture n vfb ns s = .next s') : Holds P s' := by
  unfold execAuxCapture at e
  exact next_holds (by simp (maxDischargeDepth := 40) [hP, h]) e

theorem execAuxPeriodBoundary_holds (hP : Closed P) (n : Fin 4) (h : Holds P s) (e : execAuxPeriodBoundary n s = .next s') : Holds P s' := by
  unfold execAuxPeriodBoundary at e
  exact next_holds (by simp (maxDischargeDepth := 40) [hP, h]) e

theorem execAuxDutyInstant_holds (hP : Closed P) (n : Fin 4) (h : Holds P s) (e : execAuxDutyInstant n s = .next s') : Holds P s' := by
  unfold execAuxDutyInstant at e
  exact next_holds (by simp (maxDischargeDepth := 40) [hP, h]) e

theorem execAuxDeadtimeEnd_holds (hP : Closed P) (n : Fin 4) (h : Holds P s) (e : execAuxDeadtimeEnd n s = .next s') : Holds P s' := by
  unfold execAuxDeadtimeEnd at e
  exact next_holds (by simp (maxDischargeDepth := 40) [hP, h]) e

theorem execAuxReload_holds (hP : Closed P) (n : Fin 4) (h : Holds P s) (e : execAuxReload n s = .next s') : Holds P s' := by
  unfold execAuxReload at e
  exact next_holds (by simp (maxDischargeDepth := 40) [hP, h]) e

theorem execAuxForce_holds (hP : Closed P) (n : Fin 4) (v : Word) (h : Holds P s) (e : execAuxForce n v s = .next s') : Holds P s' := by
  unfold execAuxForce at e
  exact next_holds (by simp (maxDischargeDepth := 40) [hP, h]) e

theorem execAuxGoodRise_holds (hP : Closed P) (n : Fin 4) (us : Nat) (h : Holds P s) (e : execAuxGoodRise n us s = .next s') : Holds P s' := by
  unfold execAuxGoodRise at e
  exact next_holds (by simp (maxDischargeDepth := 40) [hP, h]) e

theorem execXuv_holds (hP : Closed P) (n : Fin 4) (us : Nat) (h : Holds P s) (e : execXuv n us s = .next s') : Holds P s' := by
  unfold execXuv at e
  exact next_holds (by simp (maxDischargeDepth := 40) [hP, h]) e

theorem execXoc_holds (hP : Closed P) (n : Fin 4) (h : Holds P s) (e : execXoc n s = .next s') : Holds P s' := by
  unfold execXoc at e
  exact next_holds (by simp (maxDischargeDepth := 40) [hP, h]) e

theorem execFanPeriod_holds (hP : Closed P)  (h : Holds P s) (e : execFanPeriod s = .next s') : Holds P s' := by
  unfold execFanPeriod at e
  exact next_holds (by simp (maxDischargeDepth := 40) [hP, h]) e

theorem execFanTachEdge_holds (hP : Closed P)  (h : Holds P s) (e : execFanTachEdge s = .next s') : Holds P s' := by
  unfold execFanTachEdge at e
  exact next_holds (by simp (maxDischargeDepth := 40) [hP, h]) e

theorem execFanstall_holds (hP : Closed P) (ms : Nat) (h : Holds P s) (e : execFanstall ms s = .next s') : Holds P s' := by
  unfold execFanstall at e
  exact next_holds (by simp (maxDischargeDepth := 40) [hP, h]) e

theorem execTlmBaseSample_holds (hP : Closed P) (vin : Option (Vector Nat 2)) (h : Holds P s) (e : execTlmBaseSample vin s = .next s') : Holds P s' := by
  unfold execTlmBaseSample at e
  exact next_holds (by simp (maxDischargeDepth := 40) [hP, h]) e

theorem execTlmSwap_holds (hP : Closed P)  (h : Holds P s) (e : execTlmSwap s = .next s') : Holds P s' := by
  unfold execTlmSwap at e
  exact next_holds (by simp (maxDischargeDepth := 40) [hP, h]) e

theorem execPkcall_holds (hP : Closed P)  (h : Holds P s) (e : execPkcall s = .next s') : Holds P s' := by
  unfold execPkcall at e
  exact next_holds (by simp (maxDischargeDepth := 40) [hP, h]) e

theorem execTlmPeakClear_holds (hP : Closed P)  (h : Holds P s) (e : execTlmPeakClear s = .next s') : Holds P s' := by
  unfold execTlmPeakClear at e
  exact next_holds (by simp (maxDischargeDepth := 40) [hP, h]) e

theorem execTlmPkrRead_holds (hP : Closed P)  (h : Holds P s) (e : execTlmPkrRead s = .next s') : Holds P s' := by
  unfold execTlmPkrRead at e
  exact next_holds (by simp (maxDischargeDepth := 40) [hP, h]) e

theorem execWinmonRead_holds (hP : Closed P) (n : Fin 8) (h : Holds P s) (e : execWinmonRead n s = .next s') : Holds P s' := by
  unfold execWinmonRead at e
  exact next_holds (by simp (maxDischargeDepth := 40) [hP, h]) e

theorem execEnLatRead_holds (hP : Closed P) (j : Fin 10) (h : Holds P s) (e : execEnLatRead j s = .next s') : Holds P s' := by
  unfold execEnLatRead at e
  exact next_holds (by simp (maxDischargeDepth := 40) [hP, h]) e

theorem execCmdTagsRead_holds (hP : Closed P)  (h : Holds P s) (e : execCmdTagsRead s = .next s') : Holds P s' := by
  unfold execCmdTagsRead at e
  exact next_holds (by simp (maxDischargeDepth := 40) [hP, h]) e

theorem execFltLatchRead_holds (hP : Closed P)  (h : Holds P s) (e : execFltLatchRead s = .next s') : Holds P s' := by
  unfold execFltLatchRead at e
  exact next_holds (by simp (maxDischargeDepth := 40) [hP, h]) e

theorem execDevTimelRead_holds (hP : Closed P)  (h : Holds P s) (e : execDevTimelRead s = .next s') : Holds P s' := by
  unfold execDevTimelRead at e
  exact next_holds (by simp (maxDischargeDepth := 40) [hP, h]) e

theorem execCrumbMerge_holds (hP : Closed P)  (h : Holds P s) (e : execCrumbMerge s = .next s') : Holds P s' := by
  unfold execCrumbMerge at e
  exact next_holds (by simp (maxDischargeDepth := 40) [hP, h]) e

theorem execPackTimeout_holds (hP : Closed P) (us : Nat) (h : Holds P s) (e : execPackTimeout us s = .next s') : Holds P s' := by
  unfold execPackTimeout at e
  exact next_holds (by simp (maxDischargeDepth := 40) [hP, h]) e

theorem execCrbDataRead_holds (hP : Closed P) (p : HostPort) (h : Holds P s) (e : execCrbDataRead p s = .next s') : Holds P s' := by
  unfold execCrbDataRead at e
  exact next_holds (by simp (maxDischargeDepth := 40) [hP, h]) e

theorem execCrbFlush_holds (hP : Closed P) (push slot : Bool) (h : Holds P s) (e : execCrbFlush push slot s = .next s') : Holds P s' := by
  have h1 : Holds P ((if (slot && s.serviceRuns) = true then s.flushSlot else s).fieldWrite pgCRB CRB_CTRL_FLUSH 1) :=
    State.fieldWrite_holds hP _ _ _ (holds_ite (State.flushSlot_holds hP h) h)
  unfold execCrbFlush at e
  refine next_holds ?_ e
  dsimp only
  generalize State.fieldWrite _ pgCRB CRB_CTRL_FLUSH 1 = t at h1 ⊢
  split
  · exact State.rest_holds hP (State.onCore_holds hP _ h1)
  · exact h1

theorem execCrbRselWrite_holds (hP : Closed P) (v : Word) (h : Holds P s) (e : execCrbRselWrite v s = .next s') : Holds P s' := by
  unfold execCrbRselWrite at e
  exact next_holds (by simp (maxDischargeDepth := 40) [hP, h]) e

theorem execCrbRdataRead_holds (hP : Closed P) (p : HostPort) (h : Holds P s) (e : execCrbRdataRead p s = .next s') : Holds P s' := by
  unfold execCrbRdataRead at e
  exact next_holds (by simp (maxDischargeDepth := 40) [hP, h]) e

theorem execReq_holds (hP : Closed P) (fh : FrameHead) (rp fp nmax : Nat) (h : Holds P s) (e : execReq fh rp fp nmax s = .next s') : Holds P s' := by
  unfold execReq at e
  exact next_holds (by simp (maxDischargeDepth := 40) [hP, h]) e

theorem execSync_holds (hP : Closed P) (fh : FrameHead) (nmax : Nat) (h : Holds P s) (e : execSync fh nmax s = .next s') : Holds P s' := by
  unfold execSync at e
  exact next_holds (by simp (maxDischargeDepth := 40) [hP, h]) e

theorem execData_holds (hP : Closed P) (fh : FrameHead) (wp fp : Nat) (words : List Word) (h : Holds P s) (e : execData fh wp fp words s = .next s') : Holds P s' := by
  unfold execData at e
  exact next_holds (by simp (maxDischargeDepth := 40) [hP, h]) e

theorem execResync_holds (hP : Closed P) (fh : FrameHead) (wp rp : Nat) (h : Holds P s) (e : execResync fh wp rp s = .next s') : Holds P s' := by
  unfold execResync at e
  exact next_holds (by simp (maxDischargeDepth := 40) [hP, h]) e

theorem execCrbRequest_holds (hP : Closed P) (us : Nat) (h : Holds P s) (e : execCrbRequest us s = .next s') : Holds P s' := by
  unfold execCrbRequest at e
  exact next_holds (by simp (maxDischargeDepth := 40) [hP, h]) e

theorem execCrbReqTimeout_holds (hP : Closed P) (us : Nat) (h : Holds P s) (e : execCrbReqTimeout us s = .next s') : Holds P s' := by
  unfold execCrbReqTimeout at e
  exact next_holds (by simp (maxDischargeDepth := 40) [hP, h]) e

theorem execHkRoundStart_holds (hP : Closed P)  (h : Holds P s) (e : execHkRoundStart s = .next s') : Holds P s' := by
  unfold execHkRoundStart at e
  exact next_holds (by simp (maxDischargeDepth := 40) [hP, h]) e

theorem execHkRoundEnd_holds (hP : Closed P) (temps : Vector Int 6) (tmon : Vector Nat 3) (sup : Vector Nat 5) (refs : Vector Int 4) (h : Holds P s) (e : execHkRoundEnd temps tmon sup refs s = .next s') : Holds P s' := by
  unfold execHkRoundEnd at e
  exact next_holds (by simp (maxDischargeDepth := 40) [hP, h]) e

theorem execHkRoundAbandon_holds (hP : Closed P)  (h : Holds P s) (e : execHkRoundAbandon s = .next s') : Holds P s' := by
  unfold execHkRoundAbandon at e
  exact next_holds (by simp (maxDischargeDepth := 40) [hP, h]) e

theorem execFaultMessage_holds (hP : Closed P)  (h : Holds P s) (e : execFaultMessage s = .next s') : Holds P s' := by
  unfold execFaultMessage at e
  exact next_holds (by simp (maxDischargeDepth := 40) [hP, h]) e

theorem execFaultRelease_holds (hP : Closed P) (v : Word) (h : Holds P s) (e : execFaultRelease v s = .next s') : Holds P s' := by
  unfold execFaultRelease at e
  exact next_holds (by simp (maxDischargeDepth := 40) [hP, h]) e

theorem execClassWrite_holds (hP : Closed P) (i : Fin 12) (v : Word) (h : Holds P s) (e : execClassWrite i v s = .next s') : Holds P s' := by
  unfold execClassWrite at e
  exact next_holds (by simp (maxDischargeDepth := 40) [hP, h]) e

theorem execFaultForce_holds (hP : Closed P) (i : Fin 3) (v : Word) (h : Holds P s) (e : execFaultForce i v s = .next s') : Holds P s' := by
  unfold execFaultForce at e
  exact next_holds (by simp (maxDischargeDepth := 40) [hP, h]) e

theorem execFltreg_holds (hP : Closed P)  (h : Holds P s) (e : execFltreg s = .next s') : Holds P s' := by
  unfold execFltreg at e
  exact next_holds (by simp (maxDischargeDepth := 40) [hP, h]) e

theorem execRunsvc_holds (hP : Closed P)  (h : Holds P s) (e : execRunsvc s = .next s') : Holds P s' := by
  unfold execRunsvc at e
  exact next_holds (by simp (maxDischargeDepth := 40) [hP, h]) e

theorem execPark_holds (hP : Closed P)  (h : Holds P s) (e : execPark s = .next s') : Holds P s' := by
  unfold execPark at e
  exact next_holds (by simp (maxDischargeDepth := 40) [hP, h]) e

theorem execAbort_holds (hP : Closed P)  (h : Holds P s) (e : execAbort s = .next s') : Holds P s' := by
  unfold execAbort at e
  exact next_holds (by simp (maxDischargeDepth := 40) [hP, h]) e

theorem execEndStep_holds (hP : Closed P)  (h : Holds P s) (e : execEndStep s = .next s') : Holds P s' := by
  unfold execEndStep at e
  exact next_holds (by simp (maxDischargeDepth := 40) [hP, h]) e

theorem execEnable_holds (hP : Closed P)  (h : Holds P s) (e : execEnable s = .next s') : Holds P s' := by
  unfold execEnable at e
  exact next_holds (by simp (maxDischargeDepth := 40) [hP, h]) e

theorem execWaitgood_holds (hP : Closed P)  (h : Holds P s) (e : execWaitgood s = .next s') : Holds P s' := by
  unfold execWaitgood at e
  exact next_holds (by simp (maxDischargeDepth := 40) [hP, h]) e

theorem execWaitgoodSatisfied_holds (hP : Closed P)  (h : Holds P s) (e : execWaitgoodSatisfied s = .next s') : Holds P s' := by
  unfold execWaitgoodSatisfied at e
  exact next_holds (by simp (maxDischargeDepth := 40) [hP, h]) e

theorem execBkhtmo_holds (hP : Closed P)  (h : Holds P s) (e : execBkhtmo s = .next s') : Holds P s' := by
  unfold execBkhtmo at e
  exact next_holds (by simp (maxDischargeDepth := 40) [hP, h]) e

theorem execDelay_holds (hP : Closed P)  (h : Holds P s) (e : execDelay s = .next s') : Holds P s' := by
  unfold execDelay at e
  exact next_holds (by simp (maxDischargeDepth := 40) [hP, h]) e

theorem execDelayEnd_holds (hP : Closed P)  (h : Holds P s) (e : execDelayEnd s = .next s') : Holds P s' := by
  unfold execDelayEnd at e
  exact next_holds (by simp (maxDischargeDepth := 40) [hP, h]) e

theorem execCheck_holds (hP : Closed P)  (h : Holds P s) (e : execCheck s = .next s') : Holds P s' := by
  unfold execCheck at e
  exact next_holds (by simp (maxDischargeDepth := 40) [hP, h]) e

theorem execBrfault_holds (hP : Closed P)  (h : Holds P s) (e : execBrfault s = .next s') : Holds P s' := by
  unfold execBrfault at e
  exact next_holds (by simp (maxDischargeDepth := 40) [hP, h]) e

theorem execReport_holds (hP : Closed P)  (h : Holds P s) (e : execReport s = .next s') : Holds P s' := by
  unfold execReport at e
  exact next_holds (by simp (maxDischargeDepth := 40) [hP, h]) e

theorem execSeqInputChange_holds (hP : Closed P) (i : Fin 16) (level : Bool) (h : Holds P s) (e : execSeqInputChange i level s = .next s') : Holds P s' := by
  unfold execSeqInputChange at e
  exact next_holds (by simp (maxDischargeDepth := 40) [hP, h]) e

theorem execWakeEdge_holds (hP : Closed P)  (h : Holds P s) (e : execWakeEdge s = .next s') : Holds P s' := by
  unfold execWakeEdge at e
  exact next_holds (by simp (maxDischargeDepth := 40) [hP, h]) e

theorem execSleepTimeout_holds (hP : Closed P)  (h : Holds P s) (e : execSleepTimeout s = .next s') : Holds P s' := by
  unfold execSleepTimeout at e
  exact next_holds (by simp (maxDischargeDepth := 40) [hP, h]) e

theorem execMainenRelease_holds (hP : Closed P) (late : Bool) (h : Holds P s) (e : execMainenRelease late s = .next s') : Holds P s' := by
  unfold execMainenRelease at e
  exact next_holds (by simp (maxDischargeDepth := 40) [hP, h]) e

theorem execBbRecordWrite_holds (hP : Closed P)  (h : Holds P s) (e : execBbRecordWrite s = .next s') : Holds P s' := by
  unfold execBbRecordWrite at e
  exact next_holds (by simp (maxDischargeDepth := 40) [hP, h]) e

theorem execFlashProgramDone_holds (hP : Closed P)  (h : Holds P s) (e : execFlashProgramDone s = .next s') : Holds P s' := by
  unfold execFlashProgramDone at e
  exact next_holds (by simp (maxDischargeDepth := 40) [hP, h]) e

theorem execFlashEraseDone_holds (hP : Closed P) (ok : Bool) (h : Holds P s) (e : execFlashEraseDone ok s = .next s') : Holds P s' := by
  unfold execFlashEraseDone at e
  exact next_holds (by simp (maxDischargeDepth := 40) [hP, h]) e

theorem execFleetReportForm_holds (hP : Closed P)  (h : Holds P s) (e : execFleetReportForm s = .next s') : Holds P s' := by
  unfold execFleetReportForm at e
  exact next_holds (by simp (maxDischargeDepth := 40) [hP, h]) e

theorem execLogScanDone_holds (hP : Closed P)  (h : Holds P s) (e : execLogScanDone s = .next s') : Holds P s' := by
  unfold execLogScanDone at e
  exact next_holds (by simp (maxDischargeDepth := 40) [hP, h]) e

theorem execNvmProgram_holds (hP : Closed P) (p : HostPort) (h : Holds P s) (e : execNvmProgram p s = .next s') : Holds P s' := by
  unfold execNvmProgram at e
  exact next_holds (by simp (maxDischargeDepth := 40) [hP, h]) e

theorem execNvmErase_holds (hP : Closed P) (p : HostPort) (h : Holds P s) (e : execNvmErase p s = .next s') : Holds P s' := by
  unfold execNvmErase at e
  exact next_holds (by simp (maxDischargeDepth := 40) [hP, h]) e

theorem execNvmRead_holds (hP : Closed P) (p : HostPort) (h : Holds P s) (e : execNvmRead p s = .next s') : Holds P s' := by
  unfold execNvmRead at e
  exact next_holds (by simp (maxDischargeDepth := 40) [hP, h]) e

theorem execNvmOpDone_holds (hP : Closed P) (h : Holds P s) (e : execNvmOpDone s = .next s') : Holds P s' := by
  unfold execNvmOpDone at e
  refine next_holds ?_ e
  split
  · exact holds_ite (State.rest_holds hP (State.nvmDone_holds hP h)) h
  · exact h

theorem execScrub_holds (hP : Closed P) (sector : Fin 64) (corr : Nat) (words : List Nat) (h : Holds P s) (e : execScrub sector corr words s = .next s') : Holds P s' := by
  unfold execScrub at e
  exact next_holds (by simp (maxDischargeDepth := 40) [hP, h]) e

theorem execCtlRecordWrite_holds (hP : Closed P)  (h : Holds P s) (e : execCtlRecordWrite s = .next s') : Holds P s' := by
  unfold execCtlRecordWrite at e
  exact next_holds (by simp (maxDischargeDepth := 40) [hP, h]) e

theorem execNvmHoldEnd_holds (hP : Closed P)  (h : Holds P s) (e : execNvmHoldEnd s = .next s') : Holds P s' := by
  unfold execNvmHoldEnd at e
  exact next_holds (by simp (maxDischargeDepth := 40) [hP, h]) e

theorem execKeyProvision_holds (hP : Closed P) (slot : Fin 4) (h : Holds P s) (e : execKeyProvision slot s = .next s') : Holds P s' := by
  unfold execKeyProvision at e
  exact next_holds (by simp (maxDischargeDepth := 40) [hP, h]) e

theorem execKeyImgauth_holds (hP : Closed P) (slot : Fin 4) (h : Holds P s) (e : execKeyImgauth slot s = .next s') : Holds P s' := by
  unfold execKeyImgauth at e
  exact next_holds (by simp (maxDischargeDepth := 40) [hP, h]) e

theorem execProvClose_holds (hP : Closed P)  (h : Holds P s) (e : execProvClose s = .next s') : Holds P s' := by
  unfold execProvClose at e
  exact next_holds (by simp (maxDischargeDepth := 40) [hP, h]) e

theorem execOtpBurnDone_holds (hP : Closed P)  (h : Holds P s) (e : execOtpBurnDone s = .next s') : Holds P s' := by
  unfold execOtpBurnDone at e
  exact next_holds (by simp (maxDischargeDepth := 40) [hP, h]) e

theorem execSecFailDecay_holds (hP : Closed P)  (h : Holds P s) (e : execSecFailDecay s = .next s') : Holds P s' := by
  unfold execSecFailDecay at e
  exact next_holds (by simp (maxDischargeDepth := 40) [hP, h]) e

theorem execSecHoldoffEnd_holds (hP : Closed P)  (h : Holds P s) (e : execSecHoldoffEnd s = .next s') : Holds P s' := by
  unfold execSecHoldoffEnd at e
  exact next_holds (by simp (maxDischargeDepth := 40) [hP, h]) e

theorem execWakingSupplyGood_holds (hP : Closed P)  (h : Holds P s) (e : execWakingSupplyGood s = .next s') : Holds P s' := by
  unfold execWakingSupplyGood at e
  exact next_holds (by simp (maxDischargeDepth := 40) [hP, h]) e

theorem execWakingTimeout_holds (hP : Closed P)  (h : Holds P s) (e : execWakingTimeout s = .next s') : Holds P s' := by
  unfold execWakingTimeout at e
  exact next_holds (by simp (maxDischargeDepth := 40) [hP, h]) e

theorem execRstNAssert_holds (hP : Closed P) (ns : Nat) (h : Holds P s) (e : execRstNAssert ns s = .next s') : Holds P s' := by
  unfold execRstNAssert at e
  exact next_holds (by simp (maxDischargeDepth := 40) [hP, h]) e

theorem execRstNRelease_holds (hP : Closed P)  (h : Holds P s) (e : execRstNRelease s = .next s') : Holds P s' := by
  unfold execRstNRelease at e
  exact next_holds (by simp (maxDischargeDepth := 40) [hP, h]) e

theorem execSwrst_holds (hP : Closed P)  (h : Holds P s) (e : execSwrst s = .next s') : Holds P s' := by
  unfold execSwrst at e
  exact next_holds (by simp (maxDischargeDepth := 40) [hP, h]) e

theorem execColdnext_holds (hP : Closed P)  (h : Holds P s) (e : execColdnext s = .next s') : Holds P s' := by
  unfold execColdnext at e
  exact next_holds (by simp (maxDischargeDepth := 40) [hP, h]) e

theorem execBootStart_holds (hP : Closed P) (a0 a1 : Vector Nat 8) (h : Holds P s) (e : execBootStart a0 a1 s = .next s') : Holds P s' := by
  unfold execBootStart at e
  exact next_holds (by simp (maxDischargeDepth := 40) [hP, h]) e

theorem execBootPhaseAEnd_holds (hP : Closed P)  (h : Holds P s) (e : execBootPhaseAEnd s = .next s') : Holds P s' := by
  unfold execBootPhaseAEnd at e
  exact next_holds (by simp (maxDischargeDepth := 40) [hP, h]) e

theorem execBootPhaseBEnd_holds (hP : Closed P)  (h : Holds P s) (e : execBootPhaseBEnd s = .next s') : Holds P s' := by
  unfold execBootPhaseBEnd at e
  exact next_holds (by simp (maxDischargeDepth := 40) [hP, h]) e

theorem execBootPhaseCEnd_holds (hP : Closed P) (fails : List (Nat × Nat)) (us : Nat) (h : Holds P s) (e : execBootPhaseCEnd fails us s = .next s') : Holds P s' := by
  unfold execBootPhaseCEnd at e
  exact next_holds (by simp (maxDischargeDepth := 40) [hP, h]) e

theorem execBootPhaseDEnd_holds (hP : Closed P) (means : Vector Int 24) (csref : Vector Bool 3) (h : Holds P s) (e : execBootPhaseDEnd means csref s = .next s') : Holds P s' := by
  unfold execBootPhaseDEnd at e
  exact next_holds (by simp (maxDischargeDepth := 40) [hP, h]) e

theorem execBootEnd_holds (hP : Closed P) (us : Nat) (h : Holds P s) (e : execBootEnd us s = .next s') : Holds P s' := by
  unfold execBootEnd at e
  exact next_holds (by simp (maxDischargeDepth := 40) [hP, h]) e

theorem execShadowRequest_holds (hP : Closed P) (n : Fin 8) (ms : Nat) (h : Holds P s) (e : execShadowRequest n ms s = .next s') : Holds P s' := by
  unfold execShadowRequest at e
  exact next_holds (by simp (maxDischargeDepth := 40) [hP, h]) e

theorem execMaintGrant_holds (hP : Closed P)  (h : Holds P s) (e : execMaintGrant s = .next s') : Holds P s' := by
  unfold execMaintGrant at e
  exact next_holds (by simp (maxDischargeDepth := 40) [hP, h]) e

theorem execShadowStart_holds (hP : Closed P)  (h : Holds P s) (e : execShadowStart s = .next s') : Holds P s' := by
  unfold execShadowStart at e
  exact next_holds (by simp (maxDischargeDepth := 40) [hP, h]) e

theorem execShadowPass_holds (hP : Closed P)  (h : Holds P s) (e : execShadowPass s = .next s') : Holds P s' := by
  unfold execShadowPass at e
  exact next_holds (by simp (maxDischargeDepth := 40) [hP, h]) e

theorem execRetestDone_holds (hP : Closed P) (unit : Nat) (ok : Bool) (h : Holds P s) (e : execRetestDone unit ok s = .next s') : Holds P s' := by
  unfold execRetestDone at e
  exact next_holds (by simp (maxDischargeDepth := 40) [hP, h]) e

theorem execBistbgRun_holds (hP : Closed P) (min : Nat) (h : Holds P s) (e : execBistbgRun min s = .next s') : Holds P s' := by
  unfold execBistbgRun at e
  exact next_holds (by simp (maxDischargeDepth := 40) [hP, h]) e

theorem execBgnow_holds (hP : Closed P)  (h : Holds P s) (e : execBgnow s = .next s') : Holds P s' := by
  unfold execBgnow at e
  exact next_holds (by simp (maxDischargeDepth := 40) [hP, h]) e

theorem execBistbgDone_holds (hP : Closed P) (unit : Nat) (ok : Bool) (h : Holds P s) (e : execBistbgDone unit ok s = .next s') : Holds P s' := by
  unfold execBistbgDone at e
  exact next_holds (by simp (maxDischargeDepth := 40) [hP, h]) e

theorem execRecalRequest_holds (hP : Closed P) (secs : Nat) (h : Holds P s) (e : execRecalRequest secs s = .next s') : Holds P s' := by
  unfold execRecalRequest at e
  exact next_holds (by simp (maxDischargeDepth := 40) [hP, h]) e

theorem execRecalDone_holds (hP : Closed P) (region : Nat) (fails : List Nat) (h : Holds P s) (e : execRecalDone region fails s = .next s') : Holds P s' := by
  unfold execRecalDone at e
  exact next_holds (by simp (maxDischargeDepth := 40) [hP, h]) e

theorem execSlcmpRequest_holds (hP : Closed P)  (h : Holds P s) (e : execSlcmpRequest s = .next s') : Holds P s' := by
  unfold execSlcmpRequest at e
  exact next_holds (by simp (maxDischargeDepth := 40) [hP, h]) e

theorem execSlcmpDone_holds (hP : Closed P) (inst : Nat) (mism : Bool) (h : Holds P s) (e : execSlcmpDone inst mism s = .next s') : Holds P s' := by
  unfold execSlcmpDone at e
  exact next_holds (by simp (maxDischargeDepth := 40) [hP, h]) e

theorem execRepairMapWrite_holds (hP : Closed P) (h : Holds P s) (e : execRepairMapWrite s = .next s') : Holds P s' := by
  unfold execRepairMapWrite at e
  refine next_holds ?_ e
  split
  · exact holds_ite (State.rest_holds hP (State.beginMap_holds hP _ _ h)) h
  · exact h

theorem execFrzPinChange_holds (hP : Closed P) (level : Bool) (h : Holds P s) (e : execFrzPinChange level s = .next s') : Holds P s' := by
  unfold execFrzPinChange at e
  exact next_holds (by simp (maxDischargeDepth := 40) [hP, h]) e

theorem execObs_holds (hP : Closed P) (b : Bool) (h : Holds P s) (e : execObs b s = .next s') : Holds P s' := by
  unfold execObs at e
  exact next_holds (by simp (maxDischargeDepth := 40) [hP, h]) e

theorem execFull_holds (hP : Closed P)  (h : Holds P s) (e : execFull s = .next s') : Holds P s' := by
  unfold execFull at e
  exact next_holds (by simp (maxDischargeDepth := 40) [hP, h]) e

theorem execRecap_holds (hP : Closed P)  (h : Holds P s) (e : execRecap s = .next s') : Holds P s' := by
  unfold execRecap at e
  exact next_holds (by simp (maxDischargeDepth := 40) [hP, h]) e

theorem execFreezeAllMid_holds (hP : Closed P)  (h : Holds P s) (e : execFreezeAllMid s = .next s') : Holds P s' := by
  unfold execFreezeAllMid at e
  exact next_holds (by simp (maxDischargeDepth := 40) [hP, h]) e

theorem execFreezeHalt_holds (hP : Closed P)  (h : Holds P s) (e : execFreezeHalt s = .next s') : Holds P s' := by
  unfold execFreezeHalt at e
  exact next_holds (by simp (maxDischargeDepth := 40) [hP, h]) e

theorem execRackdataRead_holds (hP : Closed P)  (h : Holds P s) (e : execRackdataRead s = .next s') : Holds P s' := by
  unfold execRackdataRead at e
  exact next_holds (by simp (maxDischargeDepth := 40) [hP, h]) e

theorem execTapReset_holds (hP : Closed P)  (h : Holds P s) (e : execTapReset s = .next s') : Holds P s' := by
  unfold execTapReset at e
  exact next_holds (by simp (maxDischargeDepth := 40) [hP, h]) e

theorem execExtest_holds (hP : Closed P) (bits : List Bool) (h : Holds P s) (e : execExtest bits s = .next s') : Holds P s' := by
  unfold execExtest at e
  exact next_holds (by simp (maxDischargeDepth := 40) [hP, h]) e

theorem execSamplePreload_holds (hP : Closed P) (bits : List Bool) (h : Holds P s) (e : execSamplePreload bits s = .next s') : Holds P s' := by
  unfold execSamplePreload at e
  exact next_holds (by simp (maxDischargeDepth := 40) [hP, h]) e

theorem execIdcode_holds (hP : Closed P)  (h : Holds P s) (e : execIdcode s = .next s') : Holds P s' := by
  unfold execIdcode at e
  exact next_holds (by simp (maxDischargeDepth := 40) [hP, h]) e

theorem execRegacc_holds (hP : Closed P) (wr : Bool) (pg off : Nat) (data : Word) (h : Holds P s) (e : execRegacc wr pg off data s = .next s') : Holds P s' := by
  unfold execRegacc at e
  split at e
  · cases e
  · exact next_holds (by simp (maxDischargeDepth := 40) [hP, h]) e

theorem execFrzScan_holds (hP : Closed P)  (h : Holds P s) (e : execFrzScan s = .next s') : Holds P s' := by
  unfold execFrzScan at e
  exact next_holds (by simp (maxDischargeDepth := 40) [hP, h]) e

theorem execFrzRead_holds (hP : Closed P) (addr : Nat) (h : Holds P s) (e : execFrzRead addr s = .next s') : Holds P s' := by
  unfold execFrzRead at e
  exact next_holds (by simp (maxDischargeDepth := 40) [hP, h]) e

theorem execBypass_holds (hP : Closed P) (code : Fin 64) (h : Holds P s) (e : execBypass s code = .next s') : Holds P s' := by
  unfold execBypass at e
  exact next_holds (by simp (maxDischargeDepth := 40) [hP, h]) e

theorem execSnsopenRelease_holds (hP : Closed P) (n : Fin 8) (h : Holds P s) (e : execSnsopenRelease n s = .next s') : Holds P s' := by
  unfold execSnsopenRelease at e
  exact next_holds (by simp (maxDischargeDepth := 40) [hP, h]) e

theorem execPhaseAdcSample_holds (hP : Closed P) (k : Fin 24) (code : Int) (h : Holds P s) (e : execPhaseAdcSample k code s = .next s') : Holds P s' := by
  unfold execPhaseAdcSample at e
  exact next_holds (by simp (maxDischargeDepth := 40) [hP, h]) e

theorem execGetstatusRetry_holds (hP : Closed P) (b : Fin 2) (da : Nat) (reply : Option Word) (h : Holds P s) (e : execGetstatusRetry b da reply s = .next s') : Holds P s' := by
  unfold execGetstatusRetry at e
  exact next_holds (by simp (maxDischargeDepth := 40) [hP, h]) e

theorem execIdRequestFrame_holds (hP : Closed P) (fh : FrameHead) (port : Nat) (ask : Option (Nat × Nat × Nat)) (h : Holds P s) (e : execIdRequestFrame fh port ask s = .next s') : Holds P s' := by
  unfold execIdRequestFrame at e
  exact next_holds (by simp (maxDischargeDepth := 40) [hP, h]) e

theorem execCascadeCheckAnswer_holds (hP : Closed P) (fh : FrameHead) (id : Nat) (busy : Bool) (h : Holds P s) (e : execCascadeCheckAnswer fh id busy s = .next s') : Holds P s' := by
  unfold execCascadeCheckAnswer at e
  exact next_holds (by simp (maxDischargeDepth := 40) [hP, h]) e

theorem execFLaneSlot_holds (hP : Closed P) (prim chord : Option Nat) (h : Holds P s) (e : execFLaneSlot prim chord s = .next s') : Holds P s' := by
  unfold execFLaneSlot at e
  exact next_holds (by simp (maxDischargeDepth := 40) [hP, h]) e

theorem execDefaultDownWaitEnd_holds (hP : Closed P)  (h : Holds P s) (e : execDefaultDownWaitEnd s = .next s') : Holds P s' := by
  unfold execDefaultDownWaitEnd at e
  exact next_holds (by simp (maxDischargeDepth := 40) [hP, h]) e

/-- Every command but those of the supplies keeps a closed predicate. -/
theorem exec_holds (hP : Closed P) (i : Instr) (hi : ofSupply i = false) (h : Holds P s) (e : exec i s = .next s') : Holds P s' := by
  cases i with
  | regWrite => exact execRegWrite_holds hP _ _ _ _ h e
  | stkyClear => exact execStkyClear_holds hP _ _ _ _ h e
  | evcClear => exact execEvcClear_holds hP _ _ h e
  | frcForce => exact execFrcForce_holds hP _ _ h e
  | lockWrite => exact execLockWrite_holds hP _ _ h e
  | pageReset => exact execPageReset_holds hP _ h e
  | railPageReset => exact execRailPageReset_holds hP _ h e
  | hstPageReset => exact execHstPageReset_holds hP h e
  | cmdEngineReset => exact execCmdEngineReset_holds hP h e
  | cmpPageReset => exact execCmpPageReset_holds hP h e
  | trpPageReset => exact execTrpPageReset_holds hP h e
  | tlmPageReset => exact execTlmPageReset_holds hP h e
  | crbPageReset => exact execCrbPageReset_holds hP h e
  | thmPageReset => exact execThmPageReset_holds hP h e
  | fltPageReset => exact execFltPageReset_holds hP h e
  | spiReadSingle => exact execSpiReadSingle_holds hP _ _ _ _ _ h e
  | spiReadBurst => exact execSpiReadBurst_holds hP _ _ _ _ _ h e
  | spiReadStream => exact execSpiReadStream_holds hP _ _ _ _ _ h e
  | spiWriteSingle => exact execSpiWriteSingle_holds hP _ _ _ _ _ _ h e
  | spiWriteBurst => exact execSpiWriteBurst_holds hP _ _ _ _ _ _ h e
  | spiFrameAbort => exact execSpiFrameAbort_holds hP _ _ _ h e
  | spiStreamSlotFill => exact execSpiStreamSlotFill_holds hP _ h e
  | spiStrabn => exact execSpiStrabn_holds hP h e
  | smbTimeout => exact execSmbTimeout_holds hP h e
  | smbAlertResponse => exact execSmbAlertResponse_holds hP _ _ h e
  | pmbusUnsupported => exact execPmbusUnsupported_holds hP _ _ h e
  | page => exact execPage_holds hP _ h e
  | operationOn => exact execOperationOn_holds hP _ h e
  | operationSoftOff => exact execOperationSoftOff_holds hP _ h e
  | operationImmediateOff => exact execOperationImmediateOff_holds hP _ h e
  | onOffConfig => exact execOnOffConfig_holds hP _ h e
  | clearFaults => exact execClearFaults_holds hP _ h e
  | writeProtect => exact execWriteProtect_holds hP _ h e
  | capability => exact execCapability_holds hP _ h e
  | voutMode => exact execVoutMode_holds hP _ h e
  | voutCommand => exact execVoutCommand_holds hP _ h e
  | voutMax => exact execVoutMax_holds hP _ h e
  | voutTransitionRate => exact execVoutTransitionRate_holds hP _ h e
  | coefficients => exact execCoefficients_holds hP _ _ _ h e
  | voutOvFaultLimit => exact execVoutOvFaultLimit_holds hP _ h e
  | voutUvFaultLimit => exact execVoutUvFaultLimit_holds hP _ h e
  | ioutOcFaultLimit => exact execIoutOcFaultLimit_holds hP _ h e
  | otFaultLimit => exact execOtFaultLimit_holds hP _ h e
  | vinOvFaultLimit => exact execVinOvFaultLimit_holds hP _ h e
  | vinUvFaultLimit => exact execVinUvFaultLimit_holds hP _ h e
  | statusByte => exact execStatusByte_holds hP _ h e
  | statusWord => exact execStatusWord_holds hP _ h e
  | statusVout => exact execStatusVout_holds hP _ h e
  | statusIout => exact execStatusIout_holds hP _ h e
  | statusInput => exact execStatusInput_holds hP _ h e
  | statusTemperature => exact execStatusTemperature_holds hP _ h e
  | statusCml => exact execStatusCml_holds hP _ h e
  | readVin => exact execReadVin_holds hP _ h e
  | readIin => exact execReadIin_holds hP _ h e
  | readVout => exact execReadVout_holds hP _ h e
  | readIout => exact execReadIout_holds hP _ h e
  | readTemperature1 => exact execReadTemperature1_holds hP _ h e
  | readTemperature2 => exact execReadTemperature2_holds hP _ h e
  | readPout => exact execReadPout_holds hP _ h e
  | pmbusRevision => exact execPmbusRevision_holds hP _ h e
  | mfrId => exact execMfrId_holds hP _ h e
  | mfrModel => exact execMfrModel_holds hP _ h e
  | mfrRevision => exact execMfrRevision_holds hP _ h e
  | mfrWindowAddr => exact execMfrWindowAddr_holds hP _ h e
  | mfrWindowData => exact execMfrWindowData_holds hP _ h e
  | mfrWindowDataInc => exact execMfrWindowDataInc_holds hP _ h e
  | mfrFleetReport => exact execMfrFleetReport_holds hP _ h e
  | windowSample => exact execWindowSample_holds hP _ _ _ _ h e
  | pacemiss => exact execPacemiss_holds hP _ h e
  | railFire => exact execRailFire_holds hP _ _ _ _ h e
  | onTimeEnd => exact execOnTimeEnd_holds hP _ h e
  | integratorReset => exact execIntegratorReset_holds hP _ h e
  | railEnable => exact execRailEnable_holds hP _ h e
  | railDisable => exact execRailDisable_holds hP _ _ h e
  | precheckDone => exact execPrecheckDone_holds hP _ h e
  | prebiasDone => exact execPrebiasDone_holds hP _ h e
  | pgoodRise => exact execPgoodRise_holds hP _ _ h e
  | pgoodFall => exact execPgoodFall_holds hP _ _ h e
  | rampfailPgtmo => exact execRampfailPgtmo_holds hP _ _ h e
  | snsopen => exact execSnsopen_holds hP _ h e
  | engineSnapshot => exact execEngineSnapshot_holds hP _ h e
  | compWordApply => exact execCompWordApply_holds hP _ h e
  | engineTakeover => exact execEngineTakeover_holds hP _ h e
  | calStart => exact execCalStart_holds hP _ h e
  | calDone => exact execCalDone_holds hP _ _ _ h e
  | stgfltTrip => exact execStgfltTrip_holds hP _ _ h e
  | stgfltRelease => exact execStgfltRelease_holds hP _ _ h e
  | portAssign => exact execPortAssign_holds hP _ _ _ h e
  | orderCommit => exact execOrderCommit_holds hP _ h e
  | idStart => exact execIdStart_holds hP _ h e
  | idEnd => exact execIdEnd_holds hP _ _ h e
  | shareRise => exact execShareRise_holds hP _ _ h e
  | shareFall => exact execShareFall_holds hP _ _ h e
  | autoshedWindowEnd => exact execAutoshedWindowEnd_holds hP _ h e
  | i3cBusUp => exact execI3cBusUp_holds hP _ _ h e
  | i3cBusDisable => exact execI3cBusDisable_holds hP _ h e
  | i3cBusReset => exact execI3cBusReset_holds hP _ h e
  | i3cDaa => exact execI3cDaa_holds hP _ _ h e
  | i3cHotJoin => exact execI3cHotJoin_holds hP _ _ h e
  | i3cIbi => exact execI3cIbi_holds hP _ _ _ h e
  | itemRead => exact execItemRead_holds hP _ h e
  | itemReceived => exact execItemReceived_holds hP _ _ h e
  | itemReadRetry => exact execItemReadRetry_holds hP _ h e
  | nop => exact execNop_holds hP _ h e
  | vset => exact execVset_holds hP _ h e
  | vrel => exact execVrel_holds hP _ h e
  | phreq => exact execPhreq_holds hP _ h e
  | vquery => exact execVquery_holds hP _ h e
  | tlmrd => exact execTlmrd_holds hP _ h e
  | vseta => exact execVseta_holds hP _ h e
  | auwr => exact execAuwr_holds hP _ h e
  | recordWrite => exact execRecordWrite_holds hP _ _ h e
  | recordRetry => exact execRecordRetry_holds hP _ _ h e
  | getstatusPoll => exact execGetstatusPoll_holds hP _ _ _ h e
  | ovfVoteExpire => exact execOvfVoteExpire_holds hP _ h e
  | cmdFlush => exact execCmdFlush_holds hP _ h e
  | flushall => exact execFlushall_holds hP h e
  | orpPop => exact execOrpPop_holds hP h e
  | lnkEnable => exact execLnkEnable_holds hP _ h e
  | lnkInputLock => exact execLnkInputLock_holds hP h e
  | ringOpen => exact execRingOpen_holds hP h e
  | enumFrame => exact execEnumFrame_holds hP _ _ _ h e
  | ringMeasureDone => exact execRingMeasureDone_holds hP _ _ _ _ _ h e
  | slotmapFrame => exact execSlotmapFrame_holds hP _ _ _ _ _ h e
  | bindCheckFrame => exact execBindCheckFrame_holds hP _ _ _ _ h e
  | openFrame => exact execOpenFrame_holds hP _ _ h e
  | creditFrame => exact execCreditFrame_holds hP _ _ _ _ h e
  | tokenDispatch => exact execTokenDispatch_holds hP _ h e
  | token => exact execToken_holds hP _ _ _ _ _ _ h e
  | preload => exact execPreload_holds hP _ _ _ h e
  | fired => exact execFired_holds hP _ _ _ _ _ _ h e
  | missed => exact execMissed_holds hP _ _ _ _ _ _ h e
  | held => exact execHeld_holds hP _ _ _ _ _ _ h e
  | mid => exact execMid_holds hP _ _ h e
  | idResultFrame => exact execIdResultFrame_holds hP _ _ _ _ h e
  | faultRelayFrame => exact execFaultRelayFrame_holds hP _ _ _ h e
  | lendtmo => exact execLendtmo_holds hP _ _ h e
  | primaryLoss => exact execPrimaryLoss_holds hP h e
  | absentNotice => exact execAbsentNotice_holds hP _ _ h e
  | primaryReturn => exact execPrimaryReturn_holds hP h e
  | ringBreak => exact execRingBreak_holds hP h e
  | breakNotice => exact execBreakNotice_holds hP _ _ h e
  | comparatorAssert => exact execComparatorAssert_holds hP _ _ h e
  | comparatorDeassert => exact execComparatorDeassert_holds hP _ _ h e
  | cmpThresholdWrite => exact execCmpThresholdWrite_holds hP _ _ h e
  | cmpModeWrite => exact execCmpModeWrite_holds hP _ _ h e
  | crowClear => exact execCrowClear_holds hP _ h e
  | pclactExpire => exact execPclactExpire_holds hP _ h e
  | hiccupTrigger => exact execHiccupTrigger_holds hP _ _ _ h e
  | hiccupRestart => exact execHiccupRestart_holds hP _ h e
  | hiccupCountClear => exact execHiccupCountClear_holds hP _ h e
  | uvArm => exact execUvArm_holds hP _ h e
  | uvFault => exact execUvFault_holds hP _ h e
  | tripLineActive => exact execTripLineActive_holds hP _ h e
  | tripLineInactive => exact execTripLineInactive_holds hP _ h e
  | tripClear => exact execTripClear_holds hP _ h e
  | auxEnable => exact execAuxEnable_holds hP _ h e
  | auxDisable => exact execAuxDisable_holds hP _ h e
  | auxCapture => exact execAuxCapture_holds hP _ _ _ h e
  | auxPeriodBoundary => exact execAuxPeriodBoundary_holds hP _ h e
  | auxDutyInstant => exact execAuxDutyInstant_holds hP _ h e
  | auxDeadtimeEnd => exact execAuxDeadtimeEnd_holds hP _ h e
  | auxReload => exact execAuxReload_holds hP _ h e
  | auxForce => exact execAuxForce_holds hP _ _ h e
  | auxGoodRise => exact execAuxGoodRise_holds hP _ _ h e
  | xuv => exact execXuv_holds hP _ _ h e
  | xoc => exact execXoc_holds hP _ h e
  | fanPeriod => exact execFanPeriod_holds hP h e
  | fanTachEdge => exact execFanTachEdge_holds hP h e
  | fanstall => exact execFanstall_holds hP _ h e
  | tlmBaseSample => exact execTlmBaseSample_holds hP _ h e
  | tlmSwap => exact execTlmSwap_holds hP h e
  | pkcall => exact execPkcall_holds hP h e
  | tlmPeakClear => exact execTlmPeakClear_holds hP h e
  | tlmPkrRead => exact execTlmPkrRead_holds hP h e
  | winmonRead => exact execWinmonRead_holds hP _ h e
  | enLatRead => exact execEnLatRead_holds hP _ h e
  | cmdTagsRead => exact execCmdTagsRead_holds hP h e
  | fltLatchRead => exact execFltLatchRead_holds hP h e
  | devTimelRead => exact execDevTimelRead_holds hP h e
  | crumbMerge => exact execCrumbMerge_holds hP h e
  | packTimeout => exact execPackTimeout_holds hP _ h e
  | crbDataRead => exact execCrbDataRead_holds hP _ h e
  | crbFlush => exact execCrbFlush_holds hP _ _ h e
  | crbRselWrite => exact execCrbRselWrite_holds hP _ h e
  | crbRdataRead => exact execCrbRdataRead_holds hP _ h e
  | req => exact execReq_holds hP _ _ _ _ h e
  | sync => exact execSync_holds hP _ _ h e
  | data => exact execData_holds hP _ _ _ _ h e
  | resync => exact execResync_holds hP _ _ _ h e
  | crbRequest => exact execCrbRequest_holds hP _ h e
  | crbReqTimeout => exact execCrbReqTimeout_holds hP _ h e
  | hkRoundStart => exact execHkRoundStart_holds hP h e
  | hkRoundEnd => exact execHkRoundEnd_holds hP _ _ _ _ h e
  | hkRoundAbandon => exact execHkRoundAbandon_holds hP h e
  | faultMessage => exact execFaultMessage_holds hP h e
  | faultRelease => exact execFaultRelease_holds hP _ h e
  | classWrite => exact execClassWrite_holds hP _ _ h e
  | faultForce => exact execFaultForce_holds hP _ _ h e
  | fltreg => exact execFltreg_holds hP h e
  | runsvc => exact execRunsvc_holds hP h e
  | park => exact execPark_holds hP h e
  | abort => exact execAbort_holds hP h e
  | endStep => exact execEndStep_holds hP h e
  | enable => exact execEnable_holds hP h e
  | waitgood => exact execWaitgood_holds hP h e
  | waitgoodSatisfied => exact execWaitgoodSatisfied_holds hP h e
  | bkhtmo => exact execBkhtmo_holds hP h e
  | delay => exact execDelay_holds hP h e
  | delayEnd => exact execDelayEnd_holds hP h e
  | check => exact execCheck_holds hP h e
  | brfault => exact execBrfault_holds hP h e
  | report => exact execReport_holds hP h e
  | seqInputChange => exact execSeqInputChange_holds hP _ _ h e
  | wakeEdge => exact execWakeEdge_holds hP h e
  | sleepTimeout => exact execSleepTimeout_holds hP h e
  | mainenRelease => exact execMainenRelease_holds hP _ h e
  | bbRecordWrite => exact execBbRecordWrite_holds hP h e
  | flashProgramDone => exact execFlashProgramDone_holds hP h e
  | flashEraseDone => exact execFlashEraseDone_holds hP _ h e
  | fleetReportForm => exact execFleetReportForm_holds hP h e
  | logScanDone => exact execLogScanDone_holds hP h e
  | nvmProgram => exact execNvmProgram_holds hP _ h e
  | nvmErase => exact execNvmErase_holds hP _ h e
  | nvmRead => exact execNvmRead_holds hP _ h e
  | nvmOpDone => exact execNvmOpDone_holds hP h e
  | scrub => exact execScrub_holds hP _ _ _ h e
  | ctlRecordWrite => exact execCtlRecordWrite_holds hP h e
  | nvmHoldEnd => exact execNvmHoldEnd_holds hP h e
  | keyProvision => exact execKeyProvision_holds hP _ h e
  | keyImgauth => exact execKeyImgauth_holds hP _ h e
  | provClose => exact execProvClose_holds hP h e
  | otpBurnDone => exact execOtpBurnDone_holds hP h e
  | secFailDecay => exact execSecFailDecay_holds hP h e
  | secHoldoffEnd => exact execSecHoldoffEnd_holds hP h e
  | vkeepPowerOn => cases hi
  | supplyRise _ => cases hi
  | supplyFall _ => cases hi
  | wakingSupplyGood => exact execWakingSupplyGood_holds hP h e
  | wakingTimeout => exact execWakingTimeout_holds hP h e
  | rstNAssert => exact execRstNAssert_holds hP _ h e
  | rstNRelease => exact execRstNRelease_holds hP h e
  | swrst => exact execSwrst_holds hP h e
  | coldnext => exact execColdnext_holds hP h e
  | bootStart => exact execBootStart_holds hP _ _ h e
  | bootPhaseAEnd => exact execBootPhaseAEnd_holds hP h e
  | bootPhaseBEnd => exact execBootPhaseBEnd_holds hP h e
  | bootPhaseCEnd => exact execBootPhaseCEnd_holds hP _ _ h e
  | bootPhaseDEnd => exact execBootPhaseDEnd_holds hP _ _ h e
  | bootEnd => exact execBootEnd_holds hP _ h e
  | shadowRequest => exact execShadowRequest_holds hP _ _ h e
  | maintGrant => exact execMaintGrant_holds hP h e
  | shadowStart => exact execShadowStart_holds hP h e
  | shadowPass => exact execShadowPass_holds hP h e
  | retestDone => exact execRetestDone_holds hP _ _ h e
  | bistbgRun => exact execBistbgRun_holds hP _ h e
  | bgnow => exact execBgnow_holds hP h e
  | bistbgDone => exact execBistbgDone_holds hP _ _ h e
  | recalRequest => exact execRecalRequest_holds hP _ h e
  | recalDone => exact execRecalDone_holds hP _ _ h e
  | slcmpRequest => exact execSlcmpRequest_holds hP h e
  | slcmpDone => exact execSlcmpDone_holds hP _ _ h e
  | repairMapWrite => exact execRepairMapWrite_holds hP h e
  | frzPinChange => exact execFrzPinChange_holds hP _ h e
  | obs => exact execObs_holds hP _ h e
  | full => exact execFull_holds hP h e
  | recap => exact execRecap_holds hP h e
  | freezeAllMid => exact execFreezeAllMid_holds hP h e
  | freezeHalt => exact execFreezeHalt_holds hP h e
  | rackdataRead => exact execRackdataRead_holds hP h e
  | tapReset => exact execTapReset_holds hP h e
  | extest => exact execExtest_holds hP _ h e
  | samplePreload => exact execSamplePreload_holds hP _ h e
  | idcode => exact execIdcode_holds hP h e
  | regacc => exact execRegacc_holds hP _ _ _ _ h e
  | frzScan => exact execFrzScan_holds hP h e
  | frzRead => exact execFrzRead_holds hP _ h e
  | bypass => exact execBypass_holds hP _ h e
  | vkeepLoss => cases hi
  | snsopenRelease => exact execSnsopenRelease_holds hP _ h e
  | phaseAdcSample => exact execPhaseAdcSample_holds hP _ _ h e
  | getstatusRetry => exact execGetstatusRetry_holds hP _ _ _ h e
  | idRequestFrame => exact execIdRequestFrame_holds hP _ _ _ h e
  | cascadeCheckAnswer => exact execCascadeCheckAnswer_holds hP _ _ _ h e
  | fLaneSlot => exact execFLaneSlot_holds hP _ _ h e
  | defaultDownWaitEnd => exact execDefaultDownWaitEnd_holds hP h e

/-- A predicate that every primitive change keeps, those of the supplies as well. -/
structure ClosedAll (P : State → Prop) : Prop where
  upd : ∀ (s : State) (c : Core) (p : Power), P s → P { core := c, pw := p, st := s.st, pending := s.pending }
  put : ∀ (s : State) (a : Nat) (b : Byte), P s → P (s.flashPut a b)
  erase : ∀ (s : State) (p : Nat), P s → P (s.flashErase p)
  bad : ∀ (s : State) (l : List Nat), P s → P (s.setBad l)
  burn : ∀ (s : State) (i : Nat) (w : Word), P s → P (s.otpBurn i w)

theorem ClosedAll.closed (hP : ClosedAll P) : Closed P where
  upd s c p h _ := hP.upd s c p h
  put := hP.put
  erase := hP.erase
  bad := hP.bad
  burn := hP.burn

theorem State.supplyFall_holds (hP : ClosedAll P) (i : Nat) (h : Holds P s) : Holds P (s.supplyFall i) := by
  have h1 (p : Power) : Holds P { core := s.core, pw := p, st := s.st, pending := s.pending } := hP.upd s _ _ h
  unfold State.supplyFall
  extract_lets p q before s1 s2
  split
  · exact h1 _
  · exact hP.upd _ _ _ (State.resetCore_holds hP.closed true (h1 _))

theorem State.vkeepLoss_holds (hP : ClosedAll P) (h : Holds P s) : Holds P s.vkeepLoss := by
  unfold State.vkeepLoss
  exact hP.upd _ _ _ (State.resetCore_holds hP.closed true h)

theorem State.vkeepOn_holds (hP : ClosedAll P) (h : Holds P s) : Holds P s.vkeepOn := hP.upd s _ _ h

/-- Every command keeps a predicate closed under every change. -/
theorem exec_holds_all (hP : ClosedAll P) (i : Instr) (h : Holds P s) (e : exec i s = .next s') : Holds P s' := by
  cases hi : ofSupply i
  · exact exec_holds hP.closed i hi h e
  · cases i <;> first | cases hi; done | skip
    case true.supplyRise j =>
      exact next_holds (holds_ite h (State.suppliesUp_holds hP.closed (hP.upd s _ _ h))) e
    case true.supplyFall j => exact next_holds (holds_ite (State.supplyFall_holds hP _ h) h) e
    case true.vkeepPowerOn => exact next_holds (holds_ite h (State.vkeepOn_holds hP h)) e
    case true.vkeepLoss => exact next_holds (holds_ite (State.vkeepLoss_holds hP h) h) e

/-- Every step keeps a predicate closed under every change and under changes of the queue. -/
theorem step_holds (hP : ClosedAll P) (hq : ∀ s l, P s → P { core := s.core, pw := s.pw, st := s.st, pending := l }) (h : P s)
    (e : step s = .next s') : P s' := by
  unfold step at e
  split at e
  · exact next_holds (State.idle_holds hP.closed h) e
  · exact exec_holds_all hP _ (hq _ _ h) e

end Sys2Proof.Machine
end

