-- ==== Sys2Proof/Laws/Stores.lean ====
section
/-! SUPPORT. What the nonvolatile store and the security block can do. -/
namespace Sys2Proof.Machine


/-- REPAIR_MAP_WRITE begins (R426). -/
theorem State.mapWrite_eq (s : State) {m : RepairMap} {t : List RepairMap} (h : s.serviceRuns = true) (h1 : s.core.flashFree = true)
    (h2 : s.core.held = false) (h3 : s.core.rpr.mapQ = m :: t) : execRepairMapWrite s = .next ((s.beginMap (if s.core.rpr.mapHalf then .map2 else .map1) m).rest) := by
  unfold execRepairMapWrite
  dsimp only
  rw [h3]
  exact congrArg Host.Outcome.next (if_pos (by rw [h, h1, h2]; rfl))

/-- A copy of the map goes into a free slot of its sector (R426). -/
theorem State.beginMap_free (s : State) (m : RepairMap) {k : RecKind} {copy i : Nat} (hk : (if k = .map1 then 0 else 1) = copy)
    (h : s.freeMapSlot copy = some i) : s.beginMap k m = s.onCore (fun c => c.beginWrite k (mapAddr copy i) (slotBytes (mapBody m))) := by
  unfold State.beginMap State.writeMap
  rw [hk]
  dsimp only
  rw [h]

/-- A sector without a free slot is erased before (R426). -/
theorem State.beginMap_full (s : State) (m : RepairMap) {k : RecKind} {copy : Nat} (hk : (if k = .map1 then 0 else 1) = copy)
    (h : s.freeMapSlot copy = none) :
    s.beginMap k m = (s.flashErase (12 + copy)).onCore (fun c => c.beginWrite k (mapAddr copy 0) (slotBytes (mapBody m))) := by
  unfold State.beginMap State.writeMap
  rw [hk]
  dsimp only
  rw [h]

/-- The next step of a record write (R378). -/
theorem State.recordStep_next (s : State) {w : RecWrite} (h1 : s.core.nvm.write = some w) (h2 : w.going = true) (h3 : w.steps < 2) :
    s.recordStep = (s.programStep w).onCore (fun c => { c with nvm := { c.nvm with
      write := some { w with steps := w.steps + 1, going := !(s.programStep w).core.held && (s.programStep w).core.rpr.depth ≠ 2 } } }) := by
  unfold State.recordStep
  rw [h1]
  dsimp only
  rw [if_neg (by rw [h2]; decide), if_pos h3]

/-- The last step commits the record (R378). -/
theorem State.recordStep_last (s : State) {w : RecWrite} (h1 : s.core.nvm.write = some w) (h2 : w.going = true) (h3 : 2 ≤ w.steps) :
    s.recordStep = ((s.programStep w).onCore (fun c => { c with nvm := { c.nvm with write := none } })).commitRecord w := by
  unfold State.recordStep
  rw [h1]
  dsimp only
  rw [if_neg (by rw [h2]; decide), if_neg (by omega)]

theorem State.recordStep_log (s : State) {w : RecWrite} (h1 : s.core.nvm.write = some w) (h2 : w.going = true) (h3 : 2 ≤ w.steps) (h4 : w.kind = .log) :
    s.recordStep = ((s.programStep w).onCore (fun c => { c with nvm := { c.nvm with write := none } })).onCore (fun c => c.commitLog w.addr w.bytes) := by
  rw [State.recordStep_last s h1 h2 h3, State.commitRecord, h4]
theorem State.recordStep_ctl (s : State) {w : RecWrite} (h1 : s.core.nvm.write = some w) (h2 : w.going = true) (h3 : 2 ≤ w.steps) (h4 : w.kind = .ctl) :
    s.recordStep = ((s.programStep w).onCore (fun c => { c with nvm := { c.nvm with write := none } })).onCore (fun c => c.commitCtl (ctlParse w.bytes)) := by
  rw [State.recordStep_last s h1 h2 h3, State.commitRecord, h4]
theorem State.recordStep_map2 (s : State) {w : RecWrite} (h1 : s.core.nvm.write = some w) (h2 : w.going = true) (h3 : 2 ≤ w.steps) (h4 : w.kind = .map2) :
    s.recordStep = ((s.programStep w).onCore (fun c => { c with nvm := { c.nvm with write := none } })).onCore (fun c => c.commitMap) := by
  rw [State.recordStep_last s h1 h2 h3, State.commitRecord, h4]

/-- The second copy of a map follows its first at once where nothing stands against it (R426). -/
theorem State.recordStep_map1 (s : State) {w : RecWrite} {m : RepairMap} {t : List RepairMap} (h1 : s.core.nvm.write = some w) (h2 : w.going = true)
    (h3 : 2 ≤ w.steps) (h4 : w.kind = .map1)
    (h5 : ((s.programStep w).onCore (fun c => { c with nvm := { c.nvm with write := none } })).core.rpr.mapQ = m :: t)
    (h6 : ((s.programStep w).onCore (fun c => { c with nvm := { c.nvm with write := none } })).core.rpr.depth = 0)
    (h7 : ((s.programStep w).onCore (fun c => { c with nvm := { c.nvm with write := none } })).core.held = false) :
    s.recordStep = ((s.programStep w).onCore (fun c => { c with nvm := { c.nvm with write := none } })).beginMap .map2 m := by
  rw [State.recordStep_last s h1 h2 h3, State.commitRecord, h4]
  dsimp only
  rw [h5]
  exact if_pos (by rw [h6, h7]; rfl)

/-- An erase that ends, verified or not (R373, R379, R384, R395). -/
theorem State.eraseDone_eq (s : State) {l : Nat} {why : EraseWhy} {t : List (Nat × EraseWhy)} (ok : Bool) (h : s.core.nvm.erases = (l, why) :: t) :
    s.eraseDone ok =
      (let lost := if 16 ≤ l && l ≤ 48 then s.heldIn l else 0
       let s1 := if ok then s.flashErase (s.core.physSector l) else s
       let s2 := if !ok || s1.core.nvm.retire.contains l then s1.retireSector l (!ok) else s1
       let s3 := s2.onCore (fun c => { c with nvm := { c.nvm with erases := c.nvm.erases.drop 1, recs := c.nvm.recs - lost },
                                              bkh := { c.bkh with reportDue := c.bkh.reportDue || lost ≠ 0 } })
       let s4 := if 16 ≤ l && l ≤ 48 then s3.onCore (fun c =>
           let e := satAdd 24 c.nvm.next.logerase 1
           ((c.setFld pgNVM NVM_WEAR_LOGERASE e).wantCtl (fun x => { x with logerase := e })).showLog)
         else s3
       if why = .bb && !t.any (fun e => e.2 = .bb) then s4.onCore (fun c => (c.setFld pgNVM NVM_BBERASE_GO 0).raise pgNVM 10)
       else s4) := by
  unfold State.eraseDone
  rw [h]

/-- A retired sector takes the lowest spare (R373). -/
theorem State.retireSector_spare (s : State) {l p : Nat} (failed : Bool) (h : s.core.freeSpare = some p) :
    s.retireSector l failed =
      (let t := (s.flashErase p).onCore (fun c =>
         let m := c.rpr.map
         let c : Core := { c with rpr := { c.rpr with map := { m with flash := m.flash ++ [(l, p)] } },
                                  nvm := { c.nvm with retire := c.nvm.retire.filter (· ≠ l) } }
         (c.queueMap.showMap).setFld pgNVM NVM_SPARE_LASTRET (s.core.physSector l))
       if t.core.freeSpare.isNone then t.onCore (fun c => (c.setLevel pgNVM 5 true).send 0x43 0 0) else t) := by
  unfold State.retireSector
  rw [h]

/-- With no spare left a sector stays, and a log sector that failed its erase is skipped (R373). -/
theorem State.retireSector_none (s : State) {l : Nat} (failed : Bool) (h : s.core.freeSpare = none) :
    s.retireSector l failed =
      (let t := s.onCore (fun c => (c.setLevel pgNVM 5 true).send 0x43 0 0)
       if failed && 16 ≤ l && l ≤ 48 && !t.core.nvm.skipped.contains l then t.skipSector l else t) := by
  unfold State.retireSector
  rw [h]

/-- A skipped sector that does not hold the head: the sector after it takes its place ahead (R373, R379). -/
theorem State.skipSector_ahead (s : State) {l : Nat} (h : 16 + s.core.nvm.head / 32 ≠ l) :
    s.skipSector l =
      (let t := s.onCore (fun c => { c with nvm := { c.nvm with skipped := l :: c.nvm.skipped } })
       if 16 + s.core.nextLog (s.core.nvm.head / 32) = l then t.onCore Core.eraseAhead else t) := by
  unfold State.skipSector
  dsimp only
  rw [if_neg h]
  simp only [decide_eq_true_eq]

/-- A skipped sector that holds the head: the head moves on to the next sector (R373, R379). -/
theorem State.skipSector_head (s : State) {l : Nat} (h : 16 + s.core.nvm.head / 32 = l) :
    s.skipSector l =
      (let t := s.onCore (fun c => { c with nvm := { c.nvm with skipped := l :: c.nvm.skipped } })
       let n := t.core.nextLog (s.core.nvm.head / 32)
       let t := t.onCore (fun c => { c with nvm := { c.nvm with head := 32 * n } })
       (if t.flashBlank ((16 + n) * 2048) 2048 then t else t.onCore (fun c => c.wantErase (16 + n) .log)).onCore Core.eraseAhead) := by
  unfold State.skipSector
  exact if_pos h

/-- A scrub run with a few corrected words (R373, R382). -/
theorem Core.scrub_few (c : Core) (p corr : Nat) (h1 : 0 < corr)
    (h2 : corr < zeroAsOne ((((c.incSat pgNVM NVM_ECC_CORR corr).raise pgNVM 3).send 0x41 0 (mkAddr 0xD p)).fld pgNVM NVM_CFG_RETN)) (h3 : p ≠ 63) :
    c.scrub p corr 0 =
      (let d := ((c.incSat pgNVM NVM_ECC_CORR corr).raise pgNVM 3).send 0x41 0 (mkAddr 0xD p)
       { d with nvm := { d.nvm with corrected := d.nvm.corrected ++ [(p, corr)] } }) := by
  unfold Core.scrub
  rw [if_neg (by omega : ¬ corr = 0)]
  dsimp only
  rw [if_pos rfl, if_neg (by omega), if_neg h3]

/-- The end of a hold with no write under way (R381). -/
theorem State.endHold_idle (s : State) (h : (s.core.setLevel pgNVM 8 false).nvm.write = none) :
    s.endHold = s.onCore (fun c => c.setLevel pgNVM 8 false) := by
  unfold State.endHold
  dsimp only
  rw [show (s.onCore fun c => c.setLevel pgNVM 8 false).core.nvm.write = none from h]

/-- In full freeze the record stays as it is (R440). -/
theorem State.endHold_full (s : State) {w : RecWrite} (h : (s.core.setLevel pgNVM 8 false).nvm.write = some w)
    (hd : (s.core.setLevel pgNVM 8 false).rpr.depth = 2) : s.endHold = s.onCore (fun c => c.setLevel pgNVM 8 false) := by
  unfold State.endHold
  dsimp only
  rw [show (s.onCore fun c => c.setLevel pgNVM 8 false).core.nvm.write = some w from h]
  exact if_pos (by rw [show (s.onCore fun c => c.setLevel pgNVM 8 false).core.rpr.depth = 2 from hd]; simp)

/-- A record with two steps ended receives its commit word (R381). -/
theorem State.endHold_commit (s : State) {w : RecWrite} (h : (s.core.setLevel pgNVM 8 false).nvm.write = some w)
    (hd : (s.core.setLevel pgNVM 8 false).rpr.depth ≠ 2) (h1 : w.going = false) (h2 : w.steps = 2) :
    s.endHold = (s.onCore (fun c => c.setLevel pgNVM 8 false)).onCore (fun c =>
      { c with nvm := { c.nvm with write := some { w with going := true } } }) := by
  unfold State.endHold
  dsimp only
  rw [show (s.onCore fun c => c.setLevel pgNVM 8 false).core.nvm.write = some w from h]
  dsimp only
  rw [if_neg (by rw [h1, decide_eq_false (show (s.onCore fun c => c.setLevel pgNVM 8 false).core.rpr.depth ≠ 2 from hd)]; decide), if_pos h2]

/-- A record whose second step had not begun is written again in the next free slot (R381, R426). -/
theorem State.endHold_rewrite (s : State) {w : RecWrite} (h : (s.core.setLevel pgNVM 8 false).nvm.write = some w)
    (hd : (s.core.setLevel pgNVM 8 false).rpr.depth ≠ 2) (h1 : w.going = false) (h2 : w.steps ≠ 2) :
    s.endHold = (s.onCore (fun c => c.setLevel pgNVM 8 false)).rewrite w := by
  unfold State.endHold
  dsimp only
  rw [show (s.onCore fun c => c.setLevel pgNVM 8 false).core.nvm.write = some w from h]
  dsimp only
  rw [if_neg (by rw [h1, decide_eq_false (show (s.onCore fun c => c.setLevel pgNVM 8 false).core.rpr.depth ≠ 2 from hd)]; decide), if_neg h2]

theorem State.rewrite_log (s : State) {w : RecWrite} (h : w.kind = .log) : s.rewrite w =
    s.onCore (fun c => (c.passSlot w.addr).beginWrite .log (logAddr (c.passSlot w.addr).nvm.head) w.bytes) := by
  unfold State.rewrite
  rw [h]

theorem State.rewrite_ctl (s : State) {w : RecWrite} (h : w.kind = .ctl) : s.rewrite w =
    s.onCore (fun c => ({ c with nvm := { c.nvm with ctlSlot := (c.nvm.ctlSlot + 1) % 64 } } : Core).beginWrite .ctl
      (ctlAddr ((c.nvm.ctlSlot + 1) % 64)) w.bytes) := by
  unfold State.rewrite
  rw [h]

theorem State.rewrite_map (s : State) {w : RecWrite} (h : w.kind = .map1 ∨ w.kind = .map2) : s.rewrite w = s.writeMap w.kind w.bytes := by
  unfold State.rewrite
  rcases h with h | h <;> rw [h]


theorem State.writePage_nvm (s : State) (off : Nat) (w : Word) : s.writePage pgNVM off w = s.writeNvm off w := rfl
theorem State.writePage_sec (s : State) (off : Nat) (w : Word) : s.writePage pgSEC off w = s.writeSec off w := rfl

/-- A write of NVM_OP with GO through any port (R377). -/
theorem State.portWrite_nvm {s : State} (h : s.serviceRuns = true) (p : HostPort) (op : Nat) (hop : op < 4) :
    s.portWrite p pgNVM 0x34 (BitVec.ofNat 32 (0x100 + op)) =
      ((s.onCore (fun c => c.putFields pgNVM .nvm 0x34 (BitVec.ofNat 32 (0x100 + op)))).nvmGo).rest.frameEnd := by
  have ho : s.portOpen p = true := by
    unfold State.portOpen
    split
    · exact h
    · exact State.serviceRuns_regOpen h
  have hm : s.portMark p pgNVM = s := by
    unfold State.portMark
    cases p
    · exact if_neg (by decide)
    · exact if_neg (by decide)
    · rfl
  have hb : bitOf (BitVec.ofNat 32 (0x100 + op) : Word) 8 = true := by
    have : ∀ op < 4, bitOf (BitVec.ofNat 32 (0x100 + op) : Word) 8 = true := by decide
    exact this op hop
  unfold State.portWrite
  rw [if_pos ho, hm, State.hostWrite_eq h p _ _ (by decide), State.writeNow_eq _ _ (.inl (by decide)),
    show s.writeReg pgNVM 0x34 (BitVec.ofNat 32 (0x100 + op)) = s.writeNvm 0x34 (BitVec.ofNat 32 (0x100 + op)) from rfl]
  exact congrArg (fun t : State => t.rest.frameEnd) (if_pos hb)

/-- A host operation starts (R377). -/
theorem State.nvmGo_starts (s : State) {op sec n : Nat} (h1 : s.core.areaOf (s.core.fld pgNVM NVM_OPADDR_AREA) = some (sec, n))
    (h2 : s.core.fld pgNVM NVM_OP_OP = op) (h3 : s.core.nvm.host = none) (h0 : 1 ≤ op) (h4 : s.core.fld pgNVM NVM_OPADDR_OFFSET % 32 = 0)
    (h5 : s.core.fld pgNVM NVM_OPADDR_OFFSET < n * 2048) (h6 : op = 3 ∨ s.core.fld pgNVM NVM_OPADDR_AREA < 2)
    (h7 : op = 1 → s.pageProgrammable (sec * 2048 + s.core.fld pgNVM NVM_OPADDR_OFFSET) = true) :
    s.nvmGo = s.onCore (fun c =>
      let x : HostOp := ⟨op, c.fld pgNVM NVM_OPADDR_AREA, c.fld pgNVM NVM_OPADDR_OFFSET, c.nvmBuf, false⟩
      (({ c with nvm := { c.nvm with host := some x } } : Core).setFld pgNVM NVM_OP_BUSY 1).letHost) := by
  unfold State.nvmGo
  dsimp only
  rw [h1, h2]
  dsimp only
  rw [if_neg, if_neg]
  · rfl
  · intro h
    rw [Bool.and_eq_true, decide_eq_true_eq, Bool.not_eq_true'] at h
    rw [h7 h.1] at h
    exact Bool.noConfusion h.2
  · rw [h3]
    simp only [Option.isSome_none, Bool.false_or, Bool.or_eq_true, decide_eq_true_eq, Bool.and_eq_true, ne_eq]
    omega

/-- An operation that may not begin waits (R377, R382). -/
theorem Core.letHost_waits (c : Core) {x : HostOp} (h : c.nvm.host = some x) (h1 : c.hostReady x.op = false) : c.letHost = c := by
  unfold Core.letHost
  rw [h]
  exact if_pos (by rw [h1]; simp)

/-- An operation that may begin does, and an erase takes its sectors in turn (R377, R382). -/
theorem Core.letHost_begins (c : Core) {x : HostOp} {sec n : Nat} (h : c.nvm.host = some x) (h0 : x.begun = false) (h1 : c.hostReady x.op = true)
    (h2 : c.areaOf x.area = some (sec, n)) : c.letHost =
      (let d : Core := { c with nvm := { c.nvm with host := some { x with begun := true } } }
       if x.op = 2 then (List.range n).foldl (fun c i => c.wantErase (sec + i) .host) d else d) := by
  unfold Core.letHost
  rw [h]
  dsimp only
  rw [if_neg (by rw [h0, h1]; decide)]
  by_cases h3 : x.op = 2
  · rw [if_pos h3, if_pos h3, show ({ c with nvm := { c.nvm with host := some { x with begun := true } } } : Core).areaOf x.area = some (sec, n) from h2]
  · rw [if_neg h3, if_neg h3]

/-- NVM_OP_DONE while the operation may end (R377, R381, R382). -/
theorem State.opDone_eq {s : State} {x : HostOp} (h : s.booted = true) (h2 : s.core.nvm.host = some x)
    (h3 : x.begun = true) (h4 : x.op ≠ 2 ∨ s.core.nvm.erases.any (fun e => e.2 = .host) = false) :
    execNvmOpDone s = .next (s.nvmDone.rest) := by
  unfold execNvmOpDone
  dsimp only
  rw [h2]
  refine congrArg Host.Outcome.next (if_pos ?_)
  rw [h, h3]
  rcases h4 with h4 | h4
  · rw [decide_eq_false h4]; rfl
  · rw [h4, Bool.and_false]; rfl

/-- A host operation ends (R377). -/
theorem State.nvmDone_eq (s : State) {x : HostOp} {sec n : Nat} (h : s.core.nvm.host = some x) (h1 : s.core.areaOf x.area = some (sec, n)) :
    s.nvmDone =
      (if x.op = 1 then s.hostProgram x (sec * 2048 + x.off)
        else if x.op = 3 then
          (s.reportBad (sec * 2048 + x.off) 32).onCore (fun c =>
            (List.range 8).foldl (fun c i => c.setFld pgNVM (NVM_BUF_DATA i) (s.flashWord (sec * 2048 + x.off + 4 * i)).toNat) c)
        else s).onCore (fun c => (({ c with nvm := { c.nvm with host := none } } : Core).setFld pgNVM NVM_OP_BUSY 0).raise pgNVM 0) := by
  unfold State.nvmDone
  rw [h]
  dsimp only
  rw [h1]

/-- With no freeze a burn begins at once unless flash writes are held (R381, R386). -/
theorem Core.beginBurn_eq (c : Core) (b : Burn) (h : c.rpr.depth = 0) :
    c.beginBurn b = ({ c with sec := { c.sec with burn := some b, burnOn := !c.held } } : Core).setFld pgSEC SEC_KPROG_BUSY 1 := by
  unfold Core.beginBurn Core.letBurn
  have e : ({ c with sec := { c.sec with burn := some b, burnOn := false } } : Core).held = c.held := rfl
  rw [e]
  cases c.held
  · rw [if_pos (by simp [h])]; rfl
  · rw [if_neg (by simp)]; rfl

theorem State.kprog_go (s : State) (k : Fin 4) : s.writeReg pgSEC 0x38 (BitVec.ofNat 32 (k.val + 0x100)) =
    (s.onCore (fun c => c.putFields pgSEC .sec 0x38 (BitVec.ofNat 32 (k.val + 0x100)))).keyGo k := by
  have e : getBits (BitVec.ofNat 32 (k.val + 0x100) : Word) 0 2 = k.val ∧ bitOf (BitVec.ofNat 32 (k.val + 0x100) : Word) 8 = true ∧
    bitOf (BitVec.ofNat 32 (k.val + 0x100) : Word) 9 = false ∧ bitOf (BitVec.ofNat 32 (k.val + 0x100) : Word) 10 = false := by
    revert k; decide
  show s.writeSec 0x38 _ = _
  unfold State.writeSec
  rw [e.1, e.2.1, e.2.2.1, e.2.2.2]
  rfl

theorem State.kprog_img (s : State) (k : Fin 4) : s.writeReg pgSEC 0x38 (BitVec.ofNat 32 (k.val + 0x400)) =
    (s.onCore (fun c => c.putFields pgSEC .sec 0x38 (BitVec.ofNat 32 (k.val + 0x400)))).imgAuthGo k := by
  have e : getBits (BitVec.ofNat 32 (k.val + 0x400) : Word) 0 2 = k.val ∧ bitOf (BitVec.ofNat 32 (k.val + 0x400) : Word) 8 = false ∧
    bitOf (BitVec.ofNat 32 (k.val + 0x400) : Word) 9 = false ∧ bitOf (BitVec.ofNat 32 (k.val + 0x400) : Word) 10 = true := by
    revert k; decide
  show s.writeSec 0x38 _ = _
  unfold State.writeSec
  rw [e.1, e.2.1, e.2.2.1, e.2.2.2]
  rfl

/-- CLOSE written by a host (R386). -/
theorem State.provClose_write {s : State} (h : s.serviceRuns = true) : s.fieldWrite pgSEC SEC_KPROG_CLOSE 1 =
    ((s.onCore (fun c => c.putFields pgSEC .sec 0x38 (setBits (s.core.wordOf pgSEC 0x38) 9 1 1))).closeGo).rest.frameEnd := by
  have hk : kindOf pgSEC = some .sec := rfl
  have b9 : bitOf (setBits (s.core.wordOf pgSEC 0x38) 9 1 1) 9 = true := by rw [bitOf_setBits_one _ _ _ (by decide)]; rfl
  have z : ∀ m, m = 8 ∨ m = 10 → bitOf (setBits (s.core.wordOf pgSEC 0x38) 9 1 1) m = false := by
    intro m hm
    rw [bitOf_setBits_other _ _ _ _ _ (by decide) (by omega), bitOf_wordOf _ _ _ hk,
      (by decide +kernel : ∀ m < 11, m = 8 ∨ m = 10 → ((fieldsAt PageKind.sec 0x38).any fun f => f.acc = Access.w1s && f.lo ≤ m && m < f.lo + f.len) = true) m (by omega) hm]
    simp
  rw [State.fieldWrite, State.regWrite_eq h _ _ (by decide), State.writeNow_eq _ _ (.inl (by decide))]
  refine congrArg (fun t : State => t.rest.frameEnd) ?_
  show s.writeSec 0x38 (setBits (s.core.wordOf pgSEC 0x38) 9 1 1) = _
  unfold State.writeSec
  rw [z 8 (.inl rfl), z 10 (.inr rfl), b9]
  rfl

/-- A burn ends (R386). -/
theorem State.burnDone_eq (s : State) {b : Burn} (h : s.core.sec.burn = some b) :
    s.burnDone = (((s.burnInto b).onCore (fun c => ({ c with sec := { c.sec with burn := none } } : Core).setFld pgSEC SEC_KPROG_BUSY 0)).burnShown b).revokeNext := by
  unfold State.burnDone
  rw [h]

theorem State.burnInto_slot (s : State) (k : Nat) (key : List Word) : s.burnInto (.slot k key) =
    ((List.range 4).foldl (fun (s : State) i => s.otpBurn (4 * k + i) ((key[i]?).getD 0)) s).otpBurn (18 + k) 1 := rfl
theorem State.burnInto_imgauth (s : State) (k : Nat) : s.burnInto (.imgauth k) = (s.otpBurn 27 (BitVec.ofNat 32 (2 ^ 31 + k))).otpBurn 28 1 := rfl
theorem State.burnInto_close (s : State) : s.burnInto .close = s.otpBurn 26 1 := rfl
theorem State.burnInto_revoke (s : State) (m : Nat) : s.burnInto (.revoke m) = s := rfl
theorem State.burnShown_slot (s : State) (k : Nat) (key : List Word) : s.burnShown (.slot k key) =
    (s.onCore (fun c => ((List.range 4).foldl (fun (c : Core) i => c.setFld pgSEC (SEC_KLD_KEY i) 0) c).raise pgSEC 3)).showKey k := rfl
theorem State.burnShown_imgauth (s : State) (k : Nat) : s.burnShown (.imgauth k) = s := rfl
theorem State.burnShown_close (s : State) : s.burnShown .close = s := rfl
theorem State.burnShown_revoke (s : State) (m : Nat) : s.burnShown (.revoke m) = s := rfl

end Sys2Proof.Machine
end

