-- ==== Sys2Proof/Laws/Streams.lean ====
section
/-! SUPPORT. What the operations of telemetry and of the crumb stream can do. -/
namespace Sys2Proof.Machine

/-- A write of TLM_CTRL goes to its two requests (R286, R289). -/
theorem Core.writeTlm_ctrl (c : Core) (w : Word) : c.writeTlm 4 w =
    (if bitOf w 1 then (if bitOf w 0 then c.swapRequest else c).peakClearAll else if bitOf w 0 then c.swapRequest else c) := rfl

/-- The requests of TLM_CTRL read 0 when the register is written back. -/
theorem tlm_ctrl_word (c : Core) (i m : Nat) (hi : i < 2) (hm : m < 2) :
    bitOf (setBits (c.wordOf pgTLM 4) i 1 1) m = decide (m = i) := by
  by_cases h : m = i
  · subst h; rw [bitOf_setBits_one _ _ _ (by omega)]; simp
  · rw [bitOf_setBits_other _ _ _ _ _ (by omega) (by omega), bitOf_wordOf _ _ _ (show kindOf pgTLM = some .tlm from rfl),
      (by decide +kernel : ∀ m < 2, ((fieldsAt PageKind.tlm 4).any fun f => f.acc = Access.w1s && f.lo ≤ m && m < f.lo + f.len) = true) m hm]
    simp [h]

theorem State.tlmCtrl_swap {s : State} (h : s.serviceRuns = true) : s.fieldWrite pgTLM TLM_CTRL_SWAP 1 = s.wrote s.core.swapRequest := by
  refine State.fieldWrite_ctrl h (by decide) rfl (by decide) ?_
  show ({ s with core := s.core.writeTlm 4 (setBits (s.core.wordOf pgTLM 4) 0 1 1) } : State) = _
  rw [Core.writeTlm_ctrl, tlm_ctrl_word _ _ _ (by decide) (by decide), tlm_ctrl_word _ _ _ (by decide) (by decide)]; rfl

theorem State.tlmCtrl_peaks {s : State} (h : s.serviceRuns = true) : s.fieldWrite pgTLM TLM_CTRL_PKCALL 1 = s.wrote s.core.peakClearAll := by
  refine State.fieldWrite_ctrl h (by decide) rfl (by decide) ?_
  show ({ s with core := s.core.writeTlm 4 (setBits (s.core.wordOf pgTLM 4) 1 1 1) } : State) = _
  rw [Core.writeTlm_ctrl, tlm_ctrl_word _ _ _ (by decide) (by decide), tlm_ctrl_word _ _ _ (by decide) (by decide)]; rfl

theorem State.tlmPeak_clear {s : State} (h : s.serviceRuns = true) : s.fieldWrite pgTLM TLM_PKCTL_CLR 1 = s.wrote s.core.peakClear := by
  refine State.fieldWrite_core h (by decide) (.inl (by decide)) ?_
  show ({ s with core := if bitOf (setBits (s.core.wordOf pgTLM 0x3C) 0 1 1) 0 then s.core.peakClear else s.core } : State) = _
  rw [bitOf_setBits_one _ _ _ (by decide)]; rfl

/-- A crumb without a stamp enters the packer (R290, R297). -/
theorem Core.merge_plain (c : Core) {p : Nat} {x : Crumb} {t : List Crumb} (h1 : c.crb.merge = []) (h2 : c.crb.closing = false)
    (h3 : c.nextProducer = some (p, x, t)) (h4 : x.at_ = none) :
    c.mergeNext =
      (let d := ({ c with crb := { c.crb with queues := vmod c.crb.queues p (fun _ => t) } } : Core).incSat pgCRB CRB_LOST_COUNT x.lost
       (d.packBytes ((if x.lost = 0 then [] else crumbBytes 7 0xFF (BitVec.ofNat 8 p :: toLeBytes 2 (min 0xFFFF x.lost))) ++
         crumbBytes x.ty p x.payload)).judgeLevel d.crb.fifo.length) := by
  unfold Core.mergeNext
  rw [if_neg (by rw [h1, h2]; decide), h3]
  dsimp only
  rw [h4]

/-- A stamped crumb enters the packer, behind a TIME crumb where the base does not cover it (R290, R292, R297). -/
theorem Core.merge_stamped (c : Core) {p : Nat} {x : Crumb} {t : List Crumb} {tm : Nat} (h1 : c.crb.merge = []) (h2 : c.crb.closing = false)
    (h3 : c.nextProducer = some (p, x, t)) (h4 : x.at_ = some tm) :
    c.mergeNext =
      (let d := ({ c with crb := { c.crb with queues := vmod c.crb.queues p (fun _ => t) } } : Core).incSat pgCRB CRB_LOST_COUNT x.lost
       let base := if d.needsTime tm then tm / 64 else d.crb.base.getD 0
       let e : Core := { d with crb := { d.crb with base := some base } }
       (e.packBytes ((if x.lost = 0 then [] else crumbBytes 7 0xFF (BitVec.ofNat 8 p :: toLeBytes 2 (min 0xFFFF x.lost))) ++
         (if d.needsTime tm then timeBytes base else []) ++ crumbBytes x.ty p (x.payload ++ toLeBytes 2 (tm / 64 - base)))).judgeLevel
           e.crb.fifo.length) := by
  unfold Core.mergeNext
  rw [if_neg (by rw [h1, h2]; decide), h3]
  dsimp only
  rw [h4]

/-- PACKT has passed (R294). -/
theorem Core.packTimeout_due (c : Core) (us : Nat) (h1 : c.fld pgCRB CRB_CFG_PACKT ≠ 0) (h2 : c.fld pgCRB CRB_CFG_PACKT ≤ us)
    (h3 : c.crb.openw ≠ []) (h4 : c.crb.closing = false) : c.packTimeout us = c.closeWord.judgeLevel c.crb.fifo.length := by
  unfold Core.packTimeout
  exact if_pos (by rw [h4, decide_eq_true h1, decide_eq_true h2, decide_eq_true h3]; rfl)

/-- A word closes into the FIFO (R294, R295). -/
theorem Core.closeWord_room (c : Core) (h1 : c.crb.openw ≠ []) (h2 : c.crb.fifo.length < 1024) :
    c.closeWord = ({ c with crb := { c.crb with openw := [], closing := false } } : Core).pushWord (packWord c.crb.openw) := by
  unfold Core.closeWord
  exact (if_neg h1).trans (if_pos h2)

theorem Core.writeCrb_ctrl (c : Core) (w : Word) : c.writeCrb 4 w = if bitOf w 0 then c.crumbFlush else c := rfl

theorem State.writePage_crb (s : State) (off : Nat) (w : Word) : s.writePage pgCRB off w = { s with core := s.core.writeCrb off w } := rfl

theorem State.crbCtrl_flush {s : State} (h : s.serviceRuns = true) : s.fieldWrite pgCRB CRB_CTRL_FLUSH 1 = s.wrote s.core.crumbFlush := by
  refine State.fieldWrite_ctrl h (by decide) rfl (by decide) ?_
  have e : bitOf (setBits (s.core.wordOf pgCRB 4) 0 1 1) 0 = true := by rw [bitOf_setBits_one _ _ _ (by decide)]; rfl
  have e2 : s.core.writeCrb 4 (setBits (s.core.wordOf pgCRB 4) 0 1 1) = s.core.crumbFlush := by
    rw [Core.writeCrb_ctrl, e]; exact if_pos rfl
  rw [← e2, ← State.writePage_crb]; rfl

/-- A flush with nothing in the merge stage (R298). -/
theorem Core.flush_empty (c : Core) (h : c.crb.merge = []) :
    c.crumbFlush =
      (let words := c.crb.fifo.length + b2n c.crb.closing
       let d : Core := { c with crb := { c.crb with
          fifo := [], rp := c.crb.wp, openw := [], closing := false, base := none
          merge := crumbBytes 8 0xFF [0#8, 0xFF#8, BitVec.ofNat 8 words, BitVec.ofNat 8 (words / 256)] } }
       let d := ((d.setFld pgCRB CRB_LASTFL_PART 0xFF).setFld pgCRB CRB_LASTFL_WORDS words).incSat pgCRB CRB_LOST_FLWORDS words
       d.syncFull.raise pgCRB 3) := by
  have hc : c.flushCuts = false := by unfold Core.flushCuts; rw [h]
  have b0 : b2n false = 0 := rfl
  unfold Core.crumbFlush
  rw [hc, h]
  simp only [Bool.false_eq_true, if_false, if_true, List.length_nil, flushesAhead, List.take_nil, List.drop_nil, List.nil_append, List.append_nil,
    List.any_nil, decide_true, Bool.true_or, b0]

/-- CRB_FLUSH beside no push and no stream slot (R298). -/
theorem State.crbFlush_plain {s : State} (h : s.serviceRuns = true) :
    execCrbFlush false false s = .next (s.wrote s.core.crumbFlush) := by
  unfold execCrbFlush
  rw [← State.crbCtrl_flush h]; rfl

/-- CRB_FLUSH at the instant of a push (R299). -/
theorem State.crbFlush_push {s : State} (h : s.serviceRuns = true) (h1 : s.core.crb.merge = []) (h2 : s.core.crb.openw ≠ [])
    (h3 : s.core.crb.closing = false) :
    execCrbFlush true false s =
      .next (((s.wrote s.core.crumbFlush).onCore (fun c => (c.pushWord (packWord s.core.crb.openw)).judgeLevel 0)).rest) := by
  have hc : s.core.flushCuts = false := by unfold Core.flushCuts; rw [h1]
  have hw : s.core.pushedAtFlush = some (packWord s.core.crb.openw) := by
    unfold Core.pushedAtFlush
    exact if_neg (by rw [hc, h3, decide_eq_false h2]; decide)
  unfold execCrbFlush
  rw [← State.crbCtrl_flush h, h, hw]; rfl

/-- A REQ whose pointers do not fit the FIFO (R303). -/
theorem Core.takeReq_unfit (c : Core) (src rp fp nmax : Nat) (h1 : c.drained = true)
    (h2 : c.crb.fifo.length < ptrDist c.crb.rp rp ∨ c.crb.fifo.length < ptrDist c.crb.rp fp ∨
      c.crb.fifo.length - ptrDist c.crb.rp rp < ptrDist rp fp) : c.takeReq src rp fp nmax = c.sendResync src := by
  unfold Core.takeReq
  refine (if_neg (by rw [h1]; decide)).trans (if_pos ?_)
  simpa [or_assoc] using h2

/-- A REQ that fits (R303). -/
theorem Core.takeReq_fits (c : Core) (src rp fp nmax : Nat) (h1 : c.drained = true) (h2 : ptrDist c.crb.rp rp ≤ c.crb.fifo.length)
    (h3 : ptrDist c.crb.rp fp ≤ c.crb.fifo.length)
    (h4 : ptrDist rp fp ≤ c.crb.fifo.length - ptrDist c.crb.rp rp) :
    c.takeReq src rp fp nmax =
      (let d := ((({ c with crb := { c.crb with fifo := c.crb.fifo.drop (ptrDist c.crb.rp rp), rp := rp } } : Core).syncFull).moveOn).judgeLevel
         c.crb.fifo.length
       let l := (d.crb.fifo.drop (ptrDist rp fp)).take (min 14 nmax)
       d.sendMsg src (.crbData d.crb.wp fp l)) := by
  unfold Core.takeReq
  refine (if_neg (by rw [h1]; decide)).trans (if_neg ?_)
  simp only [Bool.or_eq_true, decide_eq_true_eq]
  omega

/-- A DATA frame that fits (R305). -/
theorem Core.takeData_fits (c : Core) (src wp fp : Nat) (words : List Word) (h1 : c.drains = true)
    (h2 : src = c.fld pgCRB CRB_RSEL_ID ∧ c.crb.syncWait = false ∧ fp = c.crb.rfp ∧ words.length + c.crb.rbuf.length ≤ 64) :
    c.takeData src wp fp words = ({ c with crb := { c.crb with
      rbuf := c.crb.rbuf ++ words, rfp := (c.crb.rfp + words.length) % 2048, reqWait := false } } : Core).setFld pgCRB CRB_RPTR_WPLAST wp := by
  unfold Core.takeData
  refine (if_neg (by rw [h1]; decide)).trans (if_pos ?_)
  simpa [and_assoc] using h2

/-- A DATA frame that does not fit is counted (R305). -/
theorem Core.takeData_unfit (c : Core) (src wp fp : Nat) (words : List Word) (h1 : c.drains = true)
    (h2 : ¬ (src = c.fld pgCRB CRB_RSEL_ID ∧ c.crb.syncWait = false ∧ fp = c.crb.rfp ∧ words.length + c.crb.rbuf.length ≤ 64)) :
    c.takeData src wp fp words = c.incSat pgCRB CRB_RSTAT_DUPS 1 := by
  unfold Core.takeData
  refine (if_neg (by rw [h1]; decide)).trans (if_neg ?_)
  simpa [and_assoc] using h2

/-- A request that is due leaves (R304, R305). -/
theorem Core.drainRequest_due (c : Core) (us : Nat) (h1 : c.drains = true) (h2 : c.rstate = 4) (h3 : c.fld pgCRB CRB_RSEL_ID ≠ 0)
    (h4 : c.crb.reqWait = false) (h5 : c.crb.syncWait = false) (h6 : c.crb.rbuf.length < 64)
    (h7 : (c.crb.rbuf.length ≤ 50 ∧ c.fld pgCRB CRB_RPTR_WPLAST ≠ c.crb.rfp) ∨ zeroAsOne (c.fld pgCRB CRB_RCFG_RPOLL) ≤ us) :
    c.drainRequest us = c.sendReq := by
  unfold Core.drainRequest
  refine (if_neg ?_).trans (if_pos ?_)
  · rw [h1, h2, h4, h5, decide_eq_false h3, decide_eq_false (show ¬ 64 - c.crb.rbuf.length = 0 by omega)]; decide
  · rcases h7 with ⟨h, h'⟩ | h
    · rw [decide_eq_true (show 14 ≤ 64 - c.crb.rbuf.length by omega), decide_eq_true h']; rfl
    · rw [decide_eq_true h, Bool.or_true]

/-- A SYNC without an answer is sent again (R306). -/
theorem Core.drainTimeout_sync (c : Core) (us : Nat) (h1 : c.drains = true) (h2 : zeroAsOne (c.fld pgCRB CRB_RCFG_RTMO) ≤ us) (h3 : c.crb.syncWait = true) :
    c.drainTimeout us = ((c.incSat pgCRB CRB_RSTAT_RETRY 1).raise pgCRB 5).sendSync := by
  unfold Core.drainTimeout
  exact (if_neg (by rw [h1, h3, decide_eq_false (Nat.not_lt.mpr h2)]; simp)).trans (if_pos (by simpa using h3))

/-- A request without an answer is sent again (R306). -/
theorem Core.drainTimeout_req (c : Core) (us : Nat) (h1 : c.drains = true) (h2 : zeroAsOne (c.fld pgCRB CRB_RCFG_RTMO) ≤ us) (h3 : c.crb.syncWait = false)
    (h4 : c.crb.reqWait = true) : c.drainTimeout us = ((c.incSat pgCRB CRB_RSTAT_RETRY 1).raise pgCRB 5).sendReq := by
  unfold Core.drainTimeout
  exact (if_neg (by rw [h1, h4, decide_eq_false (Nat.not_lt.mpr h2)]; simp)).trans (if_neg (by simpa using h3))

end Sys2Proof.Machine
end

