-- ==== Sys2Proof/Tests/Slice0.lean ====
section
/-! SUPPORT. Tests: ill-formed commands, the manual's worked examples, single steps, and for every statement with hypotheses
states and operands that meet them. -/
namespace Sys2Proof.Tests
open Sys2Proof Sys2Proof.Machine
set_option maxRecDepth 20000
set_option Elab.async false

/-! ## Small states -/

/-- The device in RUN with every path open. -/
def up : State := { State.reset with pw := { State.reset.pw with pstate := .run, phase := 5, inReset := false } }
/-- A device on the ring with an ID and a ring state, and a master where asked. -/
def ringAt (id st mstr : Nat) : Core :=
  (((up.core.setFld pgLNK LNK_CTRL_EN 1).setFld pgLNK LNK_ID_DEVID id).setFld pgLNK LNK_ID_RSTATE st).setFld pgHST HST_STRAP_MSTR mstr
/-- The same with its inputs decoded. -/
def linked (id st mstr : Nat) : Core :=
  let c := ringAt id st mstr
  { c with lnk := { c.lnk with locked := true } }
/-- Bus 1 up with one requester in context 63. -/
def busOne : Core :=
  ((((up.core.modBus 1 (fun x => { x with up := true })).modCtx 63 (fun _ => { st := 1, bus := 1, da := 8, pid := 5 })).setFld pgHST
    (HST_I3CCFG_HJEN 1) 1).setFld pgHST (HST_I3CCFG_IBIEN 1) 1)
/-- Tag 127 holds an item of context 63 that may be applied. -/
def itemOf (opc arg0 : Nat) : Core := busOne.modItem 127 (fun _ => { phase := 2, ctx := 63, bus := 1, da := 8, opc := opc, rail := 7, arg0 := arg0, arg1 := 4 })
def railIn (c : Core) (st : RState) : Core := c.modRail 7 (fun r => { r with rstate := st })

/-! ## The commands' operands (WellFormed): one ill-formed term for each check -/

theorem test_wf_refuses :
    (Instr.regWrite .spi 0x100 0 0).wellFormed = false ∧ (Instr.regWrite .spi 0x10 0x100 0).wellFormed = false ∧
    (Instr.regWrite .spi 0x10 0x22 0).wellFormed = false ∧ (Instr.stkyClear 0x100 0 0 0).wellFormed = false ∧
    (Instr.evcClear 0x100 0).wellFormed = false ∧ (Instr.frcForce 0x100 0).wellFormed = false ∧
    (Instr.lockWrite 0x100 0).wellFormed = false ∧ (Instr.pageReset 0x100).wellFormed = false ∧
    (Instr.regacc true 0x10 0x01 0).wellFormed = false ∧ (Instr.regacc false 0x100 0 0).wellFormed = false := by decide
theorem test_wf_takes : (Instr.regWrite .smb 0xFF 0xFC 0).wellFormed = true ∧ (Instr.pageReset 0x48).wellFormed = true ∧
    (Instr.regacc true 0 0 0).wellFormed = true ∧ Instr.tapReset.wellFormed = true := by decide

/-! ## The manual's worked examples -/

/-- The CRC bytes of the read of V0_TARGET (worked example under R45). -/
theorem test_crc_v0_target : crc8 [0x00, 0x10, 0x24] = 0x83 ∧ crc8 [0x00, 0x18, 0x06, 0x00, 0x00] = 0xDB := by decide +kernel
/-- The CRC byte of the worked item of R149. -/
theorem test_crc_item : crc8 [0x40, 0x01, 0x21, 0x00, 0xA4, 0x06, 0x10, 0x00, 0, 0, 0, 0, 0, 0, 0] = 0xA0 := by decide +kernel
/-- V0 with its target code of 780.0 mV. -/
def target780 : State := { up with core := up.core.setFld 0x10 V_TARGET_CODE 0x618 }
/-- The whole frame of that example: two wait bytes, STATUS, the word and RCRC. -/
theorem test_spi_read_v0_target : (match exec (.spiReadSingle 0x00 0x10 0x24 0x83 2) target780 with
    | .next s => s.core.hst.miso | _ => []) = [0xFF, 0xFF, 0x00, 0x18, 0x06, 0x00, 0x00, 0xDB] := by decide +kernel
/-- A header whose CRC is wrong is answered with STATUS, its bit 6 set, and 0x00 in the slots of the word and its CRC (R39, R40). -/
theorem test_spi_read_bad_header : (match exec (.spiReadSingle 0x00 0x10 0x24 0x84 2) target780 with
    | .next s => s.core.hst.miso | _ => []) = [0x40, 0, 0, 0, 0, 0] := by decide +kernel
/-- LINEAR11 of 1,120.5 A (R54). -/
theorem test_lin11_example : lin11 (1120 + 1 / 2) (-6) = 0x0A30 := by decide +kernel
/-- The two coded messages of R328. -/
theorem test_message_examples : mkMsg 0x10 0 0x5001 = 0x10014007 ∧ mkMsg 0x07 2 0xF000 = 0x070BC003 := by decide +kernel
/-- MFR_MODEL reads "VYH2408" as a block (R52). -/
theorem test_mfr_model : (match exec (.mfrModel (.read false)) up with | .next s => s.core.hst.smb | _ => []) =
    [7, 0x56, 0x59, 0x48, 0x32, 0x34, 0x30, 0x38] := by decide +kernel
/-- AES-CMAC against example 1 of RFC 4493 (R174): the tag of the empty message. -/
theorem test_cmac_empty : cmac [0x2b, 0x7e, 0x15, 0x16, 0x28, 0xae, 0xd2, 0xa6, 0xab, 0xf7, 0x15, 0x88, 0x09, 0xcf, 0x4f, 0x3c] [] =
    [0xbb, 0x1d, 0x69, 0x29, 0xe9, 0x59, 0x37, 0x28, 0x7f, 0xa3, 0x7d, 0x12, 0x9b, 0x75, 0x67, 0x46] := by decide +kernel

/-! ## One step at a time -/

/-- V0_TARGET takes a write through SPI (R98). -/
theorem test_regwrite_target : (match exec (.regWrite .spi 0x10 0x24 0x6A4) up with
    | .next s => s.core.fld 0x10 V_TARGET_CODE | _ => 0) = 0x6A4 := by decide +kernel
/-- A write of 1 to a lock group closes it, a write of 0 does not reopen it (R29). -/
theorem test_lock_stays : (match exec (.lockWrite 0x10 0) { up with core := up.core.setReg 0x10 0x18 1 } with
    | .next s => s.core.reg 0x10 0x18 | _ => 0) = 1 := by decide +kernel
/-- A field of a closed group keeps its value (R10, R29). -/
theorem test_locked_field : (match exec (.regWrite .spi 0x10 0x28 0x190) { up with core := up.core.setReg 0x10 0x18 3 } with
    | .next s => s.core.fld 0x10 V_VMAX_CODE | _ => 0) = V_VMAX_CODE.rst := by decide +kernel
/-- STKY is cleared by writing 1, and only where a 1 is written (R26). -/
theorem test_stky_clear : (match exec (.stkyClear 0x10 0x0C 1 0) { up with core := up.core.setReg 0x10 0x0C 3 } with
    | .next s => s.core.reg 0x10 0x0C | _ => 0) = 2 := by decide +kernel
/-- OPERATION of 0x80 enables the rail that PAGE names (R52). -/
theorem test_operation_on : (match exec (.operationOn (.write [0x80] .absent)) up with
    | .next s => s.core.flag 0x10 V_CTRL_EN | _ => false) = true := by decide +kernel
/-- A PMBus write whose PEC is wrong is discarded and counted (R50). -/
theorem test_bad_pec : (match exec (.voutCommand (.write [0x18, 0x06] .bad)) up with
    | .next s => (s.core.fld 0x10 V_TARGET_CODE, s.core.fld pgHST HST_SMBCNT_PECCNT) | _ => (0, 0)) =
    (V_TARGET_CODE.rst, 1) := by decide +kernel
/-- An unsupported code is marked in bit 7 of STATUS_CML (R57). -/
theorem test_unsupported : (match exec (.pmbusUnsupported 0xEE (some 2)) up with
    | .next s => (s.core.hst.smb, s.core.reg pgHST 0x3C) | _ => ([], 0)) = ([0xFF, 0xFF], 0x80) := by decide +kernel
/-- IDCODE is 0x124089EF, shifted out least significant byte first (R443). -/
theorem test_idcode : (match exec .idcode up with | .next s => s.core.hst.jtag | _ => []) = [0xEF, 0x89, 0x40, 0x12] := by decide +kernel
/-- An empty queue leaves a parked device as it is (log 2). -/
theorem test_idle_parked : step State.reset = .next State.reset := rfl
/-- No word spells a command: the table gives its rows no bits. -/
theorem test_no_words : decodeTableWord 16 0 = none ∧ (State.reset.withFetchWord 16 0) = State.reset := by decide +kernel
/-- A strap whose samples fall in two bands is read as the lower level and is ambiguous (R468). -/
theorem test_strap : strapRead ⟨#[330, 330, 330, 100, 330, 330, 330, 330], rfl⟩ = (0, true) ∧
    strapRead (Vector.replicate 8 700) = (2, false) := by decide +kernel
/-- In PARKED MAINEN is low and WAKE is watched; a running device drives MAINEN high (R420). -/
theorem test_pins : State.reset.pin .mainen = .low ∧ State.reset.pin .wake = .watched ∧ up.pin .mainen = .high := by decide +kernel

/-! ## The hypotheses of the statements can be met -/

/-! StepRunsTheFrontCommand -/

theorem witness_StepRunsTheFrontCommand : ({ up with pending := [.tapReset] } : State).pending = .tapReset :: [] := rfl

/-! IdleStepPassesOnePeriod -/

theorem witness_IdleStep_parked : State.reset.pending = [] ∧ State.reset.alive = false := by decide +kernel
theorem witness_IdleStep_running : up.pending = [] ∧ up.alive = true := by decide +kernel

/-! EveryWellFormedCommandCompletes -/

theorem witness_EveryWellFormed_ok : (Instr.regWrite .spi 0xFF 0xFC 0).wellFormed = true := by decide
theorem witness_EveryWellFormed_ill : (Instr.regWrite .spi 0x10 0x102 0).wellFormed = false := by decide

/-! CommandsKeepTheQueue -/

theorem witness_CommandsKeepTheQueue : ∃ t, exec .tapReset up = .next t := ⟨_, rfl⟩

/-! BurnedOtpBitsStayBurned -/

theorem witness_BurnedOtp : ∃ t, step up = .next t := ⟨_, rfl⟩

/-! FlashStaysCanonical -/

theorem witness_FlashStaysCanonical : up.st.flashWf = true ∧ ∃ t, step up = .next t := ⟨by decide, _, rfl⟩

/-! GraveLatchSurvivesCommands -/

theorem witness_GraveLatchSurvives : ofSupply .rstNRelease = false ∧ ∃ t, exec .rstNRelease { up with pw := { up.pw with graveV := true } } = .next t := ⟨rfl, _, rfl⟩

/-! RegisterFieldsReadBack -/

theorem witness_RegisterFieldsReadBack : kindOf 0x48 = some .orp ∧ ORP_CNT_COUNT ∈ fieldsOf .orp ∧ ORP_POP_POP ∈ fieldsOf .orp ∧
    ORP_POP_POP ≠ ORP_CNT_COUNT ∧ kindOf 0 = some .dev ∧ DEV_PSTATE_STATE ∈ fieldsOf .dev := by decide

/-! WritesReachTheOpenFields -/

theorem witness_WritesReach_rw : kindOf (pgV 7) = some .v ∧ V_TARGET_CODE ∈ fieldsOf .v ∧ V_TARGET_CODE.off = 0x24 := by decide
theorem witness_WritesReach_rwl : kindOf pgTHM = some .thm ∧ THM_OTL_OT 0 ∈ fieldsOf .thm ∧ (THM_OTL_OT 0).acc = .rwl 1 := by decide

/-! PageResetReturnsFields -/

theorem witness_PageReset : kindOf (pgP 23) = some .p ∧ P_TON_LAST ∈ fieldsOf .p := by decide

/-! StickyBitsAndEventCounts -/

theorem witness_StickyBits_clear : up.core.stky (pgV 7) 31 = false ∧ up.core.stat (pgV 7) 31 = false := by decide +kernel
theorem witness_StickyBits_set : ((up.core.setLevel (pgV 0) 0 true).stky (pgV 0) 0 = true ∧ (up.core.setLevel (pgV 0) 0 true).stat (pgV 0) 0 = true) := by decide +kernel

/-! HeadRegisterWrites -/

theorem witness_HeadWrites : up.serviceRuns = true ∧ kindOf 0x48 = some .orp ∧ 0x48 ≠ pgTRP ∧ bitOf (up.core.reg 0x48 0x18) 4 = false ∧
    addrOk pgFLT 0x2C = true ∧ addrOk pgTHM 0xFC = true ∧ addrOk 0x49 0xFC = true ∧ kindOf 0x49 = none := by decide +kernel
theorem witness_HeadWrites_locked : let s : State := { up with core := up.core.setReg 0 0x18 0x10 }
    s.serviceRuns = true ∧ kindOf 0 = some .dev ∧ bitOf (s.core.reg 0 0x18) 4 = true := by decide +kernel

/-! PageResetCommands -/

theorem witness_PageResets : up.serviceRuns = true ∧ kindOf 0x43 = some .ctx ∧ kindOf 0x47 = some .tag ∧
    (up.core.modBus 1 (fun x => { x with reading := some (0, 8, false) })).readsOn ≠ 0 ∧ up.core.readsOn = 0 ∧ up.core.hst.stream = none ∧ up.core.hst.swrstDue = false := by decide +kernel

/-! SpiReadFrames -/

theorem witness_SpiReads_single : up.regOpen = true ∧ up.core.hst.stream = none ∧ frameBad 0x00 0xFC = false ∧ cmdWr 0x00 = false ∧
    (kindOf (0x48#8).toNat).isSome = true ∧ cmdMode 0x00 = 0 := by decide +kernel
theorem witness_SpiReads_burst : frameBad 0x3F 0x80 = false ∧ cmdWr 0x3F = false ∧ cmdMode 0x3F = 1 := by decide +kernel
theorem witness_SpiReads_stream : frameBad 0x40 0x24 = false ∧ cmdWr 0x40 = false ∧ cmdMode 0x40 = 2 ∧ cmdCnt 0x40 = 0 ∧
    up.core.streamPort 0x05 0x24 = some false ∧ up.core.streamPort 0x05 0x28 ≠ some false := by decide +kernel

/-! SpiFramesRefusedAbortedOrWaiting -/

theorem witness_SpiRefused : up.regOpen = true ∧ up.core.hst.stream = none ∧ crc8 [0x00, 0x10, 0x24] ≠ 0x00 ∧ frameBad 0x00 0x24 = false ∧
    frameBad 0x60 0x24 = true ∧ frameBad 0x00 0x22 = true ∧ ([0x00#8, 0x10#8, 0x24#8] : List Byte).length < 4 := by decide +kernel
/-- The crumb stream's port waits in the last slot of a frame. -/
def waiting : State := { up with core := { up.core with hst := { up.core.hst with stream := some ⟨pgCRB, 0x24, 1⟩ } } }
theorem witness_SpiSlot_empty : waiting.regOpen = true ∧ waiting.core.streamPort pgCRB 0x24 = some false ∧ waiting.core.waitMax = 64 := by decide +kernel
theorem witness_SpiSlot_item : let s : State := { waiting with core := { waiting.core with crb := { waiting.core.crb with fifo := [0] } } }
    s.core.streamPort pgCRB 0x24 = some true := by decide +kernel

/-! SpiWriteFrames -/

theorem witness_SpiWrites_single : up.regOpen = true ∧ up.core.hst.stream = none ∧ frameBad 0x80 0xFC = false ∧ cmdWr 0x80 = true ∧
    (kindOf (0x10#8).toNat).isSome = true ∧ cmdMode 0x80 = 0 ∧ ([0, 0, 0, 0] : List Byte).length = 4 * (cmdCnt 0x80 + 1) := by decide +kernel
theorem witness_SpiWrites_burst : frameBad 0xA1 0x24 = false ∧ cmdWr 0xA1 = true ∧ cmdMode 0xA1 = 1 ∧
    ([0, 0, 0, 0, 0, 0, 0, 0] : List Byte).length = 4 * (cmdCnt 0xA1 + 1) ∧
    (up.spiEnd (waitBytes 9 ++ [0, 0]) false).regOpen = true ∧ crc8 [0, 0, 0, 0, 0, 0, 0, 0] ≠ 0 := by decide +kernel

/-! PmbusReadCommands -/

theorem witness_PmbusReads_rail : up.serviceRuns = true ∧ up.core.fld pgHST HST_PMBPAGE_PAGE = 0 := by decide +kernel
theorem witness_PmbusReads_all : let s : State := { up with core := up.core.setFld pgHST HST_PMBPAGE_PAGE 0xFF }
    s.serviceRuns = true ∧ s.core.fld pgHST HST_PMBPAGE_PAGE = 0xFF := by decide +kernel

/-! PmbusWriteCommands -/

theorem witness_PmbusWrites : up.serviceRuns = true ∧ up.core.pecBad .absent = false ∧ up.core.fld pgHST HST_SMBCFG_WPROT = 0 ∧
    up.core.fld pgHST HST_PMBPAGE_PAGE = (0 : Fin 8) ∧ 400 ≤ (3600#16).toNat ∧ (3600#16).toNat ≤ 3600 ∧ (399#16).toNat < 400 ∧
    1 / 2 ≤ linVal (0x0050#16).toNat ∧ linVal (0x0050#16).toNat ≤ 80 := by decide +kernel
theorem witness_PmbusWrites_locked : let s : State := { up with core := up.core.setReg pgCMP 0x18 0x1F }
    s.serviceRuns = true ∧ s.core.locked pgCMP (CMP_THR_LO0 (0 / 2)) = true := by decide +kernel
theorem witness_PmbusWrites_vout : up.core.locked pgCMP (CMP_THR_LO0 (0 / 2)) = false ∧
    (let w := setBits (up.core.reg pgCMP 0x20) 8 8 (roundDiv (3600#16).toNat 16).toNat
     ((up.answered []).hostWrite .smb pgCMP 0x20 w).core.reg pgCMP 0x20 = w) := by decide +kernel
theorem witness_PmbusWrites_vin : up.core.vinsel 0 = 0 ∧ up.core.locked pgCMP (CMP_THR_LO0 (32 / 2)) = false ∧
    (let w := setBits (up.core.reg pgCMP 0x60) 8 8 250
     ((up.answered []).hostWrite .smb pgCMP 0x60 w).core.reg pgCMP 0x60 = w) := by decide +kernel

/-! SmbusCommandsAndWindow -/

theorem witness_Smbus : up.serviceRuns = true ∧ up.core.flag pgHST HST_SMBCFG_TOEN = true ∧ up.core.flag pgHST HST_SMBCFG_ARAEN = true ∧
    up.alertPin = false ∧ pmCodes.contains (0xFF#8).toNat = false ∧ up.core.pecBad .good = false ∧
    up.core.fld pgHST HST_SMBCFG_WPROT = 0 ∧ ([0, 0, 0] : List Byte).length ≠ 4 := by decide +kernel
theorem witness_Smbus_off : let s : State := { up with core := (up.core.setFld pgHST HST_SMBCFG_TOEN 0).setFld pgHST HST_SMBCFG_WPROT 3 }
    s.serviceRuns = true ∧ s.core.flag pgHST HST_SMBCFG_TOEN = false ∧ s.core.fld pgHST HST_SMBCFG_WPROT ∈ [1, 2, 3] := by decide +kernel
theorem witness_Smbus_alert : let s : State := { up with core := (up.core.setReg pgHST 0x10 0x3FF).raise pgHST 0 }
    s.serviceRuns = true ∧ s.core.flag pgHST HST_SMBCFG_ARAEN = true ∧ s.alertPin = true := by decide +kernel

/-! ReadsWithASideEffect -/

theorem witness_Reads : up.serviceRuns = true ∧ up.core.crb.rbuf = [] ∧ kindOf 0x3A = none ∧ kindOf 0xFF = none := by decide +kernel
theorem witness_Reads_streams : let s : State := { up with core := { up.core with crb := { up.core.crb with fifo := [0], rbuf := [0] } } }
    s.serviceRuns = true ∧ s.core.crb.rbuf = 0 :: [] ∧ s.core.crumbClosed = false ∧ s.core.crb.fifo ≠ [] := by decide +kernel

/-! RailEnableAndTurnOff -/

theorem witness_RailEnable : up.serviceRuns = true ∧ up.core.flag pgTRP (TRP_RST_HICW 7) = false ∧ up.core.flag (pgV 7) V_CTRL_EN = false ∧
    (up.core.rail 7).rstate = .off := by decide +kernel
theorem witness_RailEnable_states (st : RState) : let c := (up.core.modRail 7 (fun r => { r with rstate := st })).setFld (pgV 7) V_CTRL_EN 1
    (c.rail 7).rstate = st ∧ c.flag (pgV 7) V_CTRL_EN = true ∧ c.flag pgTRP (TRP_RST_HICW 7) = false := by
  cases st <;> decide +kernel

/-! ProofRampAndPowerGood -/

theorem witness_Ramp_checks : let c := up.core.modRail 7 (fun r => { r with rstate := .precheck, preStage := 1 })
    up.controlRuns = true ∧ (c.rail 7).rstate = .precheck ∧ (c.rail 7).preStage = 1 ∧ c.precheckFails 7 ≠ 0 := by decide +kernel
theorem witness_Ramp_passes : let c := { up.core.modRail 7 (fun r => { r with rstate := .precheck, preStage := 1 }) with
      prot := { up.core.prot with lo := 0 } }
    (c.rail 7).rstate = .precheck ∧ c.precheckFails 7 = 0 := by decide +kernel
theorem witness_Ramp_search : let c := up.core.modRail 7 (fun r => { r with rstate := .precheck, preStage := 2, pbCount := 96 })
    (c.rail 7).rstate = .precheck ∧ (c.rail 7).preStage = 2 ∧ 96 ≤ (c.rail 7).pbCount := by decide +kernel
theorem witness_Ramp_good : let c := up.core.modRail 7 (fun r => { r with rstate := .hold, preStage := 3 })
    (c.rail 7).rstate = .hold ∧ c.stat (pgV 7) 0 = false ∧ (c.rail 7).sat = false ∧ (c.rail 7).e.natAbs ≤ 128 * c.fld (pgV 7) V_PG_PGWIN ∧
    (c.rail 7).preStage = 3 := by decide +kernel
theorem witness_Ramp_lost : let c := (up.core.modRail 7 (fun r => { r with rstate := .hold, sat := true })).setLevel (pgV 7) 0 true
    (c.rail 7).sat = true ∧ c.stat (pgV 7) 0 = true := by decide +kernel

/-! WindowSampleAndFiring -/

theorem witness_Sample : up.controlRuns = true ∧ up.serviceRuns = true ∧ (up.core.rail 7).rstate.fires = false ∧ (up.core.port 23).pwm ≠ .high ∧
    ((up.core.modRail 7 (fun r => { r with rstate := .hold })).rail 7).rstate.fires = true := by decide +kernel
/-- Rail 7 in HOLD with its one member port P0 ready to fire, and a remote phase. -/
def firing (dev : Nat) : Core := { up.core with prot := { up.core.prot with hi := 0 } }.modRail 7 (fun r => { r with rstate := .hold, order := [{ dev := dev, port := 0, member := true, fresh := true }] })
theorem witness_Firing_local : let c := firing 0
    let x : Slot := { dev := 0, port := 0, member := true, fresh := true }
    let c1 := c.incWrap (pgE (c.railEng 7)) E_FIRES_COUNT 1
    (c.rail 7).order[(c.rail 7).ptr]? = some x ∧ c.mayFire 7 1000 = true ∧ x.turn = true ∧ c.offDone 7 x 1000 = true ∧
    c1.crowHeld 7 = false ∧ c1.tripped 7 = false ∧ c1.limitHi 0 = false := by decide +kernel
theorem witness_Firing_limit : let c := { firing 0 with prot := { (firing 0).prot with hi := ~~~ 0 } }
    let c1 := c.incWrap (pgE (c.railEng 7)) E_FIRES_COUNT 1
    c.mayFire 7 1000 = true ∧ c1.crowHeld 7 = false ∧ c1.tripped 7 = false ∧ c1.limitHi 0 = true := by decide +kernel
theorem witness_Firing_crow : let c := (firing 0).raise pgTRP 23
    let c1 := c.incWrap (pgE (c.railEng 7)) E_FIRES_COUNT 1
    c.mayFire 7 1000 = true ∧ c1.crowHeld 7 = true := by decide +kernel
theorem witness_Firing_remote : let c := firing 2
    let x : Slot := { dev := 2, port := 0, member := true, fresh := true }
    (c.rail 7).order[(c.rail 7).ptr]? = some x ∧ c.mayFire 7 1000 = true ∧ x.turn = true ∧ c.offDone 7 x 1000 = true := by decide +kernel

/-! DetectorsOfRails -/

theorem witness_Detectors : up.alive = true ∧ up.core.stat (pgV 7) 9 = false ∧ (up.core.prot.stg[2]?).getD false = !true ∧
    (let p : Prot := { up.core.prot with stg := [false, false, true] }; (p.stg[2]?).getD false = !false) := by decide +kernel

/-! EnginesAndCalibration -/

theorem witness_Engines : up.serviceRuns = true ∧ (if up.core.fld pgRPR RPR_SHADOW_ENGINE = 0 then up.core.fld pgRPR RPR_SHADOW_RAIL else up.core.engRail 0) < 8 ∧
    8 ≤ (if up.core.fld pgRPR RPR_SHADOW_ENGINE = 9 then up.core.fld pgRPR RPR_SHADOW_RAIL else up.core.engRail 9) ∧ up.core.engRail 0 ≠ 15 := by decide +kernel
theorem witness_Engines_comp : let c := up.core.modEng 0 (fun e => { e with compNew := true })
    (c.eng 0).compNew = true ∧ c.engRail 0 ≠ 15 ∧ (c.rail (c.engRail 0)).order.all (fun x => c.slotPwm x ≠ .high) = true ∧
    (up.core.eng 0).compNew = false := by decide +kernel
/-- Rail 7 to be taken by engine 9. -/
def taking : Core := { up.core with rpr := { up.core.rpr with takeover := some (7, 9) } }
theorem witness_Engines_takeover : taking.rpr.takeover = some ((7 : Fin 8).val, 9) := by decide +kernel
theorem witness_Engines_retired :
    let c : Core := { up.core with rpr := { up.core.rpr with swapDue := [7] } }
    let d := c.modMap (fun m => { m with engSt := m.engSt.map (fun _ => 2) })
    c.rpr.takeover = none ∧ c.rpr.swapDue.contains (7 : Fin 8).val = true ∧ c.nextSpare = some 8 ∧
    d.rpr.takeover = none ∧ d.rpr.swapDue.contains (7 : Fin 8).val = true ∧ d.nextSpare = none ∧ c.rpr.swapDue.contains (0 : Fin 8).val = false := by decide +kernel
theorem witness_Engines_cal : (up.core.port 23).pwm = .mid ∧ (up.core.port 23).calBusy = false ∧
    (up.core.modPort 23 (fun p => { p with calBusy := true })).port 23 = { up.core.port 23 with calBusy := true } ∧
    ((up.core.setPwm 23 .low).port 23).pwm ≠ .mid := by decide +kernel

/-! AssignmentAndOrders -/

theorem witness_Assign : up.serviceRuns = true ∧ up.core.locked (pgP 23) P_ASSIGN_RAIL = false ∧ (up.core.port 23).pwm = .mid ∧
    up.core.restful (up.core.portRail 23) = true ∧ up.core.restful 7 = true ∧ (7 : Nat) ≠ up.core.portRail 23 ∧
    ((up.core.setPwm 23 .low).port 23).pwm ≠ .mid := by decide +kernel
theorem witness_Assign_same : (if (15 : Nat) % 16 < 8 || (15 : Nat) % 16 = 0xE then (15 : Nat) % 16 else 0xF) = up.core.portRail 23 := by decide +kernel
theorem witness_Assign_locked : (up.core.setReg (pgP 23) 0x18 1).locked (pgP 23) P_ASSIGN_RAIL = true := by decide +kernel
theorem witness_Commit : up.core.orderOk 7 (up.core.staged 7) = true ∧
    (let c := up.core.modRail 7 (fun r => { r with rstate := .hold }); c.orderOk 7 (c.staged 7) = false) := by decide +kernel

/-! IdentificationAndSharing -/

theorem witness_Ident : up.serviceRuns = true ∧ up.core.stat (pgP 23) 3 = false ∧ up.core.lentBound 23 = false ∧
    (up.core.setLevel (pgP 23) 3 true).stat (pgP 23) 3 = true ∧ up.core.lnk.idLent.contains (23 : Fin 24).val = false ∧
    [23].contains (23 : Fin 24).val = true := by decide +kernel
/-- Port P23 of rail 7, whose measurements are complete: a slope of `num` and halves that differ by `dsum`. -/
def identified (sum dsum : Rat) : Core :=
  (({ up.core with lnk := { up.core.lnk with idLent := [] } }.setFld (pgP 23) P_ASSIGN_RAIL 7).modRail 7 (fun r =>
    { r with rstate := .hold, order := [{ dev := 0, port := 23, member := true, ibar := 640 }], vcApplied := 8192000 })).modPort 23 (fun p =>
    { p with fit := { on := true, begun := true, sum := sum, segs := 1, periods := 256 }, ident := { busy := true, dsum := dsum, pairs := 1 } })
theorem witness_Ident_end : let c := identified (-1) 1
    let d := c.modPort 23 (fun p => { p with ident := p.ident.turn c.time.toNat })
    let p := (d.port 23).ident
    c.lnk.idLent.contains 23 = false ∧ p.busy = true ∧ (d.port 23).fit.done = true ∧ p.nrep ≤ p.pairs ∧ (d.slotOf 23).isSome = true := by decide +kernel
theorem witness_Ident_results : let c := identified (-1) 1
    let good := { c with tlm := { c.tlm with vin := #v[24000, 24000] } }
    let r (c : Core) := (c.slotOf 23).map (fun x => c.identResult (c.portRail 23) x (c.port 23).ident (c.port 23).fit.slope)
    r good = some (some 2888, some 960) ∧ r c = some (some 2888, some 0) := by decide +kernel
theorem witness_Ident_remote : let c := up.core.modRail 7 (fun r =>
      { r with rstate := .hold, order := [{ dev := 2, port := 23, member := true, ibar := 640 }], vcApplied := 8192000 })
    let c := { c with tlm := { c.tlm with vin := #v[24000, 24000] }, lnk := { c.lnk with remotes := [{ rail := 7, dev := 2, port := 23, l := 2400, dcr := 300, ident := { busy := true, dsum := 1, pairs := 1, slope := some (-25 / 4) } }] } }
    let d := c.modRemote 7 2 23 (fun y => { y with ident := y.ident.turn c.time.toNat })
    let p := (d.remote 7 2 23).ident
    p.slope = some (-25 / 4) ∧ p.busy = true ∧ p.nrep ≤ p.pairs ∧
    ((d.rail 7).order.find? (fun x => x.dev = 2 && x.port = 23)).map (fun x => (identGood (d.identResult 7 x p (-25 / 4))).isSome) = some true := by decide +kernel
theorem witness_Ident_lent : let c := { identified (-1) 1 with lnk := { up.core.lnk with idLent := [23] } }
    c.lnk.idLent.contains 23 = true ∧ (c.port 23).fit.done = true := by decide +kernel
theorem witness_Ident_bound : let c := (((up.core.setFld pgLNK (LNK_LEND_EN 23) 1).setFld pgLNK (LNK_LEND_BOUND 23) 1).setFld (pgP 23) P_ASSIGN_RAIL 0xE)
    c.stat (pgP 23) 3 = false ∧ c.lentBound 23 = true := by decide +kernel
/-- Port P0 as the one member of rail 7, whose phase carries 10 A more than its share. -/
def sharing : Core :=
  ((up.core.setFld (pgP 0) P_ASSIGN_RAIL 7).modRail 7 (fun r => { r with rstate := .hold, order := [{ dev := 0, port := 0, member := true, ibar := 200 }] }))
theorem witness_Share : sharing.portActive 0 = true ∧ sharing.shareBad 0 = true ∧ sharing.stat (pgP 0) 6 = false := by decide +kernel
theorem witness_Share_end : let c := (sharing.modRail 7 (fun r => { r with order := [] })).setLevel (pgP 0) 6 true
    c.stat (pgP 0) 6 = true ∧ c.shareBad 0 = false := by decide +kernel
/-- Rail 7 at the end of a window. -/
def windowed (order : List Slot) : Core :=
  { up.core with tlm := { up.core.tlm with count := some 16383 } }.modRail 7 (fun r => { r with avgSum := 0, avgCnt := 1, order := order })
theorem witness_Window : let c := windowed []
    let win := 2 ^ min 14 (c.fld (pgV 7) V_SHEDAUTO_AVGK)
    c.tlm.count = some 16383 ∧ 16383 % win = win - 1 ∧ (c.rail 7).avgCnt ≠ 0 ∧
    (let d := (c.modRail 7 (fun r => { r with autoTerm := 0, autoValid := false, autoWhole := true, avgSum := 0, avgCnt := 0 })).retarget 7 false
     (d.rail 7).nact ≤ (d.rail 7).ntarget) := by decide +kernel
theorem witness_Window_shed : let c := (windowed [{ dev := 0, port := 0, member := true }, { dev := 0, port := 1, member := true }]).setFld (pgV 7) V_CTRL_AUTOSHED 1
    let d := (c.modRail 7 (fun r => { r with autoTerm := 0, autoValid := true, autoWhole := true, avgSum := 0, avgCnt := 0 })).retarget 7 false
    (d.rail 7).ntarget < (d.rail 7).nact := by decide +kernel

/-! LoadSideBuses -/

theorem witness_Buses_down : up.serviceRuns = true ∧ up.core.cmd.resetDue = false ∧ busOne.cmd.resetDue = false ∧ (up.core.bus 1).up = false ∧ (up.core.bus 1).reading = none ∧
    (up.core.setFld pgHST (HST_I3CCFG_EN 1) 1).flag pgHST (HST_I3CCFG_EN 1) = true ∧
    ((up.core.modBus 1 (fun x => { x with reading := some (0, 8, false) })).bus 1).reading.isSome = true := by decide +kernel
theorem witness_Buses_up : (busOne.bus 1).up = true ∧ busOne.flag pgHST (HST_I3CCFG_HJEN 1) = true ∧ (busOne.freeDa 1).isSome = true ∧
    (busOne.bus 1).reading = none ∧ busOne.flag pgHST (HST_I3CCFG_IBIEN 1) = true ∧ busOne.ctxOfDa 1 8 = some 63 ∧
    (31#8).toNat ≤ 31 ∧ 32 ≤ (32#8).toNat ∧ (0#8).toNat = 0 ∧ 1 ≤ (1#8).toNat := by decide +kernel
theorem witness_Buses_target : (List.range 64).find? (fun i => (busOne.ctx i).st = 1 && (busOne.ctx i).bus = 1 && (busOne.ctx i).pid = 6 % 2 ^ 48) = none ∧
    busOne.freeDa 1 = some 9 ∧ (List.range 64).find? (fun i => (busOne.ctx i).st = 0) = some 0 ∧
    ((6 : Nat).testBit 1 && (6 : Nat).testBit 2 && true) = true ∧ ((0 : Nat).testBit 1 && (0 : Nat).testBit 2 && true) = false := by decide +kernel

/-! ItemReads -/

/-- The requester of context 63 on bus 1 has one item pending. -/
def itemDue : Core := (busOne.modCtx 63 (fun x => { x with pending := 1 })).setFld pgCMD CMD_CTRL_RXEN 1
theorem witness_ItemReads : up.serviceRuns = true ∧ itemDue.readSlot 1 = true ∧ itemDue.nextReread 1 = none ∧ itemDue.nextRead 1 = some (63, 8) ∧
    (let d := itemDue.modBus 1 (fun x => { x with rereads := [⟨63, 8, 1, false⟩] })
     d.readSlot 1 = true ∧ d.nextReread 1 = some ⟨63, 8, 1, false⟩ ∧ d.readable 1 63 8 = true) ∧
    (let d := itemDue.modBus 1 (fun x => { x with nackReads := [(63, 8, 1)] })
     d.readSlot 1 = true ∧ (d.bus 1).nackReads = [(63, 8, 1)] ∧ d.nextReread 1 = none ∧ d.readable 1 63 8 = true) := by decide +kernel
/-- A NOP item with its CRC. -/
def nopItem : List Byte := [0x40, 0, 7, 0, 0, 0, 0, 0, 0, 0, 0, 0, 0, 0, 0, crc8 [0x40, 0, 7, 0, 0, 0, 0, 0, 0, 0, 0, 0, 0, 0, 0]]
def readingOne : Core := itemDue.modBus 1 (fun x => { x with reading := some (63, 8, false) })
theorem witness_Reads_reply : (readingOne.bus 1).reading = some (63, 8, false) ∧ readingOne.rpr.halted = false ∧
    (readingOne.bus 1).flushed = false ∧ readingOne.cmd.resetDue = false ∧ nopItem.head? ≠ some 0 ∧ ([0x00#8] : List Byte).head? = some 0 ∧
    (!(nopItem.length = 16 && !(byteAt nopItem 0).getLsbD 5) && !(nopItem.length = 32 && (byteAt nopItem 0).getLsbD 5)) = false ∧
    ¬crc8 (nopItem.take 15) ≠ byteAt nopItem 15 ∧ 0 < readingOne.retries ∧
    (!(([0x40#8] : List Byte).length = 16 && !(byteAt [0x40#8] 0).getLsbD 5) && !(([0x40#8] : List Byte).length = 32 && (byteAt [0x40#8] 0).getLsbD 5)) = true ∧
    readingOne.retries ≤ 8 ∧ ((readingOne.modBus 1 (fun x => { x with flushed := true })).bus 1).flushed = true := by decide +kernel
theorem witness_Reads_checks : badFormat nopItem = false ∧ badFormat [0x00#8] = true ∧ opKnown (up.core.item 127).opc = true ∧
    opKnown ((up.core.modItem 127 (fun y => { y with opc := 6 })).item 127).opc = false := by decide +kernel
theorem witness_Reads_auth : let t : State := { up with core := up.core.modItem 127 (fun y => { y with opc := opVSETA }) }
    up.authCheck 127 nopItem = (none, up.core) ∧ up.core.argFails (up.core.item 127) = none ∧
    (t.authCheck 127 nopItem) = (some cdNEEDAUTH, t.core) ∧
    up.core.argFails { opc := opVREL, rail := 8 } = some (stFAILED, cdBADARG) := by decide +kernel

/-! ItemsApplied -/

theorem witness_Items_turn : up.serviceRuns = true ∧ [0, 1, 2, 3, 4, 5, 0x11, 0x12].all (fun o => (itemOf o 0x400).turnOf 127 o) = true := by decide +kernel
theorem witness_Items_volt : let c := itemOf 1 0x400
    (((railIn c .safe).castVote 127).win 7 = (railIn c .safe).win 7) = False ∧ (((railIn c .safe).castVote 127).rail 7).rstate = .safe ∧
    (((railIn c .hold).castVote 127).rail 7).rstate = .slew ∧ (((railIn c .proof).castVote 127).rail 7).rstate = .proof ∧
    ((c.castVote 127).rail 7).rstate = .off := by decide +kernel
theorem witness_Items_phases (st : RState) : let c := railIn (itemOf 3 1) st
    let d := (c.setFld (pgV 7) V_SHEDCFG_NREQ 1).retarget 7 true
    (d.rail 7).rstate = st ∧ ((d.rail 7).ntarget = (d.rail 7).nact ∧ (d.rail 7).tstate = 0) := by cases st <;> decide +kernel
theorem witness_Items_wait : let c := railIn ((itemOf 3 1).modRail 7 (fun r => { r with ntarget := 2, order := [{ dev := 0, port := 0, member := true }, { dev := 0, port := 1, member := true }] })) .hold
    let d := (c.setFld (pgV 7) V_SHEDCFG_NREQ 1).retarget 7 true
    (d.rail 7).rstate = .hold ∧ (d.rail 7).ntarget ≠ (c.rail 7).ntarget ∧ (d.rail 7).ntarget ≠ (d.rail 7).nact := by decide +kernel
theorem witness_Items_auwr : ((itemOf 0x12 (pgSEC * 256 + 0x4C)).item 127).arg0 = pgSEC * 256 + 0x4C ∧
    ((itemOf 0x12 (pgNVM * 256 + 0x2C)).item 127).arg0 = pgNVM * 256 + 0x2C ∧ ((itemOf 0x12 (pgNVM * 256 + 0x74)).item 127).arg0 = pgNVM * 256 + 0x74 := by decide +kernel

/-! RecordsPollsAndFlushes -/

def delivering (attempts : Nat) : Core := (itemOf 0 0).modBus 1 (fun x => { x with queue := [127], attempts := attempts, polls := [(8, 1)] })
theorem witness_Records : up.serviceRuns = true ∧ (delivering 0).cmd.resetDue = false ∧ busOne.cmd.resetDue = false ∧ ((delivering 0).bus 1).up = true ∧ ((delivering 0).bus 1).reading = none ∧
    ((delivering 0).bus 1).queue = 127 :: [] ∧ ((delivering 0).bus 1).attempts = 0 ∧ ((delivering 8).bus 1).attempts ≠ 0 := by decide +kernel
theorem witness_Records_poll : (delivering 0).ctxOfDa 1 8 = some 63 ∧ (((delivering 0).bus 1).polls.find? (fun p => p.1 = 8)).isSome = true ∧
    ((busOne.bus 1).polls.find? (fun p => p.1 = 8)).isSome = false ∧ busOne.writeDue 1 = false ∧ busOne.dueRead 1 = none ∧
    (let c := busOne.modBus 1 (fun x => { x with polls := [(8, 1)] })
     c.ctxOfDa 1 8 = some 63 ∧ c.writeDue 1 = false ∧ c.dueRead 1 = none) ∧ (busOne.setFld pgCMD CMD_CFG_POLL 1).fld pgCMD CMD_CFG_POLL ≠ 0 := by decide +kernel
theorem witness_Records_vote (ends : Nat) : vget ({ up.core with cmd := { up.core.cmd with
    ovfVotes := vmod up.core.cmd.ovfVotes 7 (fun _ => some (⟨0x400, 4⟩, ends)) } } : Core).cmd.ovfVotes 7 none = some (⟨0x400, 4⟩, ends) := rfl

/-! FramesOnTheRing -/

/-- Heads of the frames of the witnesses. -/
def headTo (dest src : Nat) : FrameHead := ⟨dest, src, 0, false, .none, false⟩
theorem witness_Frames_gates : up.serviceRuns = true ∧ up.controlRuns = true ∧ (linked 2 4 0).inputsOn = true ∧ (linked 0 1 0).inputsOn = true ∧
    (linked 2 4 0).stat pgLNK 2 = false := by decide +kernel
theorem witness_Frames_message : (ringMessage (.breakNotice (headTo 0xFF 1) 1)).isSome = true ∧ (orderFrame (.mid (headTo 2 1) 23)).isSome = true := ⟨rfl, rfl⟩
theorem witness_Frames_cases :
    ((linked 0 1 0).taken (headTo 0xFF 1) (.broken 1)).ringId = 0 ∧
    (let d := (linked 2 4 0).taken (headTo 0xFF 1) (.broken 1)
     d.ringId = 2 ∧ d.classChanger = false ∧ d.isFor 0xFF = false ∧ d.standsIn 0xFF = false ∧ d.isFor 2 = true ∧ d.isMaster = false) ∧
    (let d := (linked 1 4 1).taken (headTo 9 2) (.broken 2)
     d.ringId = 1 ∧ d.classChanger = true ∧ d.onRing 9 = false ∧ d.onRing 0xFF = true ∧ d.lnk.absent ≠ some 9) := by decide +kernel
theorem witness_Frames_chord :
    (let c := (linked 2 4 0).setStat pgLNK 2 true
     let d : Core := { c with lnk := { c.lnk with absent := some 1 } }
     d.inputsOn = true ∧ d.stat pgLNK 2 = true ∧ d.ringId = 2 ∧ d.lnk.absent = some 1 ∧ d.standsIn 1 = true) := by decide +kernel
theorem witness_Frames_freeze :
    let c : Core := { linked 2 4 0 with rpr := { (linked 2 4 0).rpr with depth := 1 } }
    let s : State := { up with core := c }
    let d := c.taken (headTo 2 1) (.broken 1)
    let x : InFrame := ⟨headTo 2 1, .broken 1, [], false⟩
    s.booted = true ∧ c.inputsOn = true ∧ c.rpr.depth = 1 ∧ c.stat pgLNK 2 = false ∧ d.ringId ≠ 0 ∧
    (d.lnk.inq.filter (fun y => y.msg.vc = (RingMsg.broken 1).vc && y.head.clsB = false)).length = 0 ∧
    ([x, x, x, x].filter (fun y => y.msg.vc = (RingMsg.broken 1).vc && y.head.clsB = false)).length = 4 := by decide +kernel

/-! RingOpening -/

theorem witness_Ring_off : up.serviceRuns = true ∧ up.core.ringOn = false ∧ (ringAt 2 3 0).ringOn = true ∧ (ringAt 2 3 0).lnk.openDue = false := by decide +kernel
theorem witness_Ring_open : let on := (ringAt 1 2 1).setFld pgLNK LNK_CTRL_EN 1
    on.isMaster = true ∧ on.stat pgLNK 12 = false ∧ on.ringOn = true ∧ on.cascBusy = false ∧ on.lnk.locked = false ∧
    ((on.setFld pgLNK (LNK_CR_CASC 7) 1).modRail 7 (fun r => { r with rstate := .hold })).cascBusy = true ∧
    ({ on with lnk := { on.lnk with locked := true } }).lnk.locked = true := by decide +kernel
theorem witness_Ring_enum : (linked 2 1 0).inputsOn = true ∧ (linked 2 1 0).isMaster = false ∧ (linked 1 2 1).isMaster = true ∧
    (linked 1 2 1).rstate = 2 ∧ (linked 1 2 1).lnk.failed = false ∧ (linked 1 2 1).stat pgLNK 2 = false := by decide +kernel
theorem witness_Ring_map : (linked 2 3 0).ringId ≠ 0 ∧ (linked 2 3 0).rstate = 3 ∧ (linked 2 3 0).ringOn = true ∧
    (linked 2 3 0).lnk.failed = false ∧ (linked 2 3 0).isMaster = false := by decide +kernel
theorem witness_Ring_frames : let h : FrameHead := ⟨0xFF, 1, 0, true, .none, false⟩
    (linked 2 3 0).listens h = true ∧ (linked 2 3 0).heeds h = true ∧ (linked 1 3 1).listens h = true ∧ (linked 1 3 1).heeds h = true ∧
    (let d := (linked 2 3 0).taken h (.opened false)
     d.ringOn = true ∧ d.ringId ≠ 0 ∧ d.rstate = 3 ∧ d.lnk.failed = false) ∧
    (let d := (linked 1 3 1).taken h (.answer 2 false)
     d.isMaster = true ∧ d.rstate = 3 ∧ d.lnk.failed = false) := by decide +kernel

/-! LoopChannel -/

theorem witness_Loop_slots : up.controlRuns = true ∧ (linked 2 4 0).inputsOn = true ∧ (ringAt 2 1 0).ringOn = true ∧ (ringAt 2 1 0).lnk.locked = false ∧
    (linked 2 4 0).ringId ≠ 0 ∧ (linked 0 1 0).ringId = 0 ∧ (linked 2 4 0).isSink = false ∧ (linked 1 4 1).isSink = true ∧
    (1 : Nat) ≠ (linked 2 4 0).ringId ∧ (linked 2 4 0).predecessor = 1 ∧ (linked 1 4 1).predecessor = 0 ∧ (linked 2 4 0).stat pgLNK 2 = false := by decide +kernel
/-- Device 1 owns label 1, and its rail 7 has a remote member on device 2 that waits to fire. -/
def owning : Core :=
  let c := ((linked 1 4 1).setReg pgLNK 0x24 0x100).modRail 7 (fun r => { r with
    rstate := .hold, due := [⟨2, 0, 0⟩], order := [{ dev := 2, port := 0, member := true }] })
  { c with lnk := { c.lnk with remotes := [{ rail := 7, dev := 2, port := 0 }] }, time := 1000 }
theorem witness_Loop_dispatch : (owning.rail 7).due = [⟨2, 0, 0⟩] ∧ owning.crowHeld 7 = false ∧ owning.tripped 7 = false ∧
    (let e := owning.overdue 7 2 0
     (e.rail 7).due = [⟨2, 0, 0⟩] ∧
     (e.rail 7).order.find? (fun x => x.dev = 2 && x.port = 0 && x.member) = some { dev := 2, port := 0, member := true } ∧
     e.rstate = 4 ∧ e.ownLabels.contains (e.nextSsn % 16) = true ∧ (e.remote 7 2 0).notBefore ≤ e.time.toNat ∧
     e.offPassed 7 { dev := 2, port := 0, member := true } = true) := by decide +kernel
/-- Port P23 is lent to rail 7 of device 1. -/
def lending : Core :=
  let c := (((((linked 2 4 0).setFld pgLNK (LNK_LEND_EN 23) 1).setFld pgLNK (LNK_LEND_BOUND 23) 1).setFld pgLNK (LNK_LEND_ORAIL 23) 7).setFld (pgP 23)
    P_ASSIGN_RAIL 0xE)
  { c with prot := { c.prot with hi := 0 } }
theorem witness_Loop_token : let d := lending.slotOut false
    (d.lentBound 23 && d.fld pgLNK (LNK_LEND_ORAIL 23) = 7) = true ∧ (d.lentBound 22 && d.fld pgLNK (LNK_LEND_ORAIL 22) = 7) = false ∧
    d.lentHeld 23 false = false ∧ d.lentHeld 23 true = true ∧ d.cmpHi (8 + 23) = false ∧ vget d.lnk.preloads 23 none = none ∧
    vget ({ d.lnk with preloads := vmod d.lnk.preloads 23 (fun _ => some 5) } : Lnk).preloads 23 none = some 5 ∧
    ({ d with prot := { d.prot with hi := 1#56 <<< 31 } } : Core).cmpHi (8 + 23) = true ∧ lending.lentBound 23 = true := by decide +kernel
theorem witness_Loop_summary : let c := owning.modRemote 7 2 0 (fun y => { y with awaits := [⟨990, 250000, false⟩] })
    c.awaited 2 0 = some 7 ∧ c.fld pgLNK (LNK_CR_BUDGET 7) < 1000 ∧ 20 ≤ c.fld pgLNK (LNK_CR_BUDGET 7) ∧
    takeAwait false (c.remote 7 2 0).awaits = some (⟨990, 250000, false⟩, []) ∧
    takeAwait true (((c.incSat pgLNK LNK_CNT1_LATE 1).raise pgLNK 8).remote 7 2 0).awaits = some (⟨990, 250000, false⟩, []) := by decide +kernel

/-! LendingAndBrokenRings -/

theorem witness_Lend_heard : let h : FrameHead := ⟨2, 1, 0, false, .none, false⟩
    up.serviceRuns = true ∧ (linked 2 4 0).listens h = true ∧ (linked 2 4 0).heeds h = true := by decide +kernel
/-- Port P23 is lent to device 1 and has fired. -/
def lentOne : Core :=
  let c := (((linked 2 4 0).setFld pgLNK (LNK_LEND_EN 23) 1).setFld pgLNK (LNK_LEND_BOUND 23) 1).setFld (pgP 23) P_ASSIGN_RAIL 0xE
  let c := c.setFld pgLNK (LNK_LEND_OWNER 23) 1
  { c with lnk := { c.lnk with lentFired := vmod c.lnk.lentFired 23 (fun _ => true), lentMid := vmod c.lnk.lentMid 23 (fun _ => false) } }
theorem witness_Lend_bound : lentOne.lentBound 23 = true ∧
    (let d := lentOne.taken ⟨2, 1, 0, false, .none, false⟩ (.idRequest 23 none)
     d.lentBound 23 = true ∧ d.fld pgLNK (LNK_LEND_OWNER 23) = 1 ∧ d.lnk.idLent.contains 23 = false) ∧
    vget lentOne.lnk.lentFired 23 false = true ∧ vget lentOne.lnk.lentMid 23 true = false ∧ vget lentOne.lnk.lentLater 23 false = false ∧
    zeroAsOne (lentOne.fld pgLNK (LNK_LEND_TMO 23)) ≤ 65536 := by decide +kernel
/-- Device 1 owns the remote phase of port 0 on device 2, and identifies it or not. -/
def ownsOne (busy : Bool) (pairs : Nat) : Core :=
  let c := linked 1 4 1
  { c with lnk := { c.lnk with remotes := [{ rail := 7, dev := 2, port := 0, ident := { busy := busy, pairs := pairs } }] } }
theorem witness_Lend_ident : let h : FrameHead := ⟨1, 2, 0, false, .none, false⟩
    (ownsOne false 0).listens h = true ∧ (ownsOne false 0).heeds h = true ∧
    (let d := (ownsOne false 0).taken h (.idRequest 0 (some (1, 1, 1)))
     d.railOfRemote 2 0 = some 7 ∧ (d.remote 7 2 0).ident.busy = false) ∧
    (let d := (ownsOne true 1).taken h (.idResult 0 1 1)
     let e := d.modRemote 7 2 0 (fun y => { y with ident := y.ident.turn d.time.toNat })
     let p := (e.remote 7 2 0).ident
     d.railOfRemote 2 0 = some 7 ∧ p.busy = true ∧ p.nrep ≤ p.pairs) ∧
    (let d := (ownsOne true 0).taken h (.idResult 0 1 1)
     let e := d.modRemote 7 2 0 (fun y => { y with ident := y.ident.turn d.time.toNat })
     let p := (e.remote 7 2 0).ident
     p.busy = true ∧ p.pairs < p.nrep) := by decide +kernel
theorem witness_Lend_open : (linked 2 4 0).rstate = 4 ∧ (linked 2 4 0).lnk.source = false ∧ (linked 2 5 0).rstate = 5 ∧ (linked 2 5 0).stat pgLNK 2 = false ∧
    ({ (linked 2 5 0).lnk with source := true }).source = true ∧ (linked 2 4 0).stat pgLNK 2 = false ∧
    ((linked 2 4 0).setLevel pgLNK 2 true).stat pgLNK 2 = true := by decide +kernel

/-! ComparatorsAndThresholds -/

theorem witness_Comparators : up.alive = true ∧ up.serviceRuns = true ∧ up.core.cmpSide 0 true ≠ true ∧ up.core.cmpSide 55 true ≠ false ∧
    up.core.cmpSide 31 true ≠ false ∧ (up.core.setStat (pgP 23) 1 true).stat (pgP (31 - 8)) 1 = true ∧
    up.core.locked pgCMP (CMP_THR_LO0 27) = false ∧ thrOrdered 54 0x80 0x7F = true ∧ thrOrdered 54 1 0 = false ∧ thrOrdered 0 1 0 = false := by decide +kernel
theorem witness_Comparators_pico : let p : Power := { up.pw with good := List.replicate 5 true, lo50 := false, lo51 := false, hi51 := false }
    p.isGood 4 = true ∧ p.lo50 ≠ true ∧ p.lo51 = false ∧ p.hi51 = false ∧
    ({ p with lo50 := true }).lo50 ≠ false ∧ ({ p with hi51 := true }).hi51 = true ∧ ({ up with pw := p }).alive = true ∧
    ({ p with pstate := .parked }).pstate = .parked := by decide +kernel

/-! CrowbarHiccupAndTrips -/

theorem witness_Hiccup : let c := ((railIn up.core .hold).setFld pgTRP (TRP_RST_PCLACT 7) 1).setFld pgTRP (TRP_RAIL_NPCL 7) 1
    up.alive = true ∧ up.serviceRuns = true ∧ c.hiccupCause 7 false 1 = true ∧ c.fld pgTRP (TRP_RST_HCNT 7) < 1 ∧
    1 ≤ ((c.setFld pgTRP (TRP_RAIL_HICRETRY 7) 1).writeEn 7 false false false).fld pgTRP (TRP_RAIL_HICRETRY 7) ∧
    ((c.setFld pgTRP (TRP_RAIL_HICRETRY 7) 0).writeEn 7 false false false).fld pgTRP (TRP_RAIL_HICRETRY 7) ≤ c.fld pgTRP (TRP_RST_HCNT 7) ∧
    (c.rail 7).rstate = .hold ∧ (c.setFld pgTRP (TRP_RST_HICW 7) 1).flag pgTRP (TRP_RST_HICW 7) = true ∧
    (c.setLevel (pgV 7) 0 true).stat (pgV 7) 0 = true := by decide +kernel
theorem witness_Undervoltage : let c := (({ up.core with prot := { up.core.prot with lo := 1#56 <<< 7 } } : Core)).setFld pgTRP (TRP_RST_UVARM 7) 1
    c.cmpLo 7 = true ∧ c.flag pgTRP (TRP_RST_UVARM 7) = true ∧ c.flag pgTRP (TRP_RST_PCLACT 7) = false ∧ c.stat pgCMP (8 + 7) = false := by decide +kernel
theorem witness_Lines : let c := up.core.setFld pgTRP (TRP_SRC_SEL 15) 0x70
    c.lineOn 15 = !true ∧ c.lineSignal 15 ≠ some (!true) ∧
    (c.setFld pgTRP TRP_SRCST_LIVE 0x8000).lineOn 15 = !false ∧ c.lineSignal 15 ≠ some (!false) := by decide +kernel
theorem witness_Clears : let c := (up.core.raise pgTRP 23).raise pgTRP 11
    c.crowHeld 7 = true ∧ c.cmpHi 7 = false ∧ ({ c with prot := { c.prot with hi := 1#56 <<< 7 } } : Core).cmpHi 7 = true ∧
    c.stky pgTRP 11 = true ∧ c.groupLines 11 = [] ∧
    ((c.setFld pgTRP TRP_SRCST_LIVE 0x8000).setFld pgTRP (TRP_GRP_MAP 11) 0x8000).groupLines 11 ≠ [] := by decide +kernel

/-! AuxiliaryWritesAndForces -/

theorem witness_AuxWrites : up.serviceRuns = true ∧ up.core.flag pgAUX (AUX_CTRL_EN 3) = false ∧ (up.core.xch 3).st = .off ∧
    (up.core.setFld pgAUX (AUX_CTRL_EN 3) 1).flag pgAUX (AUX_CTRL_EN 3) = true ∧
    ((up.core.modXch 3 (fun x => { x with st := .run })).xch 3).runs = true ∧ ((up.core.modXch 3 (fun x => { x with st := .run })).xch 3).st ≠ .off ∧
    getBits 7 0 3 = 7 ∧ getBits 6 0 3 ≠ 7 := by decide +kernel

/-! AuxiliaryPeriodsAndFan -/

theorem witness_AuxCapture : let c := up.core.setFld pgAUX (AUX_XCFG_RLDMODE 3) 1
    up.alive = true ∧ up.core.flag pgAUX (AUX_CTRL_RLD 3) = false ∧ up.core.flag pgAUX (AUX_XCFG_RLDMODE 3) = false ∧
    (c.setFld pgAUX (AUX_CTRL_RLD 3) 1).flag pgAUX (AUX_CTRL_RLD 3) = true ∧
    c.flag pgAUX (AUX_XCFG_RLDMODE 3) = true ∧ ((c.modXch 3 (fun x => { x with dutyNew := true })).xch 3).dutyNew = true ∧
    (c.xch 3).dutyMiss = false ∧ (c.xch 3).dutyNew = false := by decide +kernel
theorem witness_AuxGates : let c := ({ up.core with prot := { up.core.prot with hi := 0, lo := 0 } } : Core).modXch 3 (fun x => { x with st := .run, per := 400, dcur := 2048 })
    (c.xch 3).runs = true ∧
    c.xHiLim 3 = false ∧ ({ c with prot := { c.prot with hi := 1#56 <<< 49 } } : Core).xHiLim 3 = true ∧
    ((c.modXch 3 (fun x => { x with dead := 1 })).xch 3).dead = 1 ∧ ((c.modXch 3 (fun x => { x with dead := 2 })).xch 3).dead = 2 ∧
    (c.xch 3).st = .run ∧ c.cmpHi (42 + 3) = false ∧ c.cmpLo (42 + 3) = false := by decide +kernel
theorem witness_AuxLimits : let c := ({ up.core with prot := { up.core.prot with lo := 1#56 <<< 45 } } : Core).modXch 3 (fun x => { x with st := .run, limRow := 3 })
    c.cmpLo (42 + 3) = true ∧ c.stat pgAUX (8 + 3) = false ∧ (c.xch 3).runs = true ∧ (c.setFld pgAUX (AUX_XCFG_XOCN 3) 3).fld pgAUX (AUX_XCFG_XOCN 3) = 3 ∧
    (c.xch 3).limRow = 3 ∧ (((c.setFld pgAUX (AUX_XCFG_XOCN 3) 3).setFld pgAUX (AUX_CTRL_EN 3) 0).xch 3).runs = true := by decide +kernel
theorem witness_Fan : let c := ({ up.core with time := 800#48, aux := { up.core.aux with fanCur := 1, tach := [600, 400] } } : Core).setFld pgAUX AUX_FANSTALL_STALLT 1
    (let e := ({ c with aux := { c.aux with tach := (c.time.toNat :: c.aux.tach).take 16 } } : Core).fanUnstall
     e.aux.tach[zeroAsOne (e.fld pgAUX AUX_FANCFG_PPR)]? = some 400 ∧ 400 ≤ e.time.toNat - 400) ∧
    (let e := ({ up.core with aux := { up.core.aux with tach := (up.core.time.toNat :: up.core.aux.tach).take 16 } } : Core).fanUnstall
     e.aux.tach[zeroAsOne (e.fld pgAUX AUX_FANCFG_PPR)]? = none) ∧
    (c.setFld pgAUX AUX_CTRL_FANEN 1).flag pgAUX AUX_CTRL_FANEN = true ∧ 0 < c.aux.fanCur ∧ c.fld pgAUX AUX_FANSTALL_STALLT = 1 ∧ c.stat pgAUX 24 = false := by
  decide +kernel

/-! TelemetryAndTheCrumbStream -/

theorem witness_Merge :
    let stamped : Crumb := ⟨0, [], some 640, 2⟩
    let c (x : Crumb) : Core := { up.core with crb := { up.core.crb with queues := vmod up.core.crb.queues 4 (fun _ => [x]) } }
    up.controlRuns = true ∧ up.serviceRuns = true ∧ (c stamped).crb.merge = [] ∧ (c stamped).crb.closing = false ∧
    (c stamped).nextProducer = some (4, stamped, []) ∧ (c { stamped with at_ := none }).nextProducer = some (4, { stamped with at_ := none }, []) := by
  decide +kernel
theorem witness_Pack : let c := ({ up.core with crb := { up.core.crb with openw := [⟨5, true, false, 0⟩] } } : Core).setFld pgCRB CRB_CFG_PACKT 1
    c.fld pgCRB CRB_CFG_PACKT = 1 ∧ c.crb.openw ≠ [] ∧ c.crb.closing = false ∧ c.crb.fifo.length < 1024 := by decide +kernel

/-! RemoteDrainFrames -/

theorem witness_Drained : let h : FrameHead := ⟨7, 1, 0, true, .none, false⟩
    let c := ({ linked 7 4 0 with crb := { up.core.crb with fifo := [1, 2], wp := 2 } } : Core).setFld pgCRB CRB_CFG_DEST 1
    up.serviceRuns = true ∧ c.listens h = true ∧ c.heeds h = true ∧
    (let d := c.taken h (.crbReq 0 0 14)
     d.drained = true ∧ d.crb.fifo.length < ptrDist d.crb.rp (ofGray (toGray 3)) ∧
     ptrDist d.crb.rp (ofGray (toGray 1)) ≤ d.crb.fifo.length ∧ ptrDist d.crb.rp (ofGray (toGray 2)) ≤ d.crb.fifo.length ∧
     ptrDist (ofGray (toGray 1)) (ofGray (toGray 2)) ≤ d.crb.fifo.length - ptrDist d.crb.rp (ofGray (toGray 1))) := by decide +kernel
theorem witness_Drains : let h : FrameHead := ⟨1, 2, 0, false, .none, false⟩
    let c := ({ linked 1 4 1 with crb := { up.core.crb with rbuf := List.replicate 50 0 } } : Core).setFld pgCRB CRB_RSEL_ID 2
    c.listens h = true ∧ c.heeds h = true ∧
    (let d := c.taken h (.crbData 0 0 (List.replicate 14 0))
     d.drains = true ∧ d.fld pgCRB CRB_RSEL_ID = 2 ∧ d.crb.syncWait = false ∧ ofGray 0 = d.crb.rfp ∧
     (List.replicate 14 (0 : Word)).length + d.crb.rbuf.length = 64) ∧
    c.drains = true ∧ c.rstate = 4 ∧ c.fld pgCRB CRB_RSEL_ID = 2 ∧ c.crb.syncWait = false ∧ c.crb.reqWait = false ∧ c.crb.rbuf.length ≤ 50 ∧
    (c.setFld pgCRB CRB_RPTR_WPLAST 1).fld pgCRB CRB_RPTR_WPLAST ≠ c.crb.rfp ∧ zeroAsOne (c.fld pgCRB CRB_RCFG_RPOLL) ≤ 65536 ∧
    zeroAsOne (c.fld pgCRB CRB_RCFG_RTMO) ≤ 65536 := by decide +kernel
theorem witness_Awaits : let c := { linked 1 4 1 with crb := { up.core.crb with reqWait := true } }
    c.crb.reqWait = true ∧ c.crb.syncWait = false := by decide +kernel

/-! HousekeepingRounds -/

theorem witness_Rounds : let c := up.core
    let on : Core := { c with thm := { c.thm with active := true } }
    up.thmRuns = true ∧ c.thm.active = false ∧ ({ c with thm := { c.thm with per := c.thmPer } } : Core).thm.per = c.thmPer ∧
    ({ c with thm := { c.thm with per := c.thmPer + 1 } } : Core).thm.per ≠ c.thmPer ∧ on.thm.active = true := by decide +kernel

/-! FaultMessagesAct -/

theorem witness_Messages : let c := up.core
    let w := mkMsg 0x5F 0 0
    up.alive = true ∧ up.serviceRuns = true ∧ c.classOf (msgSrc w) = 4 ∧ msgOk w = true ∧ msgSrc w ≤ 0x5F ∧ msgOk (w ^^^ 1) = false ∧
    c.classOf (msgSrc (mkMsg 3 0 0)) < 2 ∧ (c.setFld pgFSV (FSV_CLS_CLASS 0x5E) 3).classOf 0x5E = 3 ∧
    c.classOf (msgSrc (mkMsg 1 0 (mkAddr 1 7))) = 2 ∧ c.scope (msgAddr (mkMsg 1 0 (mkAddr 1 7))) true ≠ [] ∧
    ({ c with flt := { c.flt with latch := [w] } } : Core).flt.latch = [w] := by decide +kernel
theorem witness_Classes : let c := up.core
    c.locked pgFSV (FSV_CLS_CLASS (8 * 11)) = false ∧ (c.setReg pgFSV 0x18 0x1F).locked pgFSV (FSV_CLS_CLASS (8 * 11)) = true ∧
    srcListed 0x5F = true ∧ srcListed 1 = true ∧ atypeReaches (srcAtype 1) = true ∧ srcListed 0x5E = true ∧ atypeReaches (srcAtype 0x5E) = false ∧
    bitOf (c.reg pgFSV 0x18) 4 = false ∧ bitOf ((c.setReg pgFSV 0x18 0x1F).reg pgFSV 0x18) 4 = true := by decide +kernel

/-! ReleasesOfHolds -/

theorem witness_Release : let c := up.core
    let held : Core := { c with flt := { c.flt with dev := ⟨[⟨0x30, false, true⟩], 255, true⟩, holds := vmod c.flt.holds 11 (fun _ => ⟨[⟨0x30, false, true⟩], 255, true⟩) } }
    up.serviceRuns = true ∧ up.pw.grave = false ∧ bitOf (0x1FF0B : Word) 16 = true ∧ getBits (0x1FF0B : Word) 0 4 = 11 ∧ getBits (0x1FF0B : Word) 8 8 = 255 ∧
    getBits (0x1FF0F : Word) 0 4 = 15 ∧ getBits (0x1000C : Word) 0 4 = 12 ∧ bitOf (0xFF0F : Word) 16 = false ∧
    held.holdBusy 11 = false ∧ held.holdBusy 15 = false ∧ (held.holdSet 11).count = 255 ∧ (held.holdSet 15).count = 255 ∧ held.stat pgFLT 3 = false := by
  decide +kernel

/-! ProgramStepsRun -/

/-- A program of one step that is about to run it. -/
def atWord (w : BitVec 64) : State :=
  { up with core := { up.core with bkh := { up.core.bkh with running := true, prog := 3, step := 0, progs := vmod up.core.bkh.progs 3 (fun _ => [w]) } } }
theorem witness_Steps :
    (atWord 0x00000000000000FF).atStep 0 = some 0x00000000000000FF ∧ (atWord 0x00010000000000FF).atStep 0 = some 0x00010000000000FF ∧
    stFlg (0x00010000000000FF : BitVec 64) % 2 = 1 ∧
    (atWord 0x1073000000000000).atStep 1 = some 0x1073000000000000 ∧ stTgt (0x10B1000000000000 : BitVec 64) = 11 ∧
    (atWord 0x11F1000000000000).atStep 1 = some 0x11F1000000000000 ∧ stTgt (0x11F1000000000000 : BitVec 64) = 0x1F ∧
    (up.core.setFld pgBKH (BKH_SEQROLE_ROLE 15) 1).seqRole 15 = 1 ∧ up.core.seqRole 15 ≠ 1 ∧
    (atWord 0x14F1000000000000).atStep 1 = some 0x14F1000000000000 ∧ stTgt (0x14F1000000000000 : BitVec 64) = 0x4F ∧
    up.relRefused 15 0 = false ∧ ({ up with pw := { up.pw with graveD := true, graveV := true } } : State).relRefused 15 0 = true := by decide +kernel
theorem witness_MoreSteps :
    (atWord 0x3071000000000000).atStep 3 = some 0x3071000000000000 ∧ (up.core.holdSet 7).held = false ∧ ¬ (0x10 ≤ (7 : Nat)) ∧
    stTgt (0x31F1000000000000 : BitVec 64) = 0x1F ∧ up.core.seqRole (0x1F - 0x10) ≠ 2 ∧
    (atWord 0x4000000000000001).atStep 4 = some 0x4000000000000001 ∧ (atWord 0x500300000000FFFF).atStep 5 = some 0x500300000000FFFF ∧
    (atWord 0x600F003F00000000).atStep 6 = some 0x600F003F00000000 ∧ up.core.branchCond 15 = true ∧ up.core.branchCond 1 = false ∧
    (atWord 0x700300FF00000000).atStep 7 = some 0x700300FF00000000 ∧ stFlg (0x700300FF00000000 : BitVec 64) % 2 = 1 ∧
    stFlg (0x700200FF00000000 : BitVec 64) % 2 = 0 := by decide +kernel

/-! ProgramsStartWaitAndPark -/

def bakingState (w : BWait) : State := { up with core := { up.core with bkh := { up.core.bkh with running := true, prog := 1, wait := w, parking := true, reportDue := true, outEn := true } } }
theorem witness_Requests :
    let c : Core := { up.core with bkh := { up.core.bkh with progs := vmod up.core.bkh.progs 3 (fun _ => [0]) } }
    up.alive = true ∧ up.serviceRuns = true ∧ up.core.bkh.running = false ∧ c.progPresent 3 = true ∧ up.core.bkh.park = false ∧ up.core.bkh.parking = false ∧
    (up.core.setFld pgBKH BKH_WAKE_WAKEEN 1).flag pgBKH BKH_WAKE_WAKEEN = true ∧ up.pw.pstate = .run ∧
    ({ up.core with prot := { up.core.prot with lo := 1#56 <<< 51 } } : Core).cmpLo 51 = true := by decide +kernel
theorem witness_Waits :
    let s := bakingState (.good 0x1F true)
    s.serviceRuns = true ∧ s.core.bkh.wait = .good 0x1F true ∧ s.core.bkh.running = true ∧ tgtSeq 0x1F = true ∧ tgtSeq 0x0B = false ∧
    s.core.goodBit 0x1F = true ∧ s.core.goodBit 0x0B ≠ true ∧ s.core.goodBit 0x0B = false ∧ s.core.bkh.parking = true ∧
    s.core.bkh.queue = [] ∧ s.core.nvm.write = none ∧ s.core.bkh.reportDue = true ∧
    ((s.core.setFld pgBKH (BKH_SEQROLE_ROLE 15) 1).seqDrive 15 true).lastDriven = some 15 ∧
    (((s.core.setFld pgBKH (BKH_SEQROLE_ROLE 15) 1).seqDrive 15 true).seqDrive 15 false).lastDriven.isSome = false := by decide +kernel

/-! RecordsErasesAndScrubs -/

theorem witness_StoreRecords :
    let c := up.core
    up.serviceRuns = true ∧ up.alive = true ∧ c.flashFree = true ∧ c.held = false ∧ c.ctlWaits = false ∧ c.headBusy = false ∧ c.ctlBusy = false ∧
    (c.startAct ⟨actBBWRITE, 0, 0⟩).actRuns actBBWRITE 0 = true ∧ (c.startAct ⟨actSCRUB, 63, 0⟩).actRuns actSCRUB 63 = true ∧
    c.actRuns actSCRUB 63 = false ∧ c.rpr.depth ≠ 2 ∧ c.nvm.ctlWant = false ∧ c.freeSpare = some 56 ∧ c.bkh.queue = [] ∧ c.nvm.eraseStop = false ∧ c.nvm.retire.contains 15 = false ∧ c.bkh.scanned = false ∧
    (c.setFld pgNVM NVM_CFG_SCRUBP 1).fld pgNVM NVM_CFG_SCRUBP ≠ 0 ∧ ((c.setLevel pgNVM 8 true).stat pgNVM 8) = true ∧
    (c.setLevel pgNVM 8 true).holdCause = false ∧ up.freeMapSlot 0 = some 0 ∧ c.rpr.mapHalf = false := by decide +kernel
theorem witness_Scrub : let c := up.core.setFld pgNVM NVM_CFG_RETN 2
    1 < zeroAsOne (c.fld pgNVM NVM_CFG_RETN) ∧
    1 < zeroAsOne ((((c.incSat pgNVM NVM_ECC_CORR 1).raise pgNVM 3).send 0x41 0 (mkAddr 0xD 62)).fld pgNVM NVM_CFG_RETN) := by decide +kernel

/-! HostFlashOperationsAndKeys -/

theorem witness_HostOps :
    let c := up.core.putFields pgNVM .nvm 0x34 (BitVec.ofNat 32 (0x100 + 1))
    up.serviceRuns = true ∧ up.booted = true ∧ c.areaOf (c.fld pgNVM NVM_OPADDR_AREA) = some (6, 4) ∧ c.fld pgNVM NVM_OP_OP = 1 ∧
    (up.core.putFields pgNVM .nvm 0x34 (BitVec.ofNat 32 (0x100 + 3))).fld pgNVM NVM_OP_OP = 3 ∧
    c.nvm.host = none ∧ c.fld pgNVM NVM_OPADDR_OFFSET % 32 = 0 ∧ c.fld pgNVM NVM_OPADDR_OFFSET < 4 * 2048 ∧ c.fld pgNVM NVM_OPADDR_AREA < 2 ∧
    (up.onCore (fun _ => c)).pageProgrammable (6 * 2048) = true ∧ up.core.hostReady 1 = true ∧ up.core.hostReady 2 = true ∧ up.core.hostReady 3 = true ∧
    up.core.nvm.erases.any (fun e => e.2 = .host) = false ∧ c.areaOf 5 = some (14, 2) := by decide +kernel
theorem witness_Burns :
    let prov := up.otpBurn 21 1
    let closed := up.otpBurn 26 1
    up.provClosed = false ∧ closed.provClosed = true ∧ up.keyProv 3 = false ∧ prov.keyProv 3 = true ∧ up.keyRev 3 = false ∧ up.keyDamaged 3 = false ∧
    up.core.sec.burn = none ∧ (up.onCore (fun c => c.beginBurn .close)).core.sec.burnOn = true ∧ up.core.sec.revokeWait = 0 ∧ up.core.stat pgSEC 0 = false ∧ (up.core.setLevel pgSEC 0 true).stat pgSEC 0 = true := by
  decide +kernel

/-! SuppliesAndResets -/

theorem witness_Supplies :
    let cold : Power := { up.pw with good := List.replicate 5 false }
    let allGood : Power := { up.pw with good := List.replicate 5 true, pstate := .parked, lo50 := false }
    cold.isGood 4 = false ∧ up.serviceRuns = true ∧ up.pw.swren = true ∧ ({ up.pw with swren := false } : Power).swren = false ∧
    allGood.isGood 4 = true ∧ allGood.isGood 3 = true ∧ (allGood.setGood 3 false).isGood 3 = false ∧ ((allGood.setGood 3 false).setGood 3 true).coreGood = true ∧
    ({ allGood with pstate := .run } : Power).pstate ≠ .parked ∧ allGood.lo50 = false ∧ (allGood.setGood 3 false).coreGood = false ∧
    PState.waking.code < 2 ∧ 2 ≤ PState.boot.code ∧ up.core.hst.stream = none ∧ up.core.hst.resetDue = false := by decide +kernel

/-! BootRuns -/

def booting (k : Nat) : State :=
  { State.reset with pw := { State.reset.pw with pstate := .boot, inReset := false, halt := false, phase := k, rstn := true, good := List.replicate 5 true } }
theorem witness_Boot :
    ({ booting 0 with pw := { (booting 0).pw with inReset := true } } : State).bootReady = true ∧
    (booting 0).inPhase 0 = true ∧ (booting 1).inPhase 1 = true ∧ (booting 2).inPhase 2 = true ∧ (booting 3).inPhase 3 = true ∧ (booting 4).inPhase 4 = true ∧
    (booting 4).pw.isGood 0 = true ∧ (booting 4).pw.isGood 4 = true ∧ (booting 4).pw.pstate ≠ .parked ∧ (booting 4).booted = false := by
  decide +kernel
theorem witness_BootB : (booting 1).otpOk = true := by decide +kernel
theorem witness_BootOtp :
    ({ booting 1 with st := { (booting 1).st with otp := vmod (booting 1).st.otp 62 (fun w => w + 1) } } : State).otpOk = false := by decide +kernel

/-! ShadowsRetestsAndPasses -/

def shadowing : Core := { railIn up.core .hold with rpr := { up.core.rpr with shadowPend := true, running := [⟨actSHADOW, 7, 8⟩, ⟨actRETEST, 9, 0⟩,
  ⟨actBISTBG, 57, 0⟩, ⟨actRECAL, 5, 0⟩, ⟨actSLCMP, 39, 56⟩, ⟨actSLCMP, 7, 24⟩, ⟨actRETEST, 57, 0⟩], slq := [7] } }
theorem witness_Shadows : let c := railIn up.core .hold
    up.booted = true ∧ up.core.rpr.depth ≠ 2 ∧ c.nextSpare = some 8 ∧ c.flag pgRPR RPR_CFG_SHEN = true ∧ c.shadowBusy = false ∧ c.nextShadow = some 7 ∧
    zeroAsOne (c.fld pgRPR RPR_CFG_SHGAP) ≤ 65536 ∧ shadowing.shadowSpare = some 8 ∧
    shadowing.rpr.running.find? (fun a => a.code = actSHADOW) = some ⟨actSHADOW, 7, 8⟩ ∧ shadowing.shadowable 7 = true ∧ up.core.shadowable 7 = false ∧
    (shadowing.setFld pgRPR RPR_SHADOW_ENGINE 8).fld pgRPR RPR_SHADOW_ENGINE ≠ 0xF ∧ shadowing.rpr.takeover = none ∧
    65536 ≤ (shadowing.setFld pgRPR RPR_SHADOW_SAMPLES 65536).fld pgRPR RPR_SHADOW_SAMPLES := by decide +kernel
def comparer : Core := { shadowing with rpr := { shadowing.rpr with running := [] } }
theorem witness_Units :
    shadowing.actRuns actRETEST 9 = true ∧ shadowing.actRuns actRETEST 57 = true ∧ shadowing.actRuns actBISTBG 57 = true ∧ shadowing.actRuns actRECAL 5 = true ∧
    comparer.rpr.slq = [7] ∧ comparer.comparing = false ∧ comparer.compareSpare 7 = some 24 ∧ (comparer.setFld pgRPR RPR_CFG_SLCEN 1).flag pgRPR RPR_CFG_SLCEN = true ∧
    shadowing.rpr.running.find? (fun a => a.code = actSLCMP && a.inst = 39) = some ⟨actSLCMP, 39, 56⟩ ∧
    shadowing.rpr.running.find? (fun a => a.code = actSLCMP && a.inst = 7) = some ⟨actSLCMP, 7, 24⟩ ∧ shadowing.rpr.pspend = [] := by decide +kernel
theorem witness_Passes : let c := up.core
    up.serviceRuns = true ∧ ({ c with rpr := { c.rpr with waiting := [⟨actSCRUB, 0, 0⟩] } } : Core).nextGrant [] [⟨actSCRUB, 0, 0⟩] = some ⟨actSCRUB, 0, 0⟩ ∧
    (c.setFld pgRPR RPR_CFG_BGP 1).fld pgRPR RPR_CFG_BGP = 1 ∧ c.rpr.bgLeft = [] ∧ c.rpr.recalLeft = [] ∧
    (c.setFld pgRPR RPR_CFG_RECALP 1).fld pgRPR RPR_CFG_RECALP = 1 := by decide +kernel

/-! FreezesAndTheTestPort -/

theorem witness_Freeze :
    let c : Core := { up.core with rpr := { up.core.rpr with depth := 2 } }
    up.alive = true ∧ State.reset.alive = false ∧ up.regOpen = true ∧ up.booted = true ∧
    ({ up with core := { up.core with rpr := { up.core.rpr with depth := 1 } } } : State).regOpen = true ∧
    c.rpr.allMid = false ∧ (∀ k < 24, (c.port k).pwm = .mid) ∧ c.rpr.halted = false ∧ up.tapOpen = true ∧
    ({ up with core := c } : State).regOpen = false ∧ ({ up with core := c } : State).tapOpen = true ∧ addrOk 0xFF 0xFC = true ∧ tapListed 0x3F = false ∧ tapListed 0x01 = true := by decide +kernel

/-! InterruptSummary -/

theorem witness_InterruptSummary : up.booted = true ∧ up.core.hst.alertRel = false ∧ up.core.flag pgHST HST_SMBCFG_ALMASK = false ∧
    (let c := (up.core.setReg 0x48 0x0C 1).setReg 0x48 0x10 1
     bitOf (({ up with core := c } : State).peek pgHST 0x48) 8 = true ∧ ({ up with core := c } : State).alertPin = true) := by decide +kernel

/-! InterruptByteSetsPending -/

theorem witness_InterruptByte : ({ up with core := busOne } : State).serviceRuns = true ∧ (busOne.bus 1).up = true ∧ (busOne.bus 1).reading = none ∧
    busOne.flag pgHST (HST_I3CCFG_IBIEN 1) = true ∧ busOne.ctxOfDa 1 8 = some 63 ∧ (31#8).toNat / 32 = 0 ∧ 1 ≤ (31#8).toNat % 32 ∧
    (32#8).toNat / 32 ≠ 0 ∧ (0#8).toNat % 32 = 0 := by decide +kernel

/-! UnimplementedPages -/

theorem witness_Unimplemented : kindOf (0x49#8).toNat = none ∧ kindOf (0xFF#8).toNat = none ∧ up.regOpen = true ∧ up.smbOpen = true ∧
    up.core.hst.stream = none ∧ frameBad 0x00 0xFC = false ∧ cmdMode 0x00 = 0 ∧ cmdWr 0x00 = false ∧ frameBad 0x80 0x00 = false ∧
    cmdMode 0x80 = 0 ∧ cmdWr 0x80 = true ∧ up.core.pecBad .absent = false ∧ up.core.fld pgHST HST_SMBCFG_WPROT = 0 ∧
    (let s : State := { up with core := up.core.setFld pgHST HST_WINADDR_PAGE 0xFF }
     s.smbOpen = true ∧ s.core.fld pgHST HST_WINADDR_PAGE = (0xFF#8).toNat) := by decide +kernel

/-! PmbusPageAllRails -/

theorem witness_AllRails : let s : State := { up with core := up.core.setFld pgHST HST_PMBPAGE_PAGE 0xFF }
    s.smbOpen = true ∧ s.core.fld pgHST HST_PMBPAGE_PAGE = 0xFF ∧ s.core.pecBad .absent = false ∧
    s.core.fld pgHST HST_SMBCFG_WPROT = 0 ∧ 400 ≤ (400#16).toNat ∧ (3600#16).toNat ≤ 3600 ∧ 1 / 2 ≤ linVal (0x0050#16).toNat ∧
    linVal (0x0050#16).toNat ≤ 80 ∧ linVal (0x00FF#16).toNat ≤ 255 ∧ 8 ≤ (0xFE#8).toNat ∧ (0xFE#8).toNat ≠ 0xFF := by decide +kernel

/-! MessagesAreChecked -/

theorem witness_MessagesAreChecked :
    let s (w : Word) : State := { up with core := { up.core with flt := { up.core.flt with latch := [w] } } }
    (s 0).alive = true ∧ (s 0).core.flt.latch = 0 :: [] ∧ msgOk 0x10014007 = true ∧ getBits 0x10014007 24 8 ≤ 0x5F ∧
    getBits (mkMsg 0x5F 0 0) 24 8 ≤ 0x5F ∧ msgOk 0x10014006 = false ∧ msgOk (mkMsg 0x60 0 0) = true ∧
    0x5F < getBits (mkMsg 0x60 0 0) 24 8 := by decide +kernel

/-! OneWrongBitIsNeverTakenForAMessage -/

theorem witness_OneWrongBit :
    let s : State := { up with core := { up.core with flt := { up.core.flt with latch := [mkMsg 0x10 0 0x5001 ^^^ BitVec.ofNat 32 (2 ^ 31)] } } }
    s.alive = true ∧ s.core.flt.latch = (mkMsg (0x10#8).toNat (0#6).toNat (0x5001#16).toNat ^^^ BitVec.ofNat 32 (2 ^ (31 : Fin 32).val)) :: [] ∧
    mkMsg 0x10 0 0x5001 = 0x10014007 ∧ mkMsg 0x07 2 0xF000 = 0x070BC003 := by decide +kernel

/-! SettledStatesStay -/

theorem witness_Settled : (∀ k < 24, (up.core.forcedPwm k = some .mid ∧ (up.core.port k).pwm = .mid)) ∧
    (∀ n < 8, (up.core.rail n).rstate ≠ .softoff) ∧ up.core.holdCause = false ∧ up.core.flt.outbox = [] ∧ up.core.rpr.pspend = [] ∧
    (∀ n < 4, up.core.tripped (8 + n) = false ∧ (up.core.xch n).tripHold = false) ∧ up.core.lnk.outq = [] ∧ up.core.bkh.running = false ∧ up.booted = true ∧
    up.core.freezeWant = up.core.rpr.depth ∧ (∀ n < 8, (up.core.rail n).irail = 0) ∧ up.core.rpr.running ++ up.core.rpr.waiting = [] ∧
    up.core.sec.burn = none ∧ up.core.nvm.host = none ∧ up.core.bkh.queue = [] ∧ State.reset.booted = false := by decide +kernel

end Sys2Proof.Tests
end

/-! PROOFS of the statements of the scope family: commands that complete, the register map, writes of the page head,
comparators and thresholds, and the settled machine. -/
namespace Sys2Proof.Machine

/-! ## Commands that complete (R6, log 3) -/

/-- A command whose register address exists, or that carries none, goes on to its effect. -/
theorem exec_completes {i : Instr} (h : i.wellFormed = true) (s : State) : ∃ t, exec i s = .next t := by
  cases i with
  | regWrite p pg off v => exact ⟨_, if_pos h⟩
  | stkyClear pg off mask coinc =>
    rw [exec_stkyClear, execStkyClear, show addrOk pg off = true from h]
    exact ⟨_, rfl⟩
  | evcClear pg incs =>
    rw [exec_evcClear, execEvcClear, show addrOk pg 0 = true from h]
    exact ⟨_, rfl⟩
  | frcForce pg mask => exact ⟨_, if_pos h⟩
  | lockWrite pg v => exact ⟨_, if_pos h⟩
  | pageReset pg => exact ⟨_, if_pos h⟩
  | regacc wr pg off data =>
    rw [exec_regacc, execRegacc, show addrOk pg off = true from h]
    exact ⟨_, rfl⟩
  | _ => exact ⟨_, rfl⟩

/-- A register command whose address does not exist stops before any effect; no other command is ill formed. -/
theorem exec_illFormed {i : Instr} (h : i.wellFormed = false) (s : State) : exec i s = .fault .illFormed := by
  cases i with
  | regWrite p pg off v => rw [exec_regWrite, execRegWrite, show addrOk pg off = false from h]; rfl
  | stkyClear pg off mask coinc => rw [exec_stkyClear, execStkyClear, show addrOk pg off = false from h]; rfl
  | evcClear pg incs => rw [exec_evcClear, execEvcClear, show addrOk pg 0 = false from h]; rfl
  | frcForce pg mask => rw [exec_frcForce, execFrcForce, show addrOk pg 0 = false from h]; rfl
  | lockWrite pg v => rw [exec_lockWrite, execLockWrite, show addrOk pg 0 = false from h]; rfl
  | pageReset pg => rw [exec_pageReset, execPageReset, show addrOk pg 0 = false from h]; rfl
  | regacc wr pg off data => rw [exec_regacc, execRegacc, show addrOk pg off = false from h]; rfl
  | _ => cases h

/-- Settles O3: the register commands are the ones that check an address, and every other command answers at once. -/
theorem everyWellFormedCommandCompletes : Obligations.EveryWellFormedCommandCompletes := by
  unfold Obligations.EveryWellFormedCommandCompletes
  exact fun i s => ⟨fun h => exec_completes h s, fun h => exec_illFormed h s⟩

/-! ## The register map (R5 to R10, R29) -/

/-- Settles O9: fields of one page share no bit, and registers of different pages have different keys. -/
theorem registerFieldsReadBack : Obligations.RegisterFieldsReadBack := by
  unfold Obligations.RegisterFieldsReadBack
  intro c pg k _ f hf v
  obtain ⟨-, hoff, hlen, -, -⟩ := field_placed hf
  have other {p : Nat} {k' : PageKind} {g : Field} (hg : g ∈ fieldsOf k') (hd : p ≠ pg ∨ f.apart g = true) :
      (c.setFld pg f v).fld p g = c.fld p g := Core.fld_setFld_other c v hlen hoff (field_placed hg).2.1 hd
  exact ⟨Core.fld_setFld_same c pg f v hlen,
    fun g hg hne => other hg (.inr (fields_apart hf hg (Ne.symm hne))),
    fun _ _ _ hp _ hg => other hg (.inl hp)⟩

/-- Settles O10: the write goes through the register's fields one after another, and each changes itself alone. -/
theorem writesReachTheOpenFields : Obligations.WritesReachTheOpenFields := by
  unfold Obligations.WritesReachTheOpenFields
  exact fun c pg off w k _ f hf => Core.fld_putFields c off w hf

/-! ## Writes of the page head (R25 to R29) -/

/-- A register of an implemented page has an address (R6, R32). -/
theorem addrOk_of_kindOf {pg off : Nat} {k : PageKind} (hk : kindOf pg = some k) (ho : off < 256) (h4 : off % 4 = 0) :
    addrOk pg off = true := by
  have := kindOf_le hk
  simp only [addrOk, Bool.and_eq_true, decide_eq_true_eq]
  omega

theorem isSome_kindOf {pg : Nat} {k : PageKind} (hk : kindOf pg = some k) : (kindOf pg).isSome = true := by rw [hk]; rfl

/-- On every page but TRP a write of STKY clears condition bits alone. -/
theorem Core.clearStky_conditions (c : Core) {pg : Nat} {k : PageKind} (hk : kindOf pg = some k) (h : pg ≠ pgTRP) (w coinc : Word) :
    c.clearStky pg w coinc = (bitsOf (w &&& BitVec.ofNat 32 (condMask k))).foldl
      (fun (c : Core) b => c.clearSticky pg b (bitOf coinc b)) c := by
  simp only [Core.clearStky, pageMask, hk, h, decide_false, Bool.false_and, Bool.false_eq_true, if_false]

theorem State.clearBits_stky (s : State) (pg : Nat) (w coinc : Word) :
    s.clearBits pg 0x0C w coinc = s.onCore (fun c => c.clearStky pg w coinc) := if_pos rfl

theorem State.clearBits_sstk (s : State) (i : Fin 3) (w coinc : Word) :
    s.clearBits pgFLT (0x24 + 4 * i) w coinc = (s.onCore (fun c => c.clearSstk i w coinc)).syncFlt := by
  fin_cases i <;> rfl

/-- A clear write of an implemented page reaches its register while the paths of service are open. -/
theorem exec_stkyClear_open {s : State} (h : s.serviceRuns = true) {pg off : Nat} {k : PageKind} (hk : kindOf pg = some k)
    (ha : addrOk pg off = true) (w coinc : Word) :
    exec (.stkyClear pg off w coinc) s = .next (s.clearBits pg off w coinc).rest := by
  simp [exec_stkyClear, execStkyClear, ha, State.serviceRuns_regOpen h, hk]

theorem exec_evcClear_open {s : State} (h : s.serviceRuns = true) {pg : Nat} {k : PageKind} (hk : kindOf pg = some k) (incs : Nat) :
    exec (.evcClear pg incs) s = .next (s.after (s.core.clearEvc pg incs)) := by
  simp [exec_evcClear, execEvcClear, addrOk_of_kindOf hk, State.serviceRuns_regOpen h, State.serviceRuns_booted h, hk, State.after,
    State.onCore]

theorem Core.force_locked (c : Core) {pg : Nat} (w : Word) (h : bitOf (c.reg pg 0x18) 4 = true) : c.force pg w = c := by
  unfold Core.force
  split
  · rfl
  · exact if_pos h

theorem Core.force_open (c : Core) {pg : Nat} {k : PageKind} (hk : kindOf pg = some k) (w : Word) (h : bitOf (c.reg pg 0x18) 4 = false) :
    c.force pg w = (bitsOf (w &&& BitVec.ofNat 32 (condMask k))).foldl (fun (c : Core) b => c.forceBit pg k b) c := by
  simp only [Core.force, hk, h, Bool.false_eq_true, if_false]

/-- FRC of an implemented page written over an open port. -/
theorem exec_frcForce_open {s : State} (h : s.serviceRuns = true) {pg : Nat} {k : PageKind} (hk : kindOf pg = some k) (w : Word) :
    exec (.frcForce pg w) s = .next (s.wrote (s.core.force pg w)) := by
  rw [exec_frcForce, execFrcForce, if_pos (addrOk_of_kindOf hk (by decide) (by decide)),
    State.regWrite_core h (isSome_kindOf hk) (.inr (by decide)) rfl]

/-- LCK of an implemented page written over an open port. -/
theorem exec_lockWrite_open {s : State} (h : s.serviceRuns = true) {pg : Nat} {k : PageKind} (hk : kindOf pg = some k) (w : Word) :
    exec (.lockWrite pg w) s = .next (s.wrote (s.core.closeLocks pg w)) := by
  rw [exec_lockWrite, execLockWrite, if_pos (addrOk_of_kindOf hk (by decide) (by decide)),
    State.regWrite_core h (isSome_kindOf hk) (.inr (by decide)) rfl]

/-! ## General register writes (R7, R33) -/

/-- A write beyond the head goes to its page. -/
theorem State.writeReg_beyondHead (s : State) (pg : Nat) {off : Nat} (w : Word) (h : 0x20 ≤ off) :
    s.writeReg pg off w = s.writePage pg off w := by
  unfold State.writeReg
  split
  case h_9 => rfl
  all_goals omega

/-- SPI writes an implemented page as every port does, with nothing marked of the page (R33). -/
theorem State.portWrite_spi (s : State) {pg : Nat} {k : PageKind} (hk : kindOf pg = some k) (off : Nat) (w : Word) :
    s.portWrite .spi pg off w = s.regWrite pg off w := by
  simp [State.portWrite, State.portOpen, State.portMark, State.pageMark, State.regWrite, hk]

/-- A write over JTAG to a page that is not implemented does nothing but end its access (R33). -/
theorem State.portWrite_absent {s : State} (h : s.serviceRuns = true) {pg : Nat} (hk : kindOf pg = none) (off : Nat) (w : Word) :
    s.portWrite .jtag pg off w = s.frameEnd := by
  simp [State.portWrite, State.portOpen, State.portMark, State.hostWrite, State.serviceRuns_regOpen h, hk]

/-- A register of page THM beyond its head written over SPI (R316, R327). -/
theorem State.portWrite_thm {s : State} (h : s.serviceRuns = true) {off : Nat} (w : Word) (ho : 0x20 ≤ off) :
    s.portWrite .spi pgTHM off w = s.wrote ((s.core.putFields pgTHM .thm off w).rrkWritten s.core) := by
  have hw : s.writeReg pgTHM off w = { s with core := (s.core.putFields pgTHM .thm off w).rrkWritten s.core } :=
    State.writeReg_beyondHead s pgTHM w ho
  rw [State.portWrite_spi s (k := .thm) rfl, State.regWrite_core h rfl (.inl (by decide)) hw]

/-- Settles O13: each register of the head through the operation of the page head that it stands for. -/
theorem headRegisterWrites : Obligations.HeadRegisterWrites := by
  unfold Obligations.HeadRegisterWrites
  intro s h pg k hk
  refine ⟨fun mask coinc hp => ?stky, fun i mask coinc => ?sstk, fun incs => exec_evcClear_open h hk incs, fun mask hl => ?locked,
    fun mask hl => ?forced, fun v => exec_lockWrite_open h hk v, fun off v ha ho => ?thm, fun q off v ha hq => ?absent⟩
  case stky =>
    rw [exec_stkyClear_open h hk (addrOk_of_kindOf hk (by decide) (by decide)), State.clearBits_stky, State.onCore,
      Core.clearStky_conditions _ hk hp]
    rfl
  case sstk =>
    rw [exec_stkyClear_open h (pg := pgFLT) (k := .flt) rfl (by fin_cases i <;> rfl), State.clearBits_sstk, State.onCore]
  case locked => rw [exec_frcForce_open h hk, Core.force_locked _ _ hl]
  case forced => rw [exec_frcForce_open h hk, Core.force_open _ hk _ hl]
  case thm => rw [exec_regWrite, execRegWrite, if_pos ha, State.portWrite_thm h v ho]
  case absent => rw [exec_regWrite, execRegWrite, if_pos ha, State.portWrite_absent h hq]

/-! ## Comparators and thresholds (R220 to R228, R360, R404) -/

/-- A side of a comparator other than C50 and C51 that changes. -/
theorem State.compare_moves {s : State} (h : s.alive = true) {i : Nat} {hi b : Bool} (h50 : i ≠ 50) (h51 : i ≠ 51)
    (hm : s.core.cmpMoves i hi b = true) : s.compare i hi b = s.after ((s.core.cmpChange i hi b).xSide i hi b) := by
  simp only [State.compare, h50, h51, decide_false, Bool.or_self, Bool.false_eq_true, if_false, State.protect_eq h, hm, if_true]

theorem Core.cmpMoves_of (c : Core) {i : Nat} {hi b : Bool} (hne : c.cmpSide i hi ≠ b)
    (hold : b = true ∨ i < 8 ∨ 32 ≤ i ∨ c.stat (pgP (i - 8)) 1 = true) : c.cmpMoves i hi b = true := by
  simp only [Core.cmpMoves, Bool.and_eq_true, Bool.or_eq_true, decide_eq_true_eq]
  exact ⟨hne, by tauto⟩

/-- A change of a comparator's side is one command, named for its direction. -/
theorem exec_comparator (i : Fin 56) (hi b : Bool) (s : State) :
    (if b then exec (.comparatorAssert i hi) s else exec (.comparatorDeassert i hi) s) = .next (s.compare i hi b) := by
  cases b <;> rfl

/-- A sound threshold write of an open lock group is stored, and CMP_THR25 reaches the always-on domain (R224, R407). -/
theorem State.writeThr_stored (s : State) (i : Fin 28) (v : Word) (hl : s.core.locked pgCMP (CMP_THR_LO0 i) = false)
    (ok : (thrOrdered (2 * i) (getBits v 0 8) (getBits v 8 8) && thrOrdered (2 * i + 1) (getBits v 16 8) (getBits v 24 8)) = true) :
    s.writeReg pgCMP (0x20 + 4 * i) v =
      { s with core := s.core.setReg pgCMP (0x20 + 4 * i) v, pw := if i.val = 25 then { s.pw with thr25 := v } else s.pw } := by
  have ht : s.core.thrTaken i v = true := by simpa [Core.thrTaken, hl] using ok
  rw [State.writeCmp_thr]
  by_cases h : i.val = 25
  · rw [h] at ht ⊢
    simp [Core.writeThr, ht]
  · simp [Core.writeThr, ht, h]

/-- A threshold write of an open lock group that would leave LO above HI sets THRERR alone (R224). -/
theorem State.writeThr_refused (s : State) (i : Fin 28) (v : Word) (hl : s.core.locked pgCMP (CMP_THR_LO0 i) = false)
    (bad : (thrOrdered (2 * i) (getBits v 0 8) (getBits v 8 8) && thrOrdered (2 * i + 1) (getBits v 16 8) (getBits v 24 8)) = false) :
    s.writeReg pgCMP (0x20 + 4 * i) v = { s with core := s.core.raise pgCMP 31 } := by
  have ht : s.core.thrTaken i v = false := by simpa [Core.thrTaken, hl] using bad
  have h25 : (decide (i.val = 25) && s.core.thrTaken 25 v) = false := by
    by_cases h : i.val = 25
    · rw [← h, ht, Bool.and_false]
    · simp [h]
  simp [State.writeCmp_thr, Core.writeThr, ht, hl, h25]

/-- Settles O37: C50 and C51 go through their always-on copies, every other comparator and the writes of page CMP through
the core. -/
theorem comparatorsAndThresholds : Obligations.ComparatorsAndThresholds := by
  unfold Obligations.ComparatorsAndThresholds
  intro s c
  refine ⟨fun i hi b h h50 h51 hne hold => ?side, fun b h hg hne => ?vcc33, fun h hg hlo hhi => ?wake, fun hg hp hlo hhi => ?parked,
    fun h hg hhi => ?wakeEnd, fun i v h hl => ?threshold, fun i v h => ?mode⟩
  case side =>
    rw [exec_comparator, State.compare_moves h h50 h51 (Core.cmpMoves_of _ hne hold)]
    rfl
  case vcc33 => rw [exec_comparator, ← State.compare_vcc33 s b h hg (State.alive_not_parked h) hne]; rfl
  case wake => exact ⟨congrArg _ (State.picoChange_wake s h hg hlo hhi), congrArg _ (State.picoChange_wake s h hg hlo hhi)⟩
  case parked => exact congrArg _ (State.picoChange_parked s hg hp hlo hhi)
  case wakeEnd => exact congrArg _ (State.picoChange_wakeEnd s h hg hhi)
  case threshold =>
    have thr : exec (.cmpThresholdWrite i v) s = .next ((s.writeNow pgCMP (0x20 + 4 * i) v).rest).frameEnd :=
      congrArg _ (State.regWrite_eq h _ v rfl)
    rw [State.writeNow_eq s v (.inl (by decide))] at thr
    exact ⟨fun ok => by rw [thr, State.writeThr_stored s i v hl ok],
      fun bad => by rw [thr, State.writeThr_refused s i v hl (by simpa using bad)]; rfl⟩
  case mode => exact congrArg _ (State.regWrite_core h rfl (.inl (by decide)) (State.writeCmp_mode s i v))

/-! ## The settled machine (R8, R21, R356, R438) -/

/-- Settles O60: the core's part of the rest, the Bakehouse, the freeze and the arbiter's request each find nothing to do. -/
theorem settledStatesStay : Obligations.SettledStatesStay := by
  unfold Obligations.SettledStatesStay
  intro s c hports harrived hcurrent htests hburn hhost hask hhold hout hslices htrips hring hbake hfreeze
  exact State.rest_fixed (s := { s with core := c })
    (Core.done_fixed hports harrived hcurrent hhold hout hslices htrips hring htests hburn hhost)
    hbake (hask.imp id Core.askRecord_fixed) hfreeze

end Sys2Proof.Machine

/-! PROOFS of the statements of the architecture family: a period of time, the detectors of the rails, and the reads that
have a side effect. -/
namespace Sys2Proof.Machine

/-! ## A period with no command waiting (R14, R233, R271) -/

/-- With an empty queue a step is a period of time (log 2). -/
theorem step_idle {s : State} (h : s.pending = []) : step s = .next s.idle := by rw [step, h]

theorem State.idle_inReset {s : State} (h : s.alive = false) : s.idle = s := by simp [State.idle, h]

theorem State.idle_alive {s : State} (h : s.alive = true) : s.idle = s.after s.core.tick := if_pos h

/-- Settles O2: time runs exactly while the core is out of reset. -/
theorem idleStepPassesOnePeriod : Obligations.IdleStepPassesOnePeriod := by
  unfold Obligations.IdleStepPassesOnePeriod
  intro s hq
  rw [step_idle hq]
  exact ⟨fun h => by rw [State.idle_inReset h], fun h => by rw [State.idle_alive h]; rfl⟩

/-! ## Detectors of the rails (R15, R67, R105) -/

/-- The sense-open detector of a rail whose level is not yet present (R67). -/
theorem Core.senseOpen_new (c : Core) (n : Nat) (h : c.stat (pgV n) 9 = false) :
    c.senseOpen n = ((c.setLevel (pgV n) 9 true).setLive 0x05 (mkAddr 1 n) true).send 0x05 0 (mkAddr 1 n) := by
  rw [Core.senseOpen, h]; rfl

/-- A stage-fault detector that changes (R105, R106, R207). -/
theorem Core.stageFault_changes (c : Core) (g : Nat) (on : Bool) (h : (c.prot.stg[g]?).getD false = !on) :
    c.stageFault g on =
      (let d := ((List.range 8).foldl (fun (c : Core) j => c.setLevel (pgP (8 * g + j)) 7 on)
         { c with prot := { c.prot with stg := c.prot.stg.set g on } }).syncStages
       (d.lentOwners g).foldl (fun (c : Core) o => c.sendMsg o (.faultRelay g on)) d) := by
  rw [Core.stageFault]
  exact if_neg (by rw [h]; cases on <;> decide)

/-- The detector of a stage group acts once TMON has stood beyond its level for long enough: 200 ns low, or 1,000 ns
above (R105). -/
theorem exec_stageDetector {s : State} (h : s.alive = true) (g : Fin 3) {ns : Nat} {on : Bool} (ht : (if on then 200 else 1000) ≤ ns) :
    (if on then exec (.stgfltTrip g ns) s else exec (.stgfltRelease g ns) s) = .next (s.after (s.core.stageFault g on)) := by
  cases on with
  | true => rw [if_pos rfl, exec_stgfltTrip, execStgfltTrip, State.protect_eq h, if_pos (by simpa using ht)]
  | false => rw [if_neg (by decide), exec_stgfltRelease, execStgfltRelease, State.protect_eq h, if_pos (by simpa using ht)]

/-- Settles O25: protection paths run while the core is out of reset, and each detector acts on a change alone. -/
theorem detectorsOfRails : Obligations.DetectorsOfRails := by
  unfold Obligations.DetectorsOfRails
  intro s h c
  refine ⟨fun k => ?pace, fun n hn => ?opens, fun n => ?closes, fun g ns on hg ht => ?stage⟩
  case pace => rw [exec_pacemiss, execPacemiss, State.protect_eq h]
  case opens => rw [exec_snsopen, execSnsopen, State.protect_eq h, Core.senseOpen_new _ _ hn]
  case closes => rw [exec_snsopenRelease, execSnsopenRelease, State.protect_eq h, Core.senseClosed]
  case stage => rw [exec_stageDetector h g ht, Core.stageFault_changes _ _ _ hg]

/-! ## Reads with a side effect (R20, R33, R35) -/

/-- A complete read over SPI marks a page that is not implemented, reads with its side effect and answers (R33, R35). -/
theorem State.portRead_spi {s t : State} {w : Word} {pg off : Nat} (h : s.serviceRuns = true)
    (hr : (s.pageMark pg).readReg .spi pg off = (w, t)) : s.portRead .spi pg off = t.onCore (fun c => c.answer .spi w) := by
  have hp : s.portOpen .spi = true := State.serviceRuns_regOpen h
  have hm : s.portMark .spi pg = s.pageMark pg := rfl
  rw [State.portRead, if_pos hp, hm, hr]

theorem State.pageMark_implemented (s : State) {pg : Nat} {k : PageKind} (hk : kindOf pg = some k) : s.pageMark pg = s := by
  rw [State.pageMark, hk]; rfl

/-- A read over SPI of an implemented page, from what the read of its register does. -/
theorem State.portRead_implemented {s t : State} {w : Word} {pg off : Nat} {k : PageKind} (h : s.serviceRuns = true) (hk : kindOf pg = some k)
    (hr : s.readReg .spi pg off = (w, t)) : s.portRead .spi pg off = t.onCore (fun c => c.answer .spi w) :=
  State.portRead_spi h (by rw [State.pageMark_implemented s hk, hr])

/-- A page that is not implemented reads 0 with no side effect (R33). -/
theorem State.readReg_absent (s : State) (p : HostPort) {pg : Nat} (hk : kindOf pg = none) (off : Nat) : s.readReg p pg off = (0, s) := by
  have h0 : s.peek pg off = 0 := by rw [State.peek, hk]
  simp [State.readReg, h0, hk]

/-- A read over JTAG has no side effect (R443). -/
theorem State.readReg_jtag (s : State) (pg off : Nat) : s.readReg .jtag pg off = (s.peek pg off, s) := by
  rw [State.readReg]; exact if_pos rfl

/-- A read over JTAG changes nothing but the port. -/
theorem State.portRead_jtag {s : State} (h : s.serviceRuns = true) (pg off : Nat) :
    s.portRead .jtag pg off = s.onCore (fun c => c.answer .jtag (s.peek pg off)) := by
  have hp : s.portOpen .jtag = true := State.serviceRuns_regOpen h
  have hr : (s.portMark .jtag pg).readReg .jtag pg off = (s.peek pg off, s) := State.readReg_jtag s pg off
  rw [State.portRead, if_pos hp, hr]

/-- A read of TLM_PKR outside a freeze takes its peaks (R289). -/
theorem State.readReg_pkr {s : State} (hd : s.core.rpr.depth = 0) :
    s.readReg .spi pgTLM 0x34 = (s.core.pkrRead.1, { s with core := s.core.pkrRead.2 }) := if_pos hd

/-- A read of CRB_RDATA outside a freeze takes the head of the receive buffer (R305). -/
theorem State.readReg_rdata {s : State} (hd : s.core.rpr.depth = 0) {w : Word} {l : List Word} (hb : s.core.crb.rbuf = w :: l) :
    s.readReg .spi pgCRB 0x3C =
      (w, { s with core := { s.core with crb := { s.core.crb with rbuf := l, rrp := (s.core.crb.rrp + 1) % 2048 } } }) := by
  have hr : s.core.rdataRead .spi = (w, { s.core with crb := { s.core.crb with rbuf := l, rrp := (s.core.crb.rrp + 1) % 2048 } }) := by
    simp [Core.rdataRead, hd, hb]
  change ((s.core.rdataRead .spi).1, ({ s with core := (s.core.rdataRead .spi).2 } : State)) = _
  rw [hr]

/-- A read of CRB_RDATA with nothing received answers the idle word and changes nothing (R294, R305). -/
theorem State.readReg_rdata_empty {s : State} (hd : s.core.rpr.depth = 0) (hb : s.core.crb.rbuf = []) :
    s.readReg .spi pgCRB 0x3C = (idleWord, s) := by
  have hr : s.core.rdataRead .spi = (idleWord, s.core) := by simp [Core.rdataRead, hd, hb]
  change ((s.core.rdataRead .spi).1, ({ s with core := (s.core.rdataRead .spi).2 } : State)) = _
  rw [hr]

/-- A read of CRB_DATA over SPI pops the head word of an open FIFO, and what waited moves on into its room (R296, R297). -/
theorem State.readReg_crumb {s : State} (ho : s.core.crumbClosed = false) (hf : s.core.crb.fifo ≠ []) :
    s.readReg .spi pgCRB 0x24 = (s.core.crumbHead, { s with core :=
      (((({ s.core with crb := { s.core.crb with fifo := s.core.crb.fifo.drop 1, rp := (s.core.crb.rp + 1) % 2048 } }).syncFull).moveOn).judgeLevel
        s.core.crb.fifo.length).done }) := by
  change ((s.core.crumbRead .spi).1, ({ s with core := (s.core.crumbRead .spi).2.done } : State)) = _
  rw [Core.crumbRead, if_neg (by simp [ho, hf])]

theorem kindOf_pgV (n : Fin 8) : kindOf (pgV n) = some .v := by fin_cases n <;> rfl
theorem kindOf_pgE (j : Fin 10) : kindOf (pgE j) = some .e := by fin_cases j <;> rfl

/-- A read of a WINMON starts its extremes again (R98). -/
theorem State.readReg_winmon (s : State) (n : Fin 8) :
    s.readReg .spi (pgV n) 0x54 = (s.peek (pgV n) 0x54, s.onCore (fun c =>
      (c.setFld (pgV n) V_WINMON_MIN V_WINMON_MIN.rst).setFld (pgV n) V_WINMON_MAX V_WINMON_MAX.rst)) := by
  fin_cases n <;> rfl

/-- A read of an En_LAT starts its MAX again (R81). -/
theorem State.readReg_enLat (s : State) (j : Fin 10) :
    s.readReg .spi (pgE j) 0x24 = (s.peek (pgE j) 0x24, s.onCore (fun c => c.setFld (pgE j) E_LAT_MAX 0)) := by
  fin_cases j <;> rfl

/-- Settles O21: what each register's read does over SPI, answered by the port. -/
theorem readsWithASideEffect : Obligations.ReadsWithASideEffect := by
  unfold Obligations.ReadsWithASideEffect
  intro s h ans c
  have hd : s.core.rpr.depth = 0 := State.serviceRuns_depth h
  refine ⟨fun n => ?winmon, fun j => ?lat, ?tags, ?latch, ?time, ?peaks, ?rack, fun w l hb => ?rdata, fun hb => ?rdataEmpty,
    fun ho hf => ?crumb, ?jtag, fun pg off hk => ?absent⟩
  case winmon => exact congrArg _ (State.portRead_implemented h (kindOf_pgV n) (State.readReg_winmon s n))
  case lat => exact congrArg _ (State.portRead_implemented h (kindOf_pgE j) (State.readReg_enLat s j))
  case tags => exact congrArg _ (State.portRead_implemented (pg := pgCMD) (k := .cmd) h rfl rfl)
  case latch => exact congrArg _ (State.portRead_implemented (pg := pgFLT) (k := .flt) h rfl rfl)
  case time => exact congrArg _ (State.portRead_implemented (pg := pgDEV) (k := .dev) h rfl rfl)
  case peaks => exact congrArg _ (State.portRead_implemented (k := .tlm) h rfl (State.readReg_pkr hd))
  case rack => exact congrArg _ (State.portRead_implemented (pg := pgRPR) (k := .rpr) h rfl rfl)
  case rdata => exact congrArg _ (State.portRead_implemented (k := .crb) h rfl (State.readReg_rdata hd hb))
  case rdataEmpty => exact congrArg _ (State.portRead_implemented (k := .crb) h rfl (State.readReg_rdata_empty hd hb))
  case crumb =>
    rw [exec_crbDataRead, execCrbDataRead, State.portRead_implemented (k := .crb) h rfl (State.readReg_crumb ho hf)]
    dsimp only [ans, c, State.onCore, Core.answer]
  case jtag => exact congrArg _ (State.portRead_jtag h pgCRB 0x24)
  case absent =>
    rw [State.portRead_spi h (State.readReg_absent (s.pageMark pg) .spi hk off), State.pageMark, hk]
    rfl

end Sys2Proof.Machine

/-! PROOFS of the statements of the family of register pages and host ports: page resets, SPI frames, SMBus and PMBus
commands, pages that are not implemented, the interrupt summary, port assignments, and BOOT. -/
namespace Sys2Proof.Machine

/-! ## Page resets (R25, R26, R29, R417) -/

/-- Settles O11: what each register of the page is after the reset is the lemma on page resets. -/
theorem pageResetReturnsFields : Obligations.PageResetReturnsFields := by
  unfold Obligations.PageResetReturnsFields
  exact fun c pg keep k hk => c.resetPage_spec hk keep

/-- A page reset over an open port acts on its page and lets the machine come to rest (R25). -/
theorem State.prst_eq {s : State} (h : s.serviceRuns = true) {pg : Nat} {k : PageKind} (hk : kindOf pg = some k) :
    s.prst pg = (s.pageReset pg).rest.frameEnd := by
  have hw : s.writeReg pg 0x04 0x80000000 = s.pageReset pg :=
    if_pos (c := bitOf (0x80000000 : Word) 31 = true) (e := s.writePage pg 0x04 0x80000000) (by decide)
  rw [State.prst, State.regWrite_eq h _ _ (isSome_kindOf hk), State.writeNow_eq _ _ (.inr (by decide)), hw]

/-- A page reset that changes the core alone. -/
theorem State.prst_core {s : State} (h : s.serviceRuns = true) {pg : Nat} {k : PageKind} (hk : kindOf pg = some k) {c : Core}
    (hr : s.pageReset pg = { s with core := c }) : s.prst pg = s.wrote c := by
  rw [State.prst_eq h hk, hr]; rfl

theorem exec_pageReset_eq {s : State} (h : s.serviceRuns = true) {pg : Nat} {k : PageKind} (hk : kindOf pg = some k) :
    exec (.pageReset pg) s = .next (s.pageReset pg).rest.frameEnd := by
  rw [exec_pageReset, execPageReset, if_pos (addrOk_of_kindOf hk (by decide) (by decide)), State.prst_eq h hk]

theorem exec_pageReset_core {s : State} (h : s.serviceRuns = true) {pg : Nat} {k : PageKind} (hk : kindOf pg = some k) {c : Core}
    (hr : s.pageReset pg = { s with core := c }) : exec (.pageReset pg) s = .next (s.wrote c) := by
  rw [exec_pageReset_eq h hk, hr]; rfl

theorem kindOf_pgP (k : Fin 24) : kindOf (pgP k) = some .p := by fin_cases k <;> rfl

theorem State.pageReset_port (s : State) (k : Fin 24) : s.pageReset (pgP k) = s.onCore (fun c => c.portPageReset k) := by
  fin_cases k <;> rfl
theorem State.pageReset_engine (s : State) (j : Fin 10) : s.pageReset (pgE j) = s.onCore (fun c => c.engPageReset j) := by
  fin_cases j <;> rfl
theorem State.pageReset_rail (s : State) (n : Fin 8) : s.pageReset (pgV n) = s.onCore (fun c => c.railPageReset n) := by
  fin_cases n <;> rfl

/-- A reset of a context page or a tag page is one of the command engine (R170). -/
theorem State.pageReset_commandEngine (s : State) {pg : Nat} {k : PageKind} (hk : kindOf pg = some k) (h : k = .cmd ∨ k = .ctx ∨ k = .tag) :
    s.pageReset pg = s.onCore (fun c => c.cmdReset pg) := by
  obtain rfl | rfl | rfl := h <;> rw [State.pageReset, hk]

theorem Core.cmdReset_due (c : Core) (pg : Nat) (h : c.readsOn ≠ 0) :
    c.cmdReset pg = { c with cmd := { c.cmd with resetDue := true, resetPgs := pg :: c.cmd.resetPgs } } := if_pos h
theorem Core.cmdReset_now (c : Core) (pg : Nat) (h : c.readsOn = 0) : c.cmdReset pg = c.cmdResetNow := if_neg (not_not.mpr h)

/-- The reset of page THM begins a round again while the housekeeping runs (R314). -/
theorem State.thmPageReset_running {s : State} (h : s.serviceRuns = true) :
    s.thmPageReset = { s with core := (s.core.resetPage pgTHM (fun _ => false)).thmClear.thmStart } := by
  have hr : s.thmRuns = true := by simp [State.thmRuns, State.serviceRuns_alive h, State.serviceRuns_booted h]
  simp only [State.thmPageReset, hr, if_true]; rfl

theorem State.fltPageReset_eq (s : State) : s.fltPageReset = ({ s with core :=
      ({ s.core.resetPage pgFLT (fun f => 0x24 ≤ f.off && f.off < 0x3C) with flt := { s.core.flt with snap := [] } } : Core).setFld pgFLT FLT_LATCH_MAXDEPTH s.core.flt.latch.length } : State).syncFlt := by
  simp only [State.fltPageReset, State.onCore, Core.resetPage_flt]

/-- A reset of HST that is due takes effect once no frame is in progress (R62). -/
theorem State.frameEnd_hstReset {t : State} (h1 : t.core.hst.stream = none) (h2 : t.core.hst.resetDue = true)
    (h3 : t.core.hst.swrstDue = false) : t.frameEnd = t.onCore Core.hstPageReset := by
  have h4 : t.core.hstPageReset.hst.swrstDue = false := by
    simp [Core.hstPageReset, Core.resetOnly, h3]
  simp [State.frameEnd, State.onCore, h1, h2, h4]

/-- Settles O14: each reset through the operation of its page. -/
theorem pageResetCommands : Obligations.PageResetCommands := by
  unfold Obligations.PageResetCommands
  intro s h
  refine ⟨fun k => ?port, ?orp, ?dev, fun j => ?engine, fun n => ?rail, fun pg hk => ?item, fun hr => ?cmdDue, ?sec, ?nvm, ?bkh, ?lnk,
    ?aux, ?rpr, ?fsv, ?hst, fun t h1 h2 h3 => State.frameEnd_hstReset h1 h2 h3, fun hr => ?cmdNow, ?cmp, ?trp, ?tlm, ?crb, ?thm, ?flt⟩
  case port => exact exec_pageReset_core h (kindOf_pgP k) (State.pageReset_port s k)
  case orp => exact exec_pageReset_core h (k := .orp) rfl rfl
  case dev => exact exec_pageReset_core h (k := .dev) rfl rfl
  case engine => exact exec_pageReset_core h (kindOf_pgE j) (State.pageReset_engine s j)
  case rail => exact congrArg _ (State.prst_core h (kindOf_pgV n) (State.pageReset_rail s n))
  case item =>
    have item {k : PageKind} (hk : kindOf pg = some k) (ht : k = .ctx ∨ k = .tag) :
        exec (.pageReset pg) s = .next (s.wrote (s.core.cmdReset pg)) :=
      exec_pageReset_core h hk (State.pageReset_commandEngine s hk (.inr ht))
    exact hk.elim (fun hk => item hk (.inl rfl)) (fun hk => item hk (.inr rfl))
  case cmdDue =>
    rw [← Core.cmdReset_due _ _ hr]
    exact congrArg _ (State.prst_core h (k := .cmd) rfl rfl)
  case cmdNow =>
    rw [← Core.cmdReset_now _ pgCMD hr]
    exact congrArg _ (State.prst_core h (k := .cmd) rfl rfl)
  case sec => exact exec_pageReset_core h (k := .sec) rfl rfl
  case nvm => exact exec_pageReset_core h (k := .nvm) rfl rfl
  case bkh => exact exec_pageReset_eq h (k := .bkh) rfl
  case lnk => exact exec_pageReset_core h (k := .lnk) rfl rfl
  case aux => exact exec_pageReset_core h (k := .aux) rfl rfl
  case rpr => exact exec_pageReset_core h (k := .rpr) rfl rfl
  case fsv => exact exec_pageReset_eq h (k := .fsv) rfl
  case hst => exact congrArg _ (State.prst_core h (k := .hst) rfl rfl)
  case cmp => exact congrArg _ (State.prst_eq h (k := .cmp) rfl)
  case trp => exact congrArg _ (State.prst_core h (k := .trp) rfl rfl)
  case tlm => exact congrArg _ (State.prst_core h (k := .tlm) rfl rfl)
  case crb => exact congrArg _ (State.prst_core h (k := .crb) rfl rfl)
  case thm => exact congrArg _ (State.prst_core h (pg := pgTHM) (k := .thm) rfl (State.thmPageReset_running h))
  case flt =>
    rw [← State.fltPageReset_eq]
    exact congrArg _ (State.prst_eq h (k := .flt) rfl)

/-! ## SPI frames (R36 to R45) -/

/-- Bit 1 of the status byte is ALERT, and bit 4 PAGE_ERR (R40). -/
theorem State.spiStatus_alert (s : State) (hcrc dcrc page frame : Bool) : (s.spiStatus hcrc dcrc page frame).getLsbD 1 = s.alert := by
  unfold State.spiStatus
  generalize s.core.hst.prevAbort = e, s.alert = f, s.faultLow = g
  revert hcrc dcrc page frame e f g
  decide

theorem State.spiStatus_pageErr (s : State) (hcrc dcrc page frame : Bool) : (s.spiStatus hcrc dcrc page frame).getLsbD 4 = page := by
  unfold State.spiStatus
  generalize s.core.hst.prevAbort = e, s.alert = f, s.faultLow = g
  revert hcrc dcrc page frame e f g
  decide

theorem State.pageMark_absent (s : State) {pg : Nat} (hk : kindOf pg = none) : s.pageMark pg = { s with core := s.core.raise pgHST 3 } := by
  rw [State.pageMark, hk]; rfl

theorem isNone_of_isSome {pg : Nat} (h : (kindOf pg).isSome = true) : (kindOf pg).isNone = false := by
  rw [← Option.not_isSome, h]; rfl

theorem State.pageMark_of_isSome (s : State) {pg : Nat} (hk : (kindOf pg).isSome = true) : s.pageMark pg = s := by
  rw [State.pageMark, isNone_of_isSome hk]; rfl

/-- A header of single mode that may be carried out asks for one word (R39). -/
theorem cmdCnt_single {cmd off : Byte} (hf : frameBad cmd off = false) (hm : cmdMode cmd = 0) : cmdCnt cmd = 0 := by
  by_contra hc
  simp [frameBad, hm, hc] at hf

theorem frameOffs_single {cmd off : Byte} (hf : frameBad cmd off = false) (hm : cmdMode cmd = 0) : frameOffs cmd off = [off.toNat] := by
  rw [frameOffs, cmdCnt_single hf hm, hm]; rfl

theorem frameOffs_burst {cmd off : Byte} (hm : cmdMode cmd = 1) :
    frameOffs cmd off = (List.range (cmdCnt cmd + 1)).map (fun i => off.toNat + 4 * i) := by
  simp only [frameOffs, hm, if_true]

theorem State.readWords_one (s : State) (pg o : Nat) :
    s.readWords pg [o] = (wordBytes (s.readReg .spi pg o).1, (s.readReg .spi pg o).2) := rfl

section
variable {s : State} {cmd pg off hcrc : Byte} (ho : s.regOpen = true) (hs : s.core.hst.stream = none)
include ho hs

/-- A read frame of single or burst mode with a good header (R43). -/
theorem State.spiRead_taken (hc : crc8 [cmd, pg, off] = hcrc) (hf : frameBad cmd off = false) (hw : cmdWr cmd = false) {mode : Nat}
    (hm : cmdMode cmd = mode) (waits : Nat) :
    s.spiRead mode cmd pg off hcrc waits =
      (let t := s.pageMark pg.toNat
       let st := t.spiStatus false false (kindOf pg.toNat).isNone false
       let r := t.readWords pg.toNat (frameOffs cmd off)
       (r.2.spiEnd (waitBytes (min 4 waits) ++ [st] ++ r.1 ++ [crc8 (st :: r.1)]) false).frameEnd) := by
  simp [State.spiRead, ho, hs, hcrcBad, hc, hf, hw, hm]

/-- A read frame of stream mode with a good header on an implemented page (R44). -/
theorem State.spiStream_taken (hc : crc8 [cmd, pg, off] = hcrc) (hf : frameBad cmd off = false) (hw : cmdWr cmd = false)
    (hm : cmdMode cmd = 2) (hk : (kindOf pg.toNat).isSome = true) (waits : Nat) :
    s.spiStream cmd pg off hcrc waits =
      s.streamOn pg.toNat off.toNat (cmdCnt cmd + 1) (waitBytes waits ++ [s.spiStatus false false false false]) := by
  simp [State.spiStream, ho, hs, hcrcBad, hc, hf, hw, hm, State.pageMark_of_isSome s hk, isNone_of_isSome hk]

/-- A read frame whose header's CRC fails (R39). -/
theorem State.spiRead_refused (hc : crc8 [cmd, pg, off] ≠ hcrc) (hf : frameBad cmd off = false) (mode waits : Nat) :
    s.spiRead mode cmd pg off hcrc waits = s.spiRefuse true false (4 * (cmdCnt cmd + 1) + 1) := by
  simp [State.spiRead, ho, hs, hcrcBad, hc, hf]

/-- A write frame with a header that no frame may carry (R39). -/
theorem State.spiWrite_refused (hc : crc8 [cmd, pg, off] = hcrc) (hf : frameBad cmd off = true) (mode : Nat) (data : List Byte)
    (dcrc : Byte) :
    s.spiWrite mode cmd pg off hcrc data dcrc = s.spiRefuse false true (data.length + 2) := by
  simp [State.spiWrite, ho, hs, hcrcBad, hc, hf]

section
variable (hc : crc8 [cmd, pg, off] = hcrc) (hf : frameBad cmd off = false) (hw : cmdWr cmd = true) {mode : Nat} (hm : cmdMode cmd = mode)
  {data : List Byte} {dcrc : Byte} (hl : data.length = 4 * (cmdCnt cmd + 1))
include hc hf hw hm hl

/-- A write frame with a good header whose data match their CRC (R41). -/
theorem State.spiWrite_taken (hd : crc8 data = dcrc) :
    s.spiWrite mode cmd pg off hcrc data dcrc =
      (let t := s.pageMark pg.toNat
       let st := t.spiStatus false false (kindOf pg.toNat).isNone false
       ((t.spiEnd (waitBytes (data.length + 1) ++ [st, crc8 [st]]) false).writeWords .spi pg.toNat (frameOffs cmd off) data).frameEnd) := by
  simp [State.spiWrite, ho, hs, hcrcBad, hc, hf, hw, hm, ← hl, hd]

/-- A write frame to an implemented page whose data do not match their CRC (R41). -/
theorem State.spiWrite_badData (hk : (kindOf pg.toNat).isSome = true) (hd : crc8 data ≠ dcrc) :
    s.spiWrite mode cmd pg off hcrc data dcrc =
      (let u : State := { s with core := (s.core.raise pgHST 1).incSat pgHST HST_SPICNT_DCRCCNT 1 }
       let st := u.spiStatus false true false false
       (u.spiEnd (waitBytes (data.length + 1) ++ [st, crc8 [st]]) false).frameEnd) := by
  simp [State.spiWrite, ho, hs, hcrcBad, hc, hf, hw, hm, ← hl, hd, State.pageMark_of_isSome s hk, isNone_of_isSome hk, State.onCore]

end

/-- SPI_CS_N rises before the header is whole and no frame waits (R42). -/
theorem State.spiAbort_short {hdr : List Byte} (hl : hdr.length < 4) (words : Nat) (bad : Bool) :
    s.spiAbort hdr words bad = ((({ s with core := s.core.raise pgHST 4 } : State).spiEnd [] true).frameEnd) := by
  simp only [State.spiAbort, ho, hs, Bool.not_true, Bool.false_eq_true, if_false]
  split
  · simp at hl
  · rfl

end

/-- A frame that waits in a slot is cut short (R35, R42). -/
theorem State.spiAbort_waiting {s : State} (ho : s.regOpen = true) {x : Stream} (hs : s.core.hst.stream = some x) (hdr : List Byte)
    (words : Nat) (bad : Bool) :
    s.spiAbort hdr words bad =
      (let t := (s.fillSlots x.page x.off (min words x.left) []).2.2
       (({ t with core := t.core.raise pgHST 4 } : State).spiEnd [] true).frameEnd) := by
  simp only [State.spiAbort, ho, hs, Bool.not_true, Bool.false_eq_true, if_false]; rfl

/-- A slot whose port has no item waits (R45). -/
theorem State.streamOn_waits {s : State} {pg off : Nat} (hp : s.core.streamPort pg off = some false) (k : Nat) (out : List Byte) :
    s.streamOn pg off (k + 1) out =
      s.onCore (fun c => { c with hst := { c.hst with miso := out, stream := some ⟨pg, off, k + 1⟩ } }) := by
  simp [State.streamOn, State.fillSlots, hp]

/-- The last slot of a frame is filled with its word, and the frame ends with RCRC (R44). -/
theorem State.streamOn_last {s : State} {pg off : Nat} (hp : s.core.streamPort pg off ≠ some false) (out : List Byte) :
    s.streamOn pg off 1 out =
      (let r := s.readReg .spi pg off
       let out := out ++ [0xA5#8] ++ wordBytes r.1
       (r.2.spiEnd (out ++ [crc8 (fromStatus out)]) false).frameEnd) := by
  simp [State.streamOn, State.fillSlots, hp]

theorem State.slotFill_last {s : State} (ho : s.regOpen = true) {pg off waits : Nat} (hs : s.core.hst.stream = some ⟨pg, off, 1⟩)
    (h1 : 1 ≤ waits) (h2 : waits < s.core.waitMax) (hp : s.core.streamPort pg off = some true) :
    s.slotFill waits = s.streamOn pg off 1 (s.core.hst.miso ++ waitBytes waits) := by
  simp [State.slotFill, hs, ho, h1, h2, hp]

/-- Settles O15: a frame on an implemented page marks nothing, and its words are read in turn or wait in a slot. -/
theorem spiReadFrames : Obligations.SpiReadFrames := by
  unfold Obligations.SpiReadFrames
  intro s cmd pg off hcrc waits ho hs hc hf hw hk st
  refine ⟨fun hm => ?single, fun hm => ?burst, fun hm hp => ?waits, fun hm h0 hp => ?last⟩
  case single =>
    rw [exec_spiReadSingle, execSpiReadSingle, State.spiRead_taken ho hs hc hf hw hm, State.pageMark_of_isSome s hk, isNone_of_isSome hk,
      frameOffs_single hf hm]
    simp only [State.readWords_one, st]
  case burst =>
    rw [exec_spiReadBurst, execSpiReadBurst, State.spiRead_taken ho hs hc hf hw hm, State.pageMark_of_isSome s hk, isNone_of_isSome hk,
      frameOffs_burst hm]
  case waits =>
    rw [exec_spiReadStream, execSpiReadStream, State.spiStream_taken ho hs hc hf hw hm hk, State.streamOn_waits hp, State.onCore]
  case last =>
    rw [exec_spiReadStream, execSpiReadStream, State.spiStream_taken ho hs hc hf hw hm hk, h0, State.streamOn_last hp]

/-- Settles O16: a refused header goes no further than its marks, and a waiting frame ends cut short, filled or abandoned. -/
theorem spiFramesRefusedAbortedOrWaiting : Obligations.SpiFramesRefusedAbortedOrWaiting := by
  unfold Obligations.SpiFramesRefusedAbortedOrWaiting
  intro s ho
  refine ⟨fun cmd pg off hcrc waits hs hc hf => ?hcrc, fun cmd pg off hcrc data dcrc hs hc hf => ?frame,
    fun hdr words bad hs hl => ?short, fun hdr pg off left words bad hs => ?cut, fun pg off waits hs h1 h2 hp => ?filled,
    fun pg off left hs hp => ?abandoned⟩
  case hcrc => exact congrArg _ (State.spiRead_refused ho hs hc hf 0 waits)
  case frame => exact congrArg _ (State.spiWrite_refused ho hs hc hf 0 data dcrc)
  case short => exact congrArg _ (State.spiAbort_short ho hs hl words bad)
  case cut => exact congrArg _ (State.spiAbort_waiting ho hs hdr words bad)
  case filled =>
    rw [exec_spiStreamSlotFill, execSpiStreamSlotFill, State.slotFill_last ho hs h1 h2 hp, State.streamOn_last (by rw [hp]; decide)]
  case abandoned =>
    simp only [exec_spiStrabn, execSpiStrabn, State.slotAbandon, hs, ho, hp]
    rfl

/-- Settles O17: the words go one after another to the page while the port stays open. -/
theorem spiWriteFrames : Obligations.SpiWriteFrames := by
  unfold Obligations.SpiWriteFrames
  intro s cmd pg off hcrc data dcrc ho hs hc hf hw hk hl st t
  have hto : t.regOpen = true := ho
  have one (o : Nat) (l : List Nat) (h : t.regOpen = true) :
      t.writeWords .spi pg.toNat (o :: l) data =
        (t.hostWrite .spi pg.toNat o (bytesWord (data.take 4))).writeWords .spi pg.toNat l (data.drop 4) := by
    rw [State.writeWords, if_pos h]
  refine ⟨fun hm hd => ?single, fun hm hd => ?burst, one, fun hm hd => ?dcrc⟩
  case single =>
    rw [exec_spiWriteSingle, execSpiWriteSingle, State.spiWrite_taken ho hs hc hf hw hm hl hd, State.pageMark_of_isSome s hk,
      isNone_of_isSome hk, frameOffs_single hf hm]
    exact congrArg (fun u : State => Host.Outcome.next u.frameEnd) (one off.toNat [] hto)
  case burst =>
    rw [exec_spiWriteBurst, execSpiWriteBurst, State.spiWrite_taken ho hs hc hf hw hm hl hd, State.pageMark_of_isSome s hk,
      isNone_of_isSome hk, frameOffs_burst hm]
  case dcrc => exact congrArg _ (State.spiWrite_badData ho hs hc hf hw hm hl hk hd)

/-! ## The interrupt summary (R30, R40, R51) -/

theorem Core.irq_iff (c : Core) (pg : Nat) : c.irq pg = true ↔ (c.reg pg 0x0C &&& c.reg pg 0x10) ≠ 0 := by
  rw [Core.irq, decide_eq_true_eq]

/-- HST_ISUM0 to HST_ISUM2 read the summaries of 32 pages each (R30, R61). -/
theorem State.peek_isum (s : State) {i : Nat} (h : i < 3) : s.peek pgHST (0x40 + 4 * i) = s.core.isum (32 * i) := by
  interval_cases i <;> rfl

/-- With no alert response behind it, ALERT follows the interrupts of the pages once BOOT has ended (R51, R414). -/
theorem State.alert_booted {s : State} (hb : s.booted = true) (hr : s.core.hst.alertRel = false) : s.alert = s.core.anyIrq := by
  simp [State.alert, hb, hr]

/-- Settles O54: each summary's bit is its page's interrupt, and the pin and the ALERT bit stand for any of them. -/
theorem interruptSummary : Obligations.InterruptSummary := by
  unfold Obligations.InterruptSummary
  intro s raised
  have irq (pg : Nat) : ((kindOf pg).isSome && s.core.irq pg) = true ↔ (kindOf pg).isSome = true ∧ raised pg := by
    rw [Bool.and_eq_true, Core.irq_iff]
  refine ⟨fun pg hp => ?bit, fun hb hr => ?_⟩
  case bit =>
    rw [State.peek_isum s (by omega), Core.isum_bit _ _ _ (Nat.mod_lt _ (by decide)), Nat.div_add_mod, irq]
  have any : s.alert = true ↔ ∃ pg < 96, (kindOf pg).isSome = true ∧ raised pg := by
    rw [State.alert_booted hb hr, Core.anyIrq_iff]
    simp only [irq]
  refine ⟨fun hm => ?pin, fun hcrc dcrc page frame => ?status⟩
  case pin => rw [State.alertPin, hm, Bool.not_false, Bool.and_true]; exact any
  case status => rw [State.spiStatus_alert]; exact any

/-! ## SMBus transactions (R46 to R51, R57, R58) -/

/-- A read answers its bytes and changes nothing else (R50). -/
theorem State.smbRead_open {s : State} (h : s.smbOpen = true) (code : Byte) (pec : Bool) (f : State → List Byte) :
    s.smbRead code pec f = s.answered (s.core.smbBytes code pec (f s)) := if_pos h

/-- A write with a good PEC that WRITE_PROTECT lets through is acknowledged and carried out (R50, R58). -/
theorem State.smbWrite_taken {s : State} (h : s.smbOpen = true) {pec : Pec} (hp : s.core.pecBad pec = false) {k : WpClass}
    (hw : s.core.wpRefuses k = false) (f : State → State) : s.smbWrite k pec f = (f (s.answered [])).rest.frameEnd := by
  simp only [State.smbWrite, h, hp, hw, Bool.not_true, Bool.false_eq_true, if_false]; rfl

/-- A write that WRITE_PROTECT refuses is invalid data (R58). -/
theorem State.smbWrite_refused {s : State} (h : s.smbOpen = true) {pec : Pec} (hp : s.core.pecBad pec = false) {k : WpClass}
    (hw : s.core.wpRefuses k = true) (f : State → State) : s.smbWrite k pec f = { s with core := s.core.invalid } := by
  simp only [State.smbWrite, h, hp, hw, Bool.not_true, Bool.false_eq_true, if_false, if_true]; rfl

/-- A write whose PEC fails is discarded and counted (R50). -/
theorem State.smbWrite_badPec {s : State} (h : s.smbOpen = true) {pec : Pec} (hp : s.core.pecBad pec = true) (k : WpClass)
    (f : State → State) : s.smbWrite k pec f = { s with core := s.core.pecFail } := by
  simp only [State.smbWrite, h, hp, Bool.not_true, Bool.false_eq_true, if_false, if_true]; rfl

/-- With WPROT 0 every write passes, and MFR_WINDOW_ADDR's class passes always (R58). -/
theorem Core.wpRefuses_unprotected {c : Core} (h : c.fld pgHST HST_SMBCFG_WPROT = 0) (k : WpClass) : c.wpRefuses k = false := by
  cases k <;> simp [Core.wpRefuses, h]
theorem Core.wpRefuses_always (c : Core) : c.wpRefuses .always = false := by simp [Core.wpRefuses]
/-- Every WRITE_PROTECT but 0 refuses the general class (R58). -/
theorem Core.wpRefuses_other {c : Core} (h : c.fld pgHST HST_SMBCFG_WPROT ∈ [1, 2, 3]) : c.wpRefuses .other = true := by
  simp only [List.mem_cons, List.not_mem_nil, or_false] at h
  obtain h | h | h := h <;> simp [Core.wpRefuses, h]

/-- A read-only device command answers its bytes, and its write is invalid data (R55). -/
theorem State.devRo_read {s : State} (h : s.smbOpen = true) (code : Byte) (pec : Bool) (rd : State → List Byte) :
    s.devRo code (.read pec) rd = s.answered (s.core.smbBytes code pec (rd s)) := State.smbRead_open h code pec rd
theorem State.devRo_write {s : State} (h : s.smbOpen = true) {pec : Pec} (hp : s.core.pecBad pec = false)
    (hw : s.core.fld pgHST HST_SMBCFG_WPROT = 0) (code : Byte) (data : List Byte) (rd : State → List Byte) :
    s.devRo code (.write data pec) rd = ({ s with core := (s.answered []).core.invalid } : State).rest.frameEnd :=
  State.smbWrite_taken h hp (Core.wpRefuses_unprotected hw .other) (fun s => s.onCore Core.invalid)

/-- A device command that is read, and one that is written with as many bytes as it takes (R52). -/
theorem State.devCmd_read {s : State} (h : s.smbOpen = true) (code : Byte) (pec : Bool) (k : WpClass) (width : Nat)
    (rd : State → List Byte) (wr : Nat → State → Bool × State) : s.devCmd code (.read pec) k width rd wr = s.answered (s.core.smbBytes code pec (rd s)) :=
  State.smbRead_open h code pec rd
theorem State.devCmd_write {s : State} (h : s.smbOpen = true) {pec : Pec} (hp : s.core.pecBad pec = false) {k : WpClass}
    (hw : s.core.wpRefuses k = false) {data : List Byte} {width : Nat} (hl : data.length = width) (code : Byte) (rd : State → List Byte)
    (wr : Nat → State → Bool × State) :
    s.devCmd code (.write data pec) k width rd wr =
      (let r := wr (leBytes data) (s.answered [])
       if r.1 then r.2 else r.2.onCore Core.invalid).rest.frameEnd := by
  rw [State.devCmd, State.smbWrite_taken h hp hw, if_neg (not_not.mpr hl)]
theorem State.devByte_write {s : State} (h : s.smbOpen = true) {pec : Pec} (hp : s.core.pecBad pec = false) {k : WpClass}
    (hw : s.core.wpRefuses k = false) (v : Byte) (code : Byte) (rd : State → List Byte) (wr : Nat → State → Bool × State) :
    s.devCmd code (.write [v] pec) k 1 rd wr =
      (let r := wr v.toNat (s.answered [])
       if r.1 then r.2 else r.2.onCore Core.invalid).rest.frameEnd := State.devCmd_write h hp hw (data := [v]) rfl code rd wr

/-! ## The register window (R33, R58, R60) -/

theorem State.portMark_smb_implemented (s : State) {pg : Nat} (hk : (kindOf pg).isSome = true) : s.portMark .smb pg = s := by
  simp [State.portMark, isNone_of_isSome hk]
theorem State.portMark_smb_absent (s : State) {pg : Nat} (hk : kindOf pg = none) :
    s.portMark .smb pg = { s with core := s.core.setCml 6 } := by
  simp [State.portMark, hk, State.onCore]
theorem State.portMark_smb (s : State) (pg : Nat) :
    s.portMark .smb pg = if (kindOf pg).isSome then s else { s with core := s.core.setCml 6 } := by
  split
  · next hk => exact State.portMark_smb_implemented s hk
  · next hk => exact State.portMark_smb_absent s (Option.not_isSome_iff_eq_none.mp hk)

/-- The window address after an access: MFR_WINDOW_DATA_INC advances it (R60). -/
def State.windowNext (s : State) (inc : Bool) : State := if inc then s.onCore Core.winNext else s

theorem State.window_read {s : State} (h : s.smbOpen = true) (pec inc : Bool) :
    s.window (.read pec) inc =
      (let r := (s.portMark .smb (s.core.fld pgHST HST_WINADDR_PAGE)).readReg .smb (s.core.fld pgHST HST_WINADDR_PAGE)
         (s.core.fld pgHST HST_WINADDR_OFFSET)
       let t := r.2.windowNext inc
       t.answered (t.core.smbBytes (if inc then 0xD2 else 0xD1) pec (4 :: wordBytes r.1))) := by
  simp only [State.window, h, Bool.not_true, Bool.false_eq_true, if_false]; rfl

theorem State.window_write {s : State} (h : s.smbOpen = true) {pec : Pec} (hp : s.core.pecBad pec = false)
    (hw : s.core.fld pgHST HST_SMBCFG_WPROT = 0) {data : List Byte} (hl : data.length = 4) (inc : Bool) :
    s.window (.write data pec) inc =
      ((((s.answered []).portMark .smb (s.core.fld pgHST HST_WINADDR_PAGE)).hostWrite .smb (s.core.fld pgHST HST_WINADDR_PAGE)
        (s.core.fld pgHST HST_WINADDR_OFFSET) (bytesWord data)).windowNext inc).rest.frameEnd := by
  rw [State.window, State.smbWrite_taken h hp (Core.wpRefuses_unprotected hw .other), if_neg (not_not.mpr hl)]; rfl

theorem State.window_badLength {s : State} (h : s.smbOpen = true) {pec : Pec} (hp : s.core.pecBad pec = false)
    (hw : s.core.fld pgHST HST_SMBCFG_WPROT = 0) {data : List Byte} (hl : data.length ≠ 4) (inc : Bool) :
    s.window (.write data pec) inc = ({ s with core := (s.answered []).core.invalid } : State).rest.frameEnd := by
  rw [State.window, State.smbWrite_taken h hp (Core.wpRefuses_unprotected hw .other), if_pos hl]; rfl

theorem State.window_protected {s : State} (h : s.smbOpen = true) {pec : Pec} (hp : s.core.pecBad pec = false)
    (hw : s.core.fld pgHST HST_SMBCFG_WPROT ∈ [1, 2, 3]) (data : List Byte) (inc : Bool) :
    s.window (.write data pec) inc = { s with core := s.core.invalid } := by
  rw [State.window, State.smbWrite_refused h hp (Core.wpRefuses_other hw)]

/-! ## SMBus events -/

/-- The device answers the Alert Response Address while it drives ALERT_N (R51). -/
theorem State.alertResponse_won {s : State} (h : s.smbOpen = true) (ha : s.core.flag pgHST HST_SMBCFG_ARAEN = true)
    (hp : s.alertPin = true) (pec : Bool) :
    s.alertResponse true pec =
      (({ s with core := { s.core with hst := { s.core.hst with alertRel := true } } } : State).answered
        (s.core.smbAddr false :: (if pec then [pecOf [0x19, s.core.smbAddr false]] else []))) := by
  simp only [State.alertResponse, h, ha, hp, Bool.and_self, if_true]; rfl

theorem State.alertResponse_none {s : State} {won : Bool}
    (h : won = false ∨ s.core.flag pgHST HST_SMBCFG_ARAEN = false ∨ s.alertPin = false) (pec : Bool) : s.alertResponse won pec = s := by
  refine if_neg ?_
  obtain h | h | h := h <;> simp [h]

theorem State.unsupported_eq {s : State} (h : s.smbOpen = true) {code : Byte} (hc : pmCodes.contains code.toNat = false) (rd : Option Nat) :
    s.unsupported code rd = { s with core := (s.core.smbAnswer (List.replicate (rd.getD 0) 0xFF) rd.isSome).setCml 7 } := by
  simp only [State.unsupported, h, hc, Bool.not_true, Bool.or_self, Bool.false_eq_true, if_false]; rfl

theorem State.coefficients_eq {s : State} (h : s.smbOpen = true) (code rw : Byte) (pec : Bool) :
    s.coefficients code rw pec =
      if code ∈ ([0x21, 0x24, 0x40, 0x44, 0x8B] : List Byte) then
        s.answered (s.core.coeffBytes code rw pec [5, 0xD0, 0x07, 0x00, 0x00, 0x00])
      else { s with core := (({ s.core with free := s.core.free + 5 }).smbAnswer (s.core.coeffBytes code rw pec
        ((List.range 5).map (fun i => Config.freeByte (s.core.free + i)))) true).setCml 6 } := by
  simp only [State.coefficients, h, Bool.not_true, Bool.false_eq_true, if_false, List.contains_iff_mem]; rfl

/-- Settles O20: each event, the window through its access of one register, and the report. -/
theorem smbusCommandsAndWindow : Obligations.SmbusCommandsAndWindow := by
  unfold Obligations.SmbusCommandsAndWindow
  intro s pec h ans invalid
  have ho : s.smbOpen = true := h
  refine ⟨fun ht => ?timeout, fun ht => ?noTimeout, fun ha hp => ?alertWon, fun won hn => ?alertNone, fun code hc => ?unsupported,
    fun code rw => ?coefficients, ?addrRead, fun b0 b1 p hp => ?addrWrite, ?window, fun data p hp hw hl => ?length,
    fun data p hp hw => ?guarded, ?report, fun data p hp hw => ?reportWrite⟩
  case timeout => simp only [exec_smbTimeout, execSmbTimeout, ho, State.onCore, Core.smbTimeout, ht, if_true, State.after]
  case noTimeout => simp only [exec_smbTimeout, execSmbTimeout, ho, State.onCore, Core.smbTimeout, ht, if_true, State.after]; rfl
  case alertWon => exact congrArg _ (State.alertResponse_won ho ha hp pec)
  case alertNone => exact congrArg _ (State.alertResponse_none hn pec)
  case unsupported =>
    exact ⟨fun bytes => congrArg _ (State.unsupported_eq ho hc (some bytes)), congrArg _ (State.unsupported_eq ho hc none)⟩
  case coefficients => exact congrArg _ (State.coefficients_eq ho code rw pec)
  case addrRead => exact congrArg _ (State.devCmd_read ho _ _ _ _ _ _)
  case addrWrite => exact congrArg _ (State.devCmd_write ho hp (Core.wpRefuses_always _) rfl _ _ _)
  case window =>
    intro pg off mark up4
    have hm (t : State) : t.portMark .smb pg = mark t := State.portMark_smb t pg
    refine ⟨?read, ?readInc, fun b0 b1 b2 b3 p hp hw => ⟨?write, ?writeInc⟩⟩
    case read => rw [exec_mfrWindowData, execMfrWindowData, State.window_read ho, hm]; rfl
    case readInc => rw [exec_mfrWindowDataInc, execMfrWindowDataInc, State.window_read ho, hm]; rfl
    case write => rw [exec_mfrWindowData, execMfrWindowData, State.window_write ho hp hw rfl, hm]; rfl
    case writeInc => rw [exec_mfrWindowDataInc, execMfrWindowDataInc, State.window_write ho hp hw rfl, hm]; rfl
  case length =>
    exact ⟨congrArg _ (State.window_badLength ho hp hw hl false), congrArg _ (State.window_badLength ho hp hw hl true)⟩
  case guarded =>
    exact ⟨congrArg _ (State.window_protected ho hp hw data false), congrArg _ (State.window_protected ho hp hw data true)⟩
  case report =>
    rw [exec_mfrFleetReport, execMfrFleetReport, State.fleetReport, ho]
    rfl
  case reportWrite => exact congrArg _ (State.devRo_write ho hp hw 0xD8 data (fun _ => []))

/-! ## Pages that are not implemented (R33) -/

theorem State.hostWrite_absent (s : State) (p : HostPort) {pg : Nat} (hk : kindOf pg = none) (off : Nat) (w : Word) :
    s.hostWrite p pg off w = s := by
  rw [State.hostWrite, hk]; rfl

theorem State.writeWords_absent (p : HostPort) {pg : Nat} (hk : kindOf pg = none) (l : List Nat) :
    ∀ (s : State) (data : List Byte), s.writeWords p pg l data = s := by
  induction l with
  | nil => exact fun _ _ => rfl
  | cons o l ih =>
    intro s data
    rw [State.writeWords, State.hostWrite_absent s p hk, ite_self, ih]

theorem wordBytes_zero : wordBytes 0 = [0, 0, 0, 0] := by decide

/-- A STATUS_CML bit reads 1 once it is set (R57). -/
theorem Core.setCml_bit (c : Core) {bit : Nat} (hb : bit < 32) : bitOf ((c.setCml bit).reg pgHST 0x3C) bit = true := by
  rw [Core.setCml, Core.raise_reg _ _ _ (by decide) (by decide) (by decide), Core.reg_setReg_same]
  exact bitOf_putBit_same _ _ _ hb

/-- Settles O56: the access reaches no register, and the port marks it. -/
theorem unimplementedPages : Obligations.UnimplementedPages := by
  unfold Obligations.UnimplementedPages
  intro s pg hk
  refine ⟨fun p off w => ⟨State.readReg_absent s p hk off, State.hostWrite_absent s p hk off w⟩,
    fun cmd off hcrc dcrc data waits ho hs hc hf hm => ?spi, fun ho hp => ?smb⟩
  case spi =>
    intro t st
    refine ⟨State.spiStatus_pageErr t _ _ _ _, Core.raise_stky _ _ (by decide), fun hw => ?read, fun hw hl hd => ?write⟩
    case read =>
      rw [exec_spiReadSingle, execSpiReadSingle, State.spiRead_taken ho hs hc hf hw hm, State.pageMark_absent s hk, hk,
        frameOffs_single hf hm]
      simp only [State.readWords_one, State.readReg_absent _ _ hk]
      rfl
    case write =>
      rw [exec_spiWriteSingle, execSpiWriteSingle,
        State.spiWrite_taken ho hs hc hf hw hm (hl.trans (by rw [cmdCnt_single hf hm])) hd, State.pageMark_absent s hk, hk]
      simp only [State.writeWords_absent .spi hk, hl]
      rfl
  case smb =>
    refine ⟨fun crc => ?winRead, fun a b c d pec hpec hw => ?winWrite, Core.setCml_bit _ (by decide)⟩
    case winRead =>
      rw [exec_mfrWindowData, execMfrWindowData, State.window_read ho, hp, State.portMark_smb_absent s hk, State.readReg_absent _ _ hk]
      simp only [wordBytes_zero]
      rfl
    case winWrite =>
      rw [exec_mfrWindowData, execMfrWindowData, State.window_write ho hpec hw rfl, hp, State.portMark_smb_absent _ hk,
        State.hostWrite_absent _ _ hk]
      rfl

/-! ## PMBus reads (R52 to R56, R254, R287, R317, R319, R343) -/

/-- A rail command read with PAGE at a rail answers its bytes (R52). -/
theorem State.railRead_one {s : State} (h : s.smbOpen = true) {n : Nat} (hp : s.core.fld pgHST HST_PMBPAGE_PAGE = n) (hn : n ≠ 0xFF)
    (code : Byte) (pec : Bool) (width : Nat) (f : Nat → List Byte) :
    s.railRead code pec width f = s.answered (s.core.smbBytes code pec (f n)) := by
  have hpm : s.core.pmPage = n := hp
  rw [State.railRead, h, hpm, if_neg (by decide), if_neg hn, State.smbRead_open h, hpm]

/-- The state with 0xFF answered in every byte, and STATUS_CML bit 6 set (R56). -/
def State.answeredOnes (s : State) (code : Byte) (pec : Bool) (width : Nat) : State :=
  { s with core := (s.core.smbAnswer (s.core.smbBytes code pec (List.replicate width 0xFF#8)) true).setCml 6 }

/-- A rail command read with PAGE at 0xFF answers 0xFF in every byte and sets STATUS_CML bit 6 (R56). -/
theorem State.railRead_all {s : State} (h : s.smbOpen = true) (hp : s.core.fld pgHST HST_PMBPAGE_PAGE = 0xFF)
    (code : Byte) (pec : Bool) (width : Nat) (f : Nat → List Byte) :
    s.railRead code pec width f = s.answeredOnes code pec width := by
  have hpm : s.core.pmPage = 0xFF := hp
  rw [State.railRead, h, hpm, if_neg (by decide), if_pos rfl]
  rfl

/-- The input limits in volts (R254). -/
def Core.vinVolts (c : Core) (n : Nat) (hi : Bool) : Rat := ((c.thr (32 + c.vinsel n) hi * c.vinDiv (c.vinsel n) * 5 : Nat) : Rat) / 16000

/-! Each read of a rail command, with its code, its width and its bytes (R52). -/

theorem exec_operationOn_read (s : State) (pec : Bool) :
    exec (.operationOn (.read pec)) s = .next (s.railRead 0x01 pec 1 (fun n => [s.core.operation n])) := rfl
theorem exec_onOffConfig_read (s : State) (pec : Bool) :
    exec (.onOffConfig (.read pec)) s = .next (s.railRead 0x02 pec 1 (fun _ => [0x18])) := rfl
theorem exec_voutMode_read (s : State) (pec : Bool) :
    exec (.voutMode (.read pec)) s = .next (s.railRead 0x20 pec 1 (fun _ => [0x40])) := rfl
theorem exec_statusByte_read (s : State) (pec : Bool) :
    exec (.statusByte (.read pec)) s = .next (s.railRead 0x78 pec 1 (fun n => [BitVec.ofNat 8 (s.core.statusByte n)])) := rfl
theorem exec_statusVout_read (s : State) (pec : Bool) :
    exec (.statusVout (.read pec)) s = .next (s.railRead 0x7A pec 1 (fun n => [BitVec.ofNat 8 (s.core.statusVout n)])) := rfl
theorem exec_statusIout_read (s : State) (pec : Bool) :
    exec (.statusIout (.read pec)) s = .next (s.railRead 0x7B pec 1 (fun n => [BitVec.ofNat 8 (s.core.statusIout n)])) := rfl
theorem exec_statusInput_read (s : State) (pec : Bool) :
    exec (.statusInput (.read pec)) s = .next (s.railRead 0x7C pec 1 (fun n => [BitVec.ofNat 8 (s.core.statusInput n)])) := rfl
theorem exec_statusTemperature_read (s : State) (pec : Bool) :
    exec (.statusTemperature (.read pec)) s = .next (s.railRead 0x7D pec 1 (fun n => [BitVec.ofNat 8 (s.core.statusTemp n)])) := rfl
theorem exec_voutCommand_read (s : State) (pec : Bool) :
    exec (.voutCommand (.read pec)) s = .next (s.railRead 0x21 pec 2 (fun n => toLeBytes 2 (s.core.fld (pgV n) V_TARGET_CODE))) := rfl
theorem exec_voutMax_read (s : State) (pec : Bool) :
    exec (.voutMax (.read pec)) s = .next (s.railRead 0x24 pec 2 (fun n => toLeBytes 2 (s.core.fld (pgV n) V_VMAX_CODE))) := rfl
theorem exec_voutTransitionRate_read (s : State) (pec : Bool) :
    exec (.voutTransitionRate (.read pec)) s = .next
      (s.railRead 0x27 pec 2 (fun n => toLeBytes 2 (lin11 ((s.core.fld (pgV n) V_SLEW_RATE : Nat) / 8 : Rat) (-8)))) := rfl
theorem exec_voutOvFaultLimit_read (s : State) (pec : Bool) :
    exec (.voutOvFaultLimit (.read pec)) s = .next (s.railRead 0x40 pec 2 (fun n => toLeBytes 2 (16 * s.core.thr n true))) := rfl
theorem exec_voutUvFaultLimit_read (s : State) (pec : Bool) :
    exec (.voutUvFaultLimit (.read pec)) s = .next (s.railRead 0x44 pec 2 (fun n => toLeBytes 2 (16 * s.core.thr n false))) := rfl
theorem exec_ioutOcFaultLimit_read (s : State) (pec : Bool) :
    exec (.ioutOcFaultLimit (.read pec)) s = .next
      (s.railRead 0x46 pec 2 (fun n => toLeBytes 2 (lin11 (s.core.fld pgTRP (TRP_ROC_ROCLIM n) : Nat) (-6)))) := rfl
theorem exec_otFaultLimit_read (s : State) (pec : Bool) :
    exec (.otFaultLimit (.read pec)) s = .next
      (s.railRead 0x4F pec 2 (fun n => toLeBytes 2 (lin11 (s.core.fld pgTHM (THM_OTL_OT n) : Nat) (-2)))) := rfl
theorem exec_vinOvFaultLimit_read (s : State) (pec : Bool) :
    exec (.vinOvFaultLimit (.read pec)) s = .next
      (s.railRead 0x55 pec 2 (fun n => toLeBytes 2 (lin11 (s.core.vinVolts n true) (-8)))) := rfl
theorem exec_vinUvFaultLimit_read (s : State) (pec : Bool) :
    exec (.vinUvFaultLimit (.read pec)) s = .next
      (s.railRead 0x59 pec 2 (fun n => toLeBytes 2 (lin11 (s.core.vinVolts n false) (-8)))) := rfl
theorem exec_statusWord_read (s : State) (pec : Bool) :
    exec (.statusWord (.read pec)) s = .next (s.railRead 0x79 pec 2 (fun n => toLeBytes 2 (s.core.statusWord n))) := rfl
theorem exec_readVin_read (s : State) (pec : Bool) :
    exec (.readVin (.read pec)) s = .next (s.railRead 0x88 pec 2 (fun n => s.core.readLin (0x50 + s.core.vinsel n) 2000 (-8))) := rfl
theorem exec_readIin_read (s : State) (pec : Bool) :
    exec (.readIin (.read pec)) s = .next (s.railRead 0x89 pec 2 (fun n => s.core.readLin (0x52 + s.core.vinsel n) 64 (-6))) := rfl
theorem exec_readVout_read (s : State) (pec : Bool) :
    exec (.readVout (.read pec)) s = .next (s.railRead 0x8B pec 2 (fun n => s.core.readVout n)) := rfl
theorem exec_readIout_read (s : State) (pec : Bool) :
    exec (.readIout (.read pec)) s = .next (s.railRead 0x8C pec 2 (fun n => s.core.readLin (8 + n) 64 (-6))) := rfl
theorem exec_readTemperature1_read (s : State) (pec : Bool) :
    exec (.readTemperature1 (.read pec)) s = .next (s.railRead 0x8D pec 2 (fun n => s.core.readLin (0x18 + n) 16 (-2))) := rfl
theorem exec_readPout_read (s : State) (pec : Bool) :
    exec (.readPout (.read pec)) s = .next (s.railRead 0x96 pec 2 (fun n => s.core.readLin (0x10 + n) 64 (-3))) := rfl

/-- The rail commands of one byte, and those of two (R52). -/
def railByteReads : List ((PmOp → Instr) × Byte) :=
  [(.operationOn, 0x01), (.onOffConfig, 0x02), (.voutMode, 0x20), (.statusByte, 0x78), (.statusVout, 0x7A), (.statusIout, 0x7B),
   (.statusInput, 0x7C), (.statusTemperature, 0x7D)]
def railWordReads : List ((PmOp → Instr) × Byte) :=
  [(.voutCommand, 0x21), (.voutMax, 0x24), (.voutTransitionRate, 0x27), (.voutOvFaultLimit, 0x40), (.voutUvFaultLimit, 0x44),
   (.ioutOcFaultLimit, 0x46), (.otFaultLimit, 0x4F), (.vinOvFaultLimit, 0x55), (.vinUvFaultLimit, 0x59), (.statusWord, 0x79),
   (.readVin, 0x88), (.readIin, 0x89), (.readVout, 0x8B), (.readIout, 0x8C), (.readTemperature1, 0x8D), (.readPout, 0x96)]

/-- Each of them is a read of a rail command with its code and width. -/
theorem railByteReads_width (s : State) (pec : Bool) :
    ∀ x ∈ railByteReads, ∃ f, exec (x.1 (.read pec)) s = .next (s.railRead x.2 pec 1 f) := by
  simp only [railByteReads, List.forall_mem_cons]
  exact ⟨⟨_, exec_operationOn_read s pec⟩, ⟨_, exec_onOffConfig_read s pec⟩, ⟨_, exec_voutMode_read s pec⟩,
    ⟨_, exec_statusByte_read s pec⟩, ⟨_, exec_statusVout_read s pec⟩, ⟨_, exec_statusIout_read s pec⟩,
    ⟨_, exec_statusInput_read s pec⟩, ⟨_, exec_statusTemperature_read s pec⟩, List.forall_mem_nil _⟩
theorem railWordReads_width (s : State) (pec : Bool) :
    ∀ x ∈ railWordReads, ∃ f, exec (x.1 (.read pec)) s = .next (s.railRead x.2 pec 2 f) := by
  simp only [railWordReads, List.forall_mem_cons]
  exact ⟨⟨_, exec_voutCommand_read s pec⟩, ⟨_, exec_voutMax_read s pec⟩, ⟨_, exec_voutTransitionRate_read s pec⟩,
    ⟨_, exec_voutOvFaultLimit_read s pec⟩, ⟨_, exec_voutUvFaultLimit_read s pec⟩, ⟨_, exec_ioutOcFaultLimit_read s pec⟩,
    ⟨_, exec_otFaultLimit_read s pec⟩, ⟨_, exec_vinOvFaultLimit_read s pec⟩, ⟨_, exec_vinUvFaultLimit_read s pec⟩,
    ⟨_, exec_statusWord_read s pec⟩, ⟨_, exec_readVin_read s pec⟩, ⟨_, exec_readIin_read s pec⟩, ⟨_, exec_readVout_read s pec⟩,
    ⟨_, exec_readIout_read s pec⟩, ⟨_, exec_readTemperature1_read s pec⟩, ⟨_, exec_readPout_read s pec⟩, List.forall_mem_nil _⟩

/-- With PAGE at 0xFF each of them reads 0xFF (R56). -/
theorem exec_railByteRead_all {s : State} (h : s.smbOpen = true) (hp : s.core.fld pgHST HST_PMBPAGE_PAGE = 0xFF) (pec : Bool)
    {x : (PmOp → Instr) × Byte} (hx : x ∈ railByteReads) :
    exec (x.1 (.read pec)) s = .next (s.answeredOnes x.2 pec 1) := by
  obtain ⟨f, hf⟩ := railByteReads_width s pec x hx
  rw [hf, State.railRead_all h hp]
theorem exec_railWordRead_all {s : State} (h : s.smbOpen = true) (hp : s.core.fld pgHST HST_PMBPAGE_PAGE = 0xFF) (pec : Bool)
    {x : (PmOp → Instr) × Byte} (hx : x ∈ railWordReads) :
    exec (x.1 (.read pec)) s = .next (s.answeredOnes x.2 pec 2) := by
  obtain ⟨f, hf⟩ := railWordReads_width s pec x hx
  rw [hf, State.railRead_all h hp]

/-- The thresholds of a comparator as bits of their register (R224, R256). -/
theorem Core.thr_lo (c : Core) (i : Nat) : c.thr i false = getBits (c.reg pgCMP (0x20 + 4 * (i / 2))) (16 * (i % 2) + 0) 8 := by
  obtain h | h := Nat.mod_two_eq_zero_or_one i <;> simp [Core.thr, Core.thrLo, h, Core.fld, CMP_THR_LO0, CMP_THR_LO1]
theorem Core.thr_hi (c : Core) (i : Nat) : c.thr i true = getBits (c.reg pgCMP (0x20 + 4 * (i / 2))) (16 * (i % 2) + 8) 8 := by
  obtain h | h := Nat.mod_two_eq_zero_or_one i <;> simp [Core.thr, Core.thrHi, h, Core.fld, CMP_THR_HI0, CMP_THR_HI1]

/-! The status bytes as sums of their bits (R343). -/

theorem Core.statusVout_sum (c : Core) (n : Nat) : c.statusVout n =
    2 ^ 7 * b2n (c.stky pgCMP n) + 2 ^ 4 * b2n (c.stky pgCMP (8 + n)) + 2 ^ 2 * b2n (c.stky (pgV n) 8) := by
  simp only [Core.statusVout, bitsByte, List.foldl, Nat.zero_add]
theorem Core.statusIout_sum (c : Core) (n : Nat) : c.statusIout n =
    2 ^ 7 * b2n (c.stky pgCMP (16 + n)) + 2 ^ 5 * b2n (c.stky pgTRP (24 + n)) + 2 ^ 3 * b2n (c.stky (pgV n) 24) := by
  simp only [Core.statusIout, bitsByte, List.foldl, Nat.zero_add]
theorem Core.statusInput_sum (c : Core) (n : Nat) : c.statusInput n =
    2 ^ 7 * b2n (c.stky pgCMP (26 + c.vinsel n)) + 2 ^ 4 * b2n (c.stky pgCMP (24 + c.vinsel n)) := by
  simp only [Core.statusInput, bitsByte, List.foldl, Nat.zero_add]
theorem Core.statusTemp_sum (c : Core) (n : Nat) : c.statusTemp n =
    2 ^ 7 * b2n (c.stky pgTHM (24 + n)) + 2 ^ 6 * b2n (c.stky pgTHM (16 + n)) := by
  simp only [Core.statusTemp, bitsByte, List.foldl, Nat.zero_add]
theorem Core.statusByte_sum (c : Core) (n : Nat) : c.statusByte n =
    (let st := (c.rail n).rstate
     let v := 2 ^ 6 * b2n (st ≠ .hold && st ≠ .slew) + 2 ^ 5 * b2n (c.stky pgCMP n) + 2 ^ 4 * b2n (c.stky pgCMP (16 + n)) +
       2 ^ 3 * b2n (c.stky pgCMP (24 + c.vinsel n)) + 2 ^ 2 * b2n (c.stky pgTHM (16 + n) || c.stky pgTHM (24 + n)) +
       2 ^ 1 * b2n (c.fld pgHST HST_CML_CML ≠ 0)
     v + b2n (v = 0 && (c.stky (pgV n) 9 || c.stky pgTRP n))) := by
  simp only [Core.statusByte, bitsByte, List.foldl, Nat.zero_add]
theorem Core.statusWord_sum (c : Core) (n : Nat) : c.statusWord n =
    c.statusByte n + (2 ^ 15 * b2n (c.statusVout n ≠ 0) + 2 ^ 14 * b2n (c.statusIout n ≠ 0) + 2 ^ 13 * b2n (c.statusInput n ≠ 0) +
      2 ^ 11 * b2n (!c.stat (pgV n) 0) + 2 ^ 10 * b2n (c.stky pgAUX 24)) := by
  simp only [Core.statusWord, bitsByte, List.foldl, Nat.zero_add]

/-- Settles O18: a rail command through the rail that PAGE names, a device command through its bytes. -/
theorem pmbusReadCommands : Obligations.PmbusReadCommands := by
  unfold Obligations.PmbusReadCommands
  intro s n pec h hp ans lin b c thr volts rails words
  have ho : s.smbOpen = true := h
  refine ⟨fun hn => ?rail, ?_⟩
  case rail =>
    have one {i : Instr} {code : Byte} {width : Nat} {f : Nat → List Byte} {l : List Byte}
        (hi : exec i s = .next (s.railRead code pec width f)) (hl : f n = l) : exec i s = ans code l := by
      rw [hi, State.railRead_one ho hp hn, hl]
    have lo : c.thr n false = thr n 0 := c.thr_lo n
    have hi : c.thr n true = thr n 8 := c.thr_hi n
    have vlo : c.vinVolts n false = volts 0 := by rw [Core.vinVolts, Core.thr_lo]
    have vhi : c.vinVolts n true = volts 8 := by rw [Core.vinVolts, Core.thr_hi]
    exact ⟨one (exec_operationOn_read s pec) rfl, one (exec_voutCommand_read s pec) rfl, one (exec_voutMax_read s pec) rfl,
      one (exec_voutTransitionRate_read s pec) rfl, one (exec_voutOvFaultLimit_read s pec) (by rw [hi]),
      one (exec_voutUvFaultLimit_read s pec) (by rw [lo]), one (exec_ioutOcFaultLimit_read s pec) rfl,
      one (exec_otFaultLimit_read s pec) rfl, one (exec_vinOvFaultLimit_read s pec) (by rw [vhi]),
      one (exec_vinUvFaultLimit_read s pec) (by rw [vlo]), one (exec_onOffConfig_read s pec) rfl, one (exec_voutMode_read s pec) rfl,
      one (exec_statusVout_read s pec) (by rw [Core.statusVout_sum]), one (exec_statusIout_read s pec) (by rw [Core.statusIout_sum]),
      one (exec_statusInput_read s pec) (by rw [Core.statusInput_sum]),
      one (exec_statusTemperature_read s pec) (by rw [Core.statusTemp_sum]),
      one (exec_statusByte_read s pec) (by rw [Core.statusByte_sum]), one (exec_statusWord_read s pec) (by rw [Core.statusWord_sum]),
      one (exec_readVin_read s pec) rfl, one (exec_readIin_read s pec) rfl, one (exec_readVout_read s pec) rfl,
      one (exec_readIout_read s pec) rfl, one (exec_readTemperature1_read s pec) rfl, one (exec_readPout_read s pec) rfl⟩
  have ro (i : Instr) (code : Byte) (rd : State → List Byte) (hi : exec i s = .next (s.devRo code (.read pec) rd)) :
      exec i s = ans code (rd s) := hi.trans (congrArg _ (State.devRo_read ho code pec rd))
  refine ⟨ro _ 0x19 (fun _ => [0xD0]) rfl, ro _ 0x98 (fun _ => [0x44]) rfl,
    ro _ 0x99 (fun _ => asciiBlock [0x4F, 0x4C, 0x4D, 0x57]) rfl,
    ro _ 0x9A (fun _ => asciiBlock [0x56, 0x59, 0x48, 0x32, 0x34, 0x30, 0x38]) rfl,
    ro _ 0x9B (fun _ => asciiBlock [0x42, 0x31]) rfl,
    ro _ 0x8E (fun s => word2 (lin11 ((s.core.sfld pgTHM THM_TJ_TJ : Rat) / 16) (-2))) rfl,
    ro _ 0x7E (fun s => [BitVec.ofNat 8 (s.core.fld pgHST HST_CML_CML)]) rfl,
    ?page, ?protect, fun hn => ?all⟩
  case page => subst hp; exact congrArg _ (State.devCmd_read ho 0x00 pec _ _ _ _)
  case protect => exact congrArg _ (State.devCmd_read ho 0x10 pec _ _ _ _)
  case all =>
    rw [hn] at hp
    have named {l : List ((PmOp → Instr) × Byte)} {P : Instr → Byte → Prop} (hl : ∀ x ∈ l, P (x.1 (.read pec)) x.2) :
        ∀ x ∈ l.map (fun x => (x.1 (.read pec), x.2.toNat)), P x.1 (BitVec.ofNat 8 x.2) := by
      simpa only [List.forall_mem_map, BitVec.ofNat_toNat, BitVec.setWidth_eq] using hl
    exact ⟨named (P := fun i code => exec i s = .next (s.answeredOnes code pec 1)) (fun x hx => exec_railByteRead_all ho hp pec hx),
      named (P := fun i code => exec i s = .next (s.answeredOnes code pec 2)) (fun x hx => exec_railWordRead_all ho hp pec hx)⟩

/-! ## PMBus writes (R50, R52 to R58, R63, R254, R319, R343) -/

theorem leBytes_word (y : BitVec 16) : leBytes (toLeBytes 2 y.toNat) = y.toNat := by
  have := y.isLt
  simp only [toLeBytes, leBytes, BitVec.toNat_ofNat]
  omega

/-- A write with PAGE at one rail (R56). -/
theorem State.onRails_one {s : State} {n : Nat} (hp : s.core.fld pgHST HST_PMBPAGE_PAGE = n) (hn : n ≠ 0xFF)
    (f : Nat → State → Bool × State) : s.onRails f = if (f n s).1 then (f n s).2 else (f n s).2.onCore Core.invalid := by
  have hr : s.core.pmRails = [n] := by rw [Core.pmRails, Core.pmPage, hp, if_neg hn]
  rw [State.onRails, hr]; rfl

/-- A write with PAGE at 0xFF (R56). -/
theorem State.onRails_all {s : State} (hp : s.core.fld pgHST HST_PMBPAGE_PAGE = 0xFF) (f : Nat → State → Bool × State) :
    s.onRails f =
      (let r := (List.range 8).foldl (fun (q : Bool × State) n => (q.1 && (f n q.2).1, (f n q.2).2)) (true, s)
       if r.1 then r.2 else r.2.onCore Core.invalid) := by
  have hr : s.core.pmRails = List.range 8 := by rw [Core.pmRails, Core.pmPage, hp, if_pos rfl]
  rw [State.onRails, hr]

/-- A write that every rail takes goes to the rails one after another. -/
theorem State.onRails_all_valid {s : State} (hp : s.core.fld pgHST HST_PMBPAGE_PAGE = 0xFF) (g : Nat → State → State) :
    s.onRails (fun n t => (true, g n t)) = (List.range 8).foldl (fun t n => g n t) s := by
  have hv : ∀ (l : List Nat) (t : State),
      l.foldl (fun (q : Bool × State) n => (q.1 && true, g n q.2)) (true, t) = (true, l.foldl (fun t n => g n t) t) := by
    intro l
    induction l with
    | nil => exact fun _ => rfl
    | cons n l ih => exact fun t => ih (g n t)
  rw [State.onRails_all hp, hv, if_pos rfl]

/-- A threshold of a closed lock group is left, and that is no invalid data (R59, R254). -/
theorem State.pmThr_locked {s : State} {i : Nat} (h : s.core.locked pgCMP (CMP_THR_LO0 (i / 2)) = true) (hi : Bool) (code : Nat) :
    s.pmThr i hi code = (true, s) := if_pos h

/-- A threshold that its register takes (R224, R254). -/
theorem State.pmThr_stored {s : State} {i : Nat} (h : s.core.locked pgCMP (CMP_THR_LO0 (i / 2)) = false) {hi : Bool} {code : Nat} {w : Word}
    (hw : setBits (s.core.reg pgCMP (0x20 + 4 * (i / 2))) (thrBit i hi) 8 code = w)
    (hs : (s.hostWrite .smb pgCMP (0x20 + 4 * (i / 2)) w).core.reg pgCMP (0x20 + 4 * (i / 2)) = w) :
    s.pmThr i hi code = (true, s.hostWrite .smb pgCMP (0x20 + 4 * (i / 2)) w) := by
  subst hw
  rw [State.pmThr, h, if_neg (by decide)]
  exact Prod.ext (decide_eq_true hs) rfl

/-- A write of OPERATION that is no off code (R52). -/
theorem State.operationOn_write (s : State) (pec : Pec) {data : List Byte} (h40 : data ≠ [0x40]) (h00 : data ≠ [0x00]) :
    s.operationOn (.write data pec) = s.railCmd 0x01 (.write data pec) .page 1 (fun n => [s.core.operation n])
      (fun v n s => if v = 0x80 then operate true none n s else (false, s)) := by
  unfold State.operationOn
  split
  · next h => cases h; exact absurd rfl h40
  · next h => cases h; exact absurd rfl h00
  · rfl

theorem wprotByte_find (k : Fin 4) : [0, 1, 2, 3].find? (fun j => decide ((wprotByte j).toNat = (wprotByte k).toNat)) = some k.val := by
  revert k; decide

section
variable {s : State} {pec : Pec} (h : s.smbOpen = true) (hp : s.core.pecBad pec = false) (hw : s.core.fld pgHST HST_SMBCFG_WPROT = 0)
include h hp hw

/-- A write of a rail command of one byte, and of one of two, goes to the rails that PAGE names (R52, R56). -/
theorem State.railByte_write (v : Byte) (code : Byte) (k : WpClass) (rd : Nat → List Byte) (wr : Nat → Nat → State → Bool × State) :
    s.railCmd code (.write [v] pec) k 1 rd wr = ((s.answered []).onRails (wr v.toNat)).rest.frameEnd := by
  rw [State.railCmd, State.smbWrite_taken h hp (Core.wpRefuses_unprotected hw k), if_neg (show ¬[v].length ≠ 1 from not_not.mpr rfl)]; rfl
theorem State.railWord_write (y : BitVec 16) (code : Byte) (k : WpClass) (rd : Nat → List Byte) (wr : Nat → Nat → State → Bool × State) :
    s.railCmd code (.write (toLeBytes 2 y.toNat) pec) k 2 rd wr = ((s.answered []).onRails (wr y.toNat)).rest.frameEnd := by
  rw [State.railCmd, State.smbWrite_taken h hp (Core.wpRefuses_unprotected hw k),
    if_neg (show ¬(toLeBytes 2 y.toNat).length ≠ 2 from not_not.mpr rfl), leBytes_word]

/-! Each write of a rail command, as what it does to a rail. -/

theorem exec_operationOn_write : exec (.operationOn (.write [0x80] pec)) s = .next
    ((s.answered []).onRails (fun n t =>
      (true, { t with core := t.core.writeEn n true (t.core.flag (pgV n) V_CTRL_SOFTOFF) true }))).rest.frameEnd :=
  congrArg _ ((State.operationOn_write s pec (by decide) (by decide)).trans (State.railByte_write h hp hw 0x80 _ _ _ _))
theorem exec_operationSoftOff_write : exec (.operationSoftOff pec) s = .next
    ((s.answered []).onRails (fun n t => (true, { t with core := t.core.writeEn n false true true }))).rest.frameEnd :=
  congrArg _ (State.railByte_write h hp hw 0x40 _ _ _ _)
theorem exec_operationImmediateOff_write : exec (.operationImmediateOff pec) s = .next
    ((s.answered []).onRails (fun n t => (true, { t with core := t.core.writeEn n false false true }))).rest.frameEnd :=
  congrArg _ (State.railByte_write h hp hw 0x00 _ _ _ _)

section
variable (y : BitVec 16)

theorem exec_voutCommand_write (hy : directOk y.toNat = true) : exec (.voutCommand (.write (toLeBytes 2 y.toNat) pec)) s = .next
    ((s.answered []).onRails (fun n t => (true, t.pmField (pgV n) V_TARGET_CODE y.toNat))).rest.frameEnd := by
  rw [exec_voutCommand, execVoutCommand, State.voutCommand, State.railWord_write h hp hw, hy]
  rfl
theorem exec_voutCommand_invalid (hy : directOk y.toNat = false) : exec (.voutCommand (.write (toLeBytes 2 y.toNat) pec)) s = .next
    ((s.answered []).onRails (fun _ t => (false, t))).rest.frameEnd := by
  rw [exec_voutCommand, execVoutCommand, State.voutCommand, State.railWord_write h hp hw, hy]
  rfl
theorem exec_voutMax_write (hy : directOk y.toNat = true) : exec (.voutMax (.write (toLeBytes 2 y.toNat) pec)) s = .next
    ((s.answered []).onRails (fun n t => (true, t.pmField (pgV n) V_VMAX_CODE y.toNat))).rest.frameEnd := by
  rw [exec_voutMax, execVoutMax, State.voutMax, State.railWord_write h hp hw, hy]
  rfl
theorem exec_voutTransitionRate_write (h1 : 1 / 2 ≤ linVal y.toNat) (h2 : linVal y.toNat ≤ 80) :
    exec (.voutTransitionRate (.write (toLeBytes 2 y.toNat) pec)) s = .next
      ((s.answered []).onRails (fun n t => (true, t.pmField (pgV n) V_SLEW_RATE (roundRat (8 * linVal y.toNat)).toNat))).rest.frameEnd := by
  rw [exec_voutTransitionRate, execVoutTransitionRate, State.voutRate, State.railWord_write h hp hw]
  simp only [h1, h2, decide_true, Bool.and_self, if_true]
theorem State.voutLimit_write (hi : Bool) (hy : directOk y.toNat = true) : s.voutLimit (.write (toLeBytes 2 y.toNat) pec) hi =
    ((s.answered []).onRails (fun n t => t.pmThr n hi (roundDiv y.toNat 16).toNat)).rest.frameEnd := by
  rw [State.voutLimit, State.railWord_write h hp hw, hy]
  rfl
theorem State.vinLimit_write (hi : Bool) : s.vinLimit (.write (toLeBytes 2 y.toNat) pec) hi =
    ((s.answered []).onRails (fun n t =>
      let code := roundRat (linVal y.toNat * 16000 / ((t.core.vinDiv (t.core.vinsel n) * 5 : Nat) : Rat))
      if 0 ≤ code ∧ code ≤ 255 then t.pmThr (32 + t.core.vinsel n) hi code.toNat else (false, t))).rest.frameEnd := by
  rw [State.vinLimit, State.railWord_write h hp hw]
  simp only [Bool.and_eq_true, decide_eq_true_eq]
theorem exec_ioutOcFaultLimit_write (h1 : 0 ≤ linVal y.toNat) (h2 : linVal y.toNat ≤ 255) :
    exec (.ioutOcFaultLimit (.write (toLeBytes 2 y.toNat) pec)) s = .next
      ((s.answered []).onRails (fun n t => (true, t.pmField pgTRP (TRP_ROC_ROCLIM n) (roundRat (linVal y.toNat)).toNat))).rest.frameEnd := by
  have h3 : linVal y.toNat ≤ 4095 := h2.trans (by norm_num)
  rw [exec_ioutOcFaultLimit, execIoutOcFaultLimit, State.ioutLimit, State.railWord_write h hp hw]
  simp only [h1, h3, decide_true, Bool.and_self, if_true]
theorem exec_otFaultLimit_write (h1 : 0 ≤ linVal y.toNat) (h2 : linVal y.toNat ≤ 255) :
    exec (.otFaultLimit (.write (toLeBytes 2 y.toNat) pec)) s = .next
      ((s.answered []).onRails (fun n t => (true, t.pmField pgTHM (THM_OTL_OT n) (roundRat (linVal y.toNat)).toNat))).rest.frameEnd := by
  rw [exec_otFaultLimit, execOtFaultLimit, State.otLimit, State.railWord_write h hp hw]
  simp only [h1, h2, decide_true, Bool.and_self, if_true]

end

/-- CLEAR_FAULTS clears the bits of the rails that PAGE names, and HST_CML (R63, R343). -/
theorem exec_clearFaults_write : exec (.clearFaults pec) s = .next
    ({ s.answered [] with core := (s.answered []).core.clearFaults s.core.pmRails } : State).rest.frameEnd :=
  congrArg _ (State.smbWrite_taken h hp (Core.wpRefuses_unprotected hw .other) (fun s => s.onCore (fun c => c.clearFaults c.pmRails)))

/-- PAGE takes a rail or 0xFF (R52, R56). -/
theorem exec_page_write {v : Byte} (hv : v.toNat < 8 ∨ v = 0xFF) : exec (.page (.write [v] pec)) s = .next
    ({ s.answered [] with core := (s.answered []).core.setFld pgHST HST_PMBPAGE_PAGE v.toNat } : State).rest.frameEnd := by
  have hv' : (decide (v.toNat < 8) || decide (v.toNat = 0xFF)) = true := by
    rw [Bool.or_eq_true, decide_eq_true_eq, decide_eq_true_eq]
    exact hv.imp_right (fun e => by rw [e]; rfl)
  rw [exec_page, execPage, State.pmPageCmd, State.devByte_write h hp (Core.wpRefuses_unprotected hw .page)]
  simp only [hv', if_true]
  rfl
theorem exec_page_invalid {v : Byte} (h8 : 8 ≤ v.toNat) (hv : v.toNat ≠ 0xFF) : exec (.page (.write [v] pec)) s = .next
    ({ s.answered [] with core := (s.answered []).core.invalid } : State).rest.frameEnd := by
  rw [exec_page, execPage, State.pmPageCmd, State.devByte_write h hp (Core.wpRefuses_unprotected hw .page)]
  simp only [Nat.not_lt.mpr h8, hv, decide_false, Bool.or_self, Bool.false_eq_true, if_false]
  rfl

end

theorem directOk_iff {y : Nat} : directOk y = true ↔ 400 ≤ y ∧ y ≤ 3600 := by
  rw [directOk, Bool.and_eq_true, decide_eq_true_eq, decide_eq_true_eq]

/-- Settles O19: each write with PAGE at one rail acts on that rail. -/
theorem pmbusWriteCommands : Obligations.PmbusWriteCommands := by
  unfold Obligations.PmbusWriteCommands
  intro s n pec h hp hw hpg a run
  have ho : s.smbOpen = true := h
  have hn : n.val ≠ 0xFF := by omega
  have one {i : Instr} {f : Nat → State → Bool × State} {t : State} (hi : exec i s = .next (a.onRails f).rest.frameEnd)
      (ht : f n a = (true, t)) : exec i s = run t := by
    rw [hi, State.onRails_one (s := a) hpg hn, ht]; rfl
  refine ⟨fun v hv => exec_page_write ho hp hw hv, one (exec_operationOn_write ho hp hw) rfl,
    one (exec_operationSoftOff_write ho hp hw) rfl,
    one (exec_operationImmediateOff_write ho hp hw) rfl, fun y h1 h2 => ?vout, fun y hy => ?voutInvalid,
    fun y h1 h2 => one (exec_voutTransitionRate_write ho hp hw y h1 h2) rfl, fun k => ?protect, fun y h1 h2 hl => ?locked,
    fun y h1 h2 hl => ?voutLimit, fun y h1 h2 hl => ?vinLimit, fun y h1 h2 => ?current, ?clear,
    fun data => ?capability, fun data h40 h00 => ?badPec⟩
  case vout =>
    have hy : directOk y.toNat = true := directOk_iff.mpr ⟨h1, h2⟩
    exact ⟨one (exec_voutCommand_write ho hp hw y hy) rfl, one (exec_voutMax_write ho hp hw y hy) rfl⟩
  case voutInvalid =>
    have hy' : directOk y.toNat = false := Bool.eq_false_iff.mpr (fun hd => Nat.not_le.mpr hy (directOk_iff.mp hd).1)
    rw [exec_voutCommand_invalid ho hp hw y hy', State.onRails_one (s := a) hpg hn]; rfl
  case protect =>
    rw [exec_writeProtect, execWriteProtect, State.writeProtect, State.devByte_write ho hp (Core.wpRefuses_always _), wprotByte_find]; rfl
  case locked =>
    exact one (congrArg _ (State.voutLimit_write ho hp hw y true (directOk_iff.mpr ⟨h1, h2⟩))) (State.pmThr_locked (s := a) hl true _)
  case voutLimit =>
    have lim (hi : Bool) : s.voutLimit (.write (toLeBytes 2 y.toNat) pec) hi = _ :=
      State.voutLimit_write ho hp hw y hi (directOk_iff.mpr ⟨h1, h2⟩)
    exact ⟨fun hs => one (congrArg _ (lim true)) (State.pmThr_stored (s := a) hl rfl hs),
      fun hs => one (congrArg _ (lim false)) (State.pmThr_stored (s := a) hl rfl hs)⟩
  case vinLimit =>
    have lim (hi : Bool) : s.vinLimit (.write (toLeBytes 2 y.toNat) pec) hi = _ := State.vinLimit_write ho hp hw y hi
    exact ⟨fun hs => one (congrArg _ (lim true)) ((if_pos ⟨h1, h2⟩).trans (State.pmThr_stored (s := a) hl rfl hs)),
      fun hs => one (congrArg _ (lim false)) ((if_pos ⟨h1, h2⟩).trans (State.pmThr_stored (s := a) hl rfl hs))⟩
  case current => exact ⟨one (exec_ioutOcFaultLimit_write ho hp hw y h1 h2) rfl, one (exec_otFaultLimit_write ho hp hw y h1 h2) rfl⟩
  case clear =>
    have hr : s.core.pmRails = [n.val] := by rw [Core.pmRails, Core.pmPage, hpg, if_neg hn]
    rw [exec_clearFaults_write ho hp hw, hr, Core.clearFaults, List.foldl_cons, List.foldl_nil]
  case capability => rw [exec_capability, execCapability, State.devRo_write ho hp hw]; rfl
  case badPec =>
    rw [exec_operationOn, execOperationOn, State.operationOn_write s .bad h40 h00, State.railCmd, State.smbWrite_badPec ho rfl]; rfl

/-- Settles O57: each write with PAGE at 0xFF acts on rails 0 to 7 in turn. -/
theorem pmbusPageAllRails : Obligations.PmbusPageAllRails := by
  unfold Obligations.PmbusPageAllRails
  intro s ho hpg ones
  refine ⟨fun crc i hi => exec_railByteRead_all ho hpg crc hi, fun crc i hi => exec_railWordRead_all ho hpg crc hi, fun pec hp hw => ?_⟩
  intro a run all valid
  have each {i : Instr} {g : Nat → State → State} (hi : exec i s = .next (a.onRails (fun n t => (true, g n t))).rest.frameEnd) :
      exec i s = all g := by
    rw [hi, State.onRails_all_valid (s := a) hpg]
  have checked {i : Instr} (f : Nat → State → Bool × State) (hi : exec i s = .next (a.onRails f).rest.frameEnd) : exec i s = valid f := by
    rw [hi, State.onRails_all (s := a) hpg]; rfl
  refine ⟨each (exec_operationOn_write ho hp hw), each (exec_operationSoftOff_write ho hp hw),
    each (exec_operationImmediateOff_write ho hp hw),
    fun y => ?words, ?clear, fun v h8 hv => ?page⟩
  case words =>
    refine ⟨fun h1 h2 => ?_, fun h1 h2 => each (exec_voutTransitionRate_write ho hp hw y h1 h2), fun h1 h2 =>
      ⟨each (exec_ioutOcFaultLimit_write ho hp hw y h1 h2), each (exec_otFaultLimit_write ho hp hw y h1 h2)⟩,
      ?_⟩
    · have hy : directOk y.toNat = true := directOk_iff.mpr ⟨h1, h2⟩
      have lim (hi : Bool) := State.voutLimit_write ho hp hw y hi hy
      exact ⟨each (exec_voutCommand_write ho hp hw y hy), each (exec_voutMax_write ho hp hw y hy),
        checked (fun n t => t.pmThr n true (roundDiv y.toNat 16).toNat) (congrArg _ (lim true)),
        checked (fun n t => t.pmThr n false (roundDiv y.toNat 16).toNat) (congrArg _ (lim false))⟩
    · intro code limit
      have lim (hi : Bool) := State.vinLimit_write ho hp hw y hi
      exact ⟨checked (limit true) (congrArg _ (lim true)), checked (limit false) (congrArg _ (lim false))⟩
  case clear =>
    have hr : s.core.pmRails = List.range 8 := by rw [Core.pmRails, Core.pmPage, hpg, if_pos rfl]
    rw [exec_clearFaults_write ho hp hw, hr, Core.clearFaults]
  case page =>
    refine ⟨exec_page_invalid ho hp hw h8 hv, ?_⟩
    rw [Core.fld, Core.setCml, Core.raise_reg _ _ _ (by decide) (by decide) (by decide),
      Core.reg_setReg_other _ _ (by decide) (by decide) (.inr (by decide))]
    exact hpg

/-! ## Port assignments and orders (R107 to R110, R202) -/

theorem State.writeReg_assign (s : State) (k : Fin 24) (w : Word) :
    s.writeReg (pgP k) 0x20 w = s.onCore (fun c => c.assignPort k (getBits w 0 4) (getBits w 8 5)) := by
  fin_cases k <;> rfl

/-- An assignment reaches its port with the rail and the shed priority of its word (R107). -/
theorem exec_portAssign_open {s : State} (h : s.serviceRuns = true) (k : Fin 24) (rail shpri : Nat) :
    exec (.portAssign k rail shpri) s = .next (s.wrote (s.core.assignPort k (rail % 16) (shpri % 32))) := by
  have hr : getBits (BitVec.ofNat 32 (rail % 16 + 256 * (shpri % 32))) 0 4 = rail % 16 := by
    simp only [getBits, BitVec.toNat_ofNat]; omega
  have hs : getBits (BitVec.ofNat 32 (rail % 16 + 256 * (shpri % 32))) 8 5 = shpri % 32 := by
    simp only [getBits, BitVec.toNat_ofNat]; omega
  rw [exec_portAssign, execPortAssign,
    State.regWrite_core h (isSome_kindOf (kindOf_pgP k)) (.inr (by decide)) (State.writeReg_assign s k _), hr, hs]

theorem State.writeReg_commit (s : State) (n : Fin 8) (w : Word) (hw : bitOf w 0 = true) :
    s.writeReg (pgV n) 0xB8 w = s.onCore (fun c => c.commitOrder n) := by
  have e : s.writeReg (pgV n) 0xB8 w = s.onCore (fun c => if bitOf w 0 then c.commitOrder n else c) := by fin_cases n <;> rfl
  rw [e, hw]; rfl

/-- A commit of a rail's staged order reaches the rail (R110). -/
theorem exec_orderCommit_open {s : State} (h : s.serviceRuns = true) (n : Fin 8) :
    exec (.orderCommit n) s = .next (s.wrote (s.core.commitOrder n)) := by
  have hb : bitOf (setBits (s.core.wordOf (pgV n) 0xB8) 0 1 1) 0 = true := bitOf_setBits_one _ 0 1 (by decide)
  exact congrArg _ (State.fieldWrite_core h (isSome_kindOf (kindOf_pgV n)) (.inr (by decide)) (State.writeReg_commit s n _ hb))

/-- An order that a rail may take: the rail rests, its own slots name ports of the rail, and no phase stands twice (R110). -/
theorem Core.orderOk_iff (c : Core) (n : Fin 8) (l : List (Nat × Nat)) :
    c.orderOk n l = true ↔ ((c.rail n).rstate = .off ∨ (c.rail n).rstate = .safe) ∧
      (∀ p ∈ l, p.1 = 0 → p.2 < 24 ∧ c.portRail p.2 = n) ∧ l.Nodup := by
  have hn : ¬ 8 ≤ n.val := Nat.not_le.mpr n.isLt
  simp only [Core.orderOk, Core.restful, Bool.and_eq_true, Bool.or_eq_true, decide_eq_true_eq, List.all_eq_true, hn, false_or, and_assoc]
  refine and_congr_right (fun _ => and_congr_left (fun _ => ?_))
  exact forall₂_congr (fun p _ => by rw [ne_eq, imp_iff_not_or])

/-- Settles O27: the checks of an assignment and of a commit decide what is stored. -/
theorem assignmentAndOrders : Obligations.AssignmentAndOrders := by
  unfold Obligations.AssignmentAndOrders
  intro s h c
  refine ⟨fun k rail shpri => ?assign, fun n => ?commit⟩
  case assign =>
    intro pg new old
    have hn : (if rail % 16 % 16 < 8 || rail % 16 % 16 = 0xE then rail % 16 % 16 else 0xF) = new := by rw [Nat.mod_mod]
    rw [exec_portAssign_open h]
    refine ⟨fun hl => ?locked, fun hl hx => ?refused, fun hl hm ho hr => ⟨fun he => ?same, fun he => ?moved⟩⟩
    case locked => rw [Core.assignPort, if_pos hl]
    case refused => rw [Core.assignPort_refused _ _ _ _ _ hn hl hx]
    case same => rw [Core.assignPort_same _ _ _ _ _ hn hl hm ho hr he]
    case moved => rw [Core.assignPort_moved _ _ _ _ _ hn hl hm ho hr he]
  case commit =>
    intro slot l permitted
    have ok : c.orderOk n (c.staged n) = true ↔ permitted := c.orderOk_iff n l
    rw [exec_orderCommit_open h]
    refine ⟨fun hp => ?refused, fun hp => ?active⟩
    case refused => rw [Core.commitOrder_refused _ _ (Bool.eq_false_iff.mpr (fun ho => hp (ok.mp ho)))]
    case active => rw [Core.commitOrder_active _ _ (ok.mpr hp)]; rfl

/-! ## BOOT (R404 to R420) -/

/-- With VKEEP and its own supply good a pin follows the column of PARKED in PARKED (R420). -/
theorem State.pinCond_parked {s : State} {p : Pin} (h4 : s.pw.isGood 4 = true) (hp : s.pw.isGood p.supply = true)
    (hs : s.pw.pstate = .parked) : s.pinCond p = .parked := by
  simp [State.pinCond, h4, hp, hs]

/-- From the wake to the end of BOOT it follows the column of WAKING or that of the reset (R402, R420). -/
theorem State.pinCond_starting {s : State} {p : Pin} (h4 : s.pw.isGood 4 = true) (hp : s.pw.isGood p.supply = true)
    (hs : s.pw.pstate ≠ .parked) (hb : s.booted = false) : s.pinCond p = .waking ∨ s.pinCond p = .reset := by
  unfold State.pinCond
  simp only [h4, hp, hb]
  cases hx : s.pw.pstate with
  | parked => exact absurd hx hs
  | waking =>
    by_cases hc : s.pw.heldSince.contains p.supply = true
    · exact .inr (if_pos hc)
    · exact .inl (if_neg hc)
  | _ => exact .inr rfl

/-- A pin that the columns of WAKING and of the reset treat alike. -/
theorem State.pin_starting {s : State} {p : Pin} {x : PinState} (h4 : s.pw.isGood 4 = true) (hp : s.pw.isGood p.supply = true)
    (hs : s.pw.pstate ≠ .parked) (hb : s.booted = false) (hw : pinWaking p = x) (hr : s.pinReset p = x) : s.pin p = x := by
  rw [State.pin]
  obtain h | h := State.pinCond_starting h4 hp hs hb <;> rw [h]
  · exact hw
  · exact hr

theorem State.pin_parked {s : State} {p : Pin} (h4 : s.pw.isGood 4 = true) (hp : s.pw.isGood p.supply = true)
    (hs : s.pw.pstate = .parked) : s.pin p = pinParked p := by
  rw [State.pin, State.pinCond_parked h4 hp hs]

/-- Settles O51: each phase through its own end, and the end of BOOT through the state that it enters. -/
theorem bootRuns : Obligations.BootRuns := by
  unfold Obligations.BootRuns
  intro s
  refine ⟨fun h a0 a1 => ?start, fun h => ?phaseA, fun h => ?phaseB, fun h fails us => ?phaseC, fun h means csref => ?phaseD,
    fun h us => ?finish, fun h0 h4 k n => ?pins⟩
  case start =>
    have hs : s.bootStart a0 a1 = _ := if_neg (show ¬(!s.bootReady) = true by rw [h]; decide)
    rw [exec_bootStart, execBootStart, if_pos h, hs]
  case phaseA => rw [exec_bootPhaseAEnd, execBootPhaseAEnd, if_pos h]; rfl
  case phaseB =>
    rw [exec_bootPhaseBEnd, execBootPhaseBEnd, if_pos h, State.bootB]
    exact ⟨fun ho => by rw [ho]; rfl, fun ho => by rw [ho]; rfl⟩
  case phaseC => rw [exec_bootPhaseCEnd, execBootPhaseCEnd, if_pos h]; rfl
  case phaseD => rw [exec_bootPhaseDEnd, execBootPhaseDEnd, if_pos h]; rfl
  case finish =>
    intro t t1 t2 t3
    have ends : exec (.bootEnd us) s = .next (t2.enterFromBoot.applyHeldIf isBakeWrite).formReport.syncFlt.rest.frameEnd := by
      rw [exec_bootEnd, execBootEnd, if_pos h, State.bootEnd_eq]
    refine ⟨fun hg => ?up, fun hg => ?grave⟩
    case up => rw [ends, State.enterFromBoot_up t2 hg]
    case grave => rw [ends, State.enterFromBoot_grave t2 hg]; rfl
  case pins =>
    refine ⟨fun hp => ⟨?_, ?_, ?_, ?_⟩, fun hp hb => ⟨?_, ?_, ?_, ?_⟩⟩
    · exact State.pin_parked h4 h4 hp
    · exact State.pin_parked h4 h0 hp
    · exact State.pin_parked h4 h0 hp
    · exact State.pin_parked h4 h0 hp
    · exact State.pin_starting h4 h4 hp hb rfl rfl
    · exact State.pin_starting h4 h0 hp hb rfl rfl
    · exact State.pin_starting h4 h0 hp hb rfl rfl
    · exact State.pin_starting h4 h0 hp hb rfl rfl

end Sys2Proof.Machine

/-! PROOFS of the statements of the family of the rail loop: a rail's enable, the proof ramp and power good, window samples
and firings, engines, calibration and the phase ADC. -/
namespace Sys2Proof.Machine

/-! ## A rail's enable (R88 to R92, R238) -/

theorem State.writePage_rail (s : State) (n : Fin 8) (off : Nat) (w : Word) :
    s.writePage (pgV n) off w = s.onCore (fun c => c.writeV n off w) := by
  fin_cases n <;> rfl

/-- No field of Vn_CTRL is a request that reads 0, so every bit but PRST goes back as it stands. -/
theorem Core.getBits_railCtrl (c : Core) (n : Fin 8) {lo : Nat} (h : lo < 31) :
    getBits (c.wordOf (pgV n) 0x04) lo 1 = getBits (c.reg (pgV n) 0x04) lo 1 := by
  have plain : ∀ f ∈ fieldsAt .v 0x04, f.acc ≠ .w1s := by decide
  refine getBits_wordOf c 0x04 lo 1 (kindOf_pgV n) (.inr h) (List.all_eq_true.mpr fun f hf => ?_)
  simp [plain f hf]

/-- What a write of EN and SOFTOFF that keeps the other bits of Vn_CTRL does to the core (R89, R127, R133). -/
def Core.railCtrl (c : Core) (n : Fin 8) (en soft : Bool) : Core :=
  let k := (c.setFld (pgV n) V_CTRL_AUTOSHED (c.fld (pgV n) V_CTRL_AUTOSHED)).setFld (pgV n) V_CTRL_KNEADEN (c.fld (pgV n) V_CTRL_KNEADEN)
  (k.writeEn n en soft true).retarget n false

/-- A write of Vn_CTRL that leaves AUTOSHED and KNEADEN as they stand (R89, R133). -/
theorem State.regWrite_railCtrl {s : State} (h : s.serviceRuns = true) (n : Fin 8) {w : Word} {en soft : Bool}
    (hen : bitOf w 0 = en) (hsoft : bitOf w 1 = soft) (hprst : bitOf w 31 = false)
    (hshed : getBits w 8 1 = s.core.fld (pgV n) V_CTRL_AUTOSHED) (hknead : getBits w 9 1 = s.core.fld (pgV n) V_CTRL_KNEADEN) :
    s.regWrite (pgV n) 0x04 w = s.wrote (s.core.railCtrl n en soft) := by
  refine State.regWrite_core h (isSome_kindOf (kindOf_pgV n)) (.inr (by decide)) ?_
  rw [State.writeReg_ctrl _ _ _ hprst, State.writePage_rail, State.onCore, Core.railCtrl, ← hshed, ← hknead, ← hen, ← hsoft]
  rfl

theorem getBits_putBit_other (w : Word) {i lo : Nat} (b : Bool) (h : i < lo) (hi : i < 32) : getBits (putBit w i b) lo 1 = getBits w lo 1 :=
  getBits_setBits_other _ _ _ _ _ _ hi (.inl h)

/-- An enable of a rail: every bit of Vn_CTRL but EN goes back as it stands (R89, log 5). -/
theorem exec_railEnable_open {s : State} (h : s.serviceRuns = true) (n : Fin 8) :
    exec (.railEnable n) s = .next (s.wrote (s.core.railCtrl n true (s.core.flag (pgV n) V_CTRL_SOFTOFF))) := by
  have kept {lo : Nat} (h0 : 0 < lo) (h31 : lo < 31) :
      getBits (putBit (s.core.wordOf (pgV n) 0x04) 0 true) lo 1 = getBits (s.core.reg (pgV n) 0x04) lo 1 := by
    rw [getBits_putBit_other _ _ h0 (by decide), Core.getBits_railCtrl _ _ h31]
  refine congrArg _ (State.regWrite_railCtrl h n (bitOf_putBit_same _ _ _ (by decide)) ?_ (Core.wordOf_prst _ _ _ _ _ (by decide))
    (kept (by decide) (by decide)) (kept (by decide) (by decide)))
  exact (bitOf_getBits _ 1).trans (by rw [kept (by decide) (by decide)]; rfl)

/-- A disable of a rail with its SOFTOFF: the bits of Vn_CTRL above them go back as they stand (R91, log 5). -/
theorem exec_railDisable_open {s : State} (h : s.serviceRuns = true) (n : Fin 8) (soft : Bool) :
    exec (.railDisable n soft) s = .next (s.wrote (s.core.railCtrl n false soft)) := by
  have kept {lo : Nat} (h1 : 1 < lo) (h31 : lo < 31) :
      getBits (putBit (putBit (s.core.wordOf (pgV n) 0x04) 0 false) 1 soft) lo 1 = getBits (s.core.reg (pgV n) 0x04) lo 1 := by
    rw [getBits_putBit_other _ _ h1 (by decide), getBits_putBit_other _ _ (by omega) (by decide), Core.getBits_railCtrl _ _ h31]
  refine congrArg _ (State.regWrite_railCtrl h n ?_ (bitOf_putBit_same _ _ _ (by decide)) ?_
    (kept (by decide) (by decide)) (kept (by decide) (by decide)))
  · rw [bitOf_putBit_other _ _ _ _ (by decide) (by decide), bitOf_putBit_same _ _ _ (by decide)]
  · rw [bitOf_putBit_other _ _ _ _ (by decide) (by decide)]
    exact Core.wordOf_prst _ _ _ _ _ (by decide)

/-- Settles O22: the write of Vn_CTRL reaches EN and SOFTOFF, and the rail's state decides what they do. -/
theorem railEnableAndTurnOff : Obligations.RailEnableAndTurnOff := by
  unfold Obligations.RailEnableAndTurnOff
  intro s n h
  dsimp only
  refine ⟨?enable, fun soft => ?disable, fun d soft host hw => ?effect⟩
  case enable => exact exec_railEnable_open h n
  case disable => exact exec_railDisable_open h n soft
  case effect =>
    have writes (en : Bool) := d.writeEn_eq n en soft host hw
    have one : b2n true = 1 := rfl
    have zero : b2n false = 0 := rfl
    refine ⟨fun he hs => ?_, fun he hs => ?_, fun he => ?_, fun hs => ⟨?_, ?_⟩, fun hs => ?_, fun hs => ?_, fun hs => ?_, fun he hs => ?_⟩
    · simp only [writes, one, he, hs, Bool.false_eq_true, if_true, if_false]
    · simp only [writes, one, he, hs, Bool.false_eq_true, if_true, if_false]
    · simp only [writes, one, he, if_true]
    · simp only [writes, one, hs, ite_self]
    · simp only [writes, zero, hs, Bool.false_eq_true, if_false]
    · simp only [writes, zero, hs, Bool.false_eq_true, if_false]
    · simp only [writes, zero, hs, Bool.false_eq_true, if_false]
    · simp only [writes, zero, hs, Bool.false_eq_true, if_false]
    · obtain hs | hs | hs := hs <;> simp only [writes, zero, he, hs, Bool.not_true, Bool.false_eq_true, if_false]

/-! ## The proof ramp and power good (R89, R90, R94, R98) -/

/-- The checks of step 1 all pass: the pre-bias search begins (R90, log 88). -/
theorem Core.precheckDone_passes (c : Core) (n : Nat) (hs : (c.rail n).rstate = .precheck) (h1 : (c.rail n).preStage = 1)
    (hk : c.precheckFails n = 0) :
    c.precheckDone n = c.modRail n (fun r =>
      { r with preStage := 2, pbCode := 0, pbCount := 0, centre2 := r.centre1, centre1 := 4096 * (2048 : Nat) }) := by
  simp only [Core.precheckDone, hs, h1, hk, ne_eq, not_true, decide_false, Bool.or_self, Bool.false_eq_true, if_false, if_true]
  rfl

/-- The first check that fails puts the rail OFF with RAMPFAIL of its number (R90, log 16). -/
theorem Core.precheckDone_fails (c : Core) (n : Nat) (hs : (c.rail n).rstate = .precheck) (h1 : (c.rail n).preStage = 1)
    (hk : c.precheckFails n ≠ 0) : c.precheckDone n = (c.enterOff n).rampFail n (c.precheckFails n) := by
  simp only [Core.precheckDone, hs, h1, hk, ne_eq, not_true, decide_false, Bool.or_self, Bool.false_eq_true, if_false]

/-- The search has all its samples: the rail enters PROOF from the voltage that PBEN lets it start at (R90 step 4). -/
theorem Core.prebiasDone_enters (c : Core) (n : Nat) (hs : (c.rail n).rstate = .precheck) (h2 : (c.rail n).preStage = 2)
    (hc : 96 ≤ (c.rail n).pbCount) :
    c.prebiasDone n = (((c.modRail n (fun r => { r with
      rstate := .proof
      vref := if c.flag (pgV n) V_CFG_PBEN ∧ (c.rail n).pbCode < c.goal n then (c.rail n).pbCode * 102400 else 0
      yAcc := 0, preStage := 0, arrived := false })).setMembers n).recomputeTon n).vinOnProof n := by
  simp only [Core.prebiasDone, hs, h2, Nat.not_lt.mpr hc, ne_eq, not_true, decide_false, Bool.or_self, Bool.false_eq_true, if_false,
    Bool.and_eq_true, decide_eq_true_eq]

/-- The latest error lies in the power-good window (R94). -/
theorem Core.inPgWin_iff (c : Core) (n : Nat) :
    c.inPgWin n = true ↔ (c.rail n).sat = false ∧ (c.rail n).e.natAbs ≤ 128 * c.fld (pgV n) V_PG_PGWIN := by
  simp only [Core.inPgWin, Bool.and_eq_true, Bool.not_eq_true', decide_eq_true_eq]

/-- Power good rises (R94). -/
theorem Core.pgRise_rises (c : Core) (n us : Nat) (hs : (c.rail n).rstate = .hold ∨ (c.rail n).rstate = .slew)
    (hg : c.stat (pgV n) 0 = false) (hw : c.inPgWin n = true) (ht : c.fld (pgV n) V_PG_PGDLY ≤ us) :
    c.pgRise n us = ((c.setLevel (pgV n) 0 true).railEvent n 0).modRail n (fun r => { r with preStage := 0 }) :=
  if_pos (by simp only [hg, hw, ht, Bool.and_eq_true, Bool.or_eq_true, decide_eq_true_eq, Bool.not_false, and_true]; exact hs)

/-- Power good falls (R94). -/
theorem Core.pgLost_falls (c : Core) (n ns : Nat) (ht : 1000 ≤ ns) (hw : c.inPgWin n = false) (hg : c.stat (pgV n) 0 = true) :
    c.pgLost n ns = (c.setStat (pgV n) 0 false).railEvent n 1 := by
  rw [Core.pgLost, hw, if_pos (by simpa using ht), Core.pgFall, if_pos hg]

/-- PGTMO passes without power good (R90 step 6a). -/
theorem Core.pgTimeout_fails (c : Core) (n us : Nat) (h3 : (c.rail n).preStage = 3) (ht : c.fld (pgV n) V_PG_PGTMO ≤ us) :
    c.pgTimeout n us = (c.modRail n (fun r => { r with preStage := 0 })).rampFail n 6 :=
  if_pos (by simp only [h3, ht, decide_true, Bool.and_self])

/-- Settles O23: each step of the ramp and each edge of power good through the operation of the rail. -/
theorem proofRampAndPowerGood : Obligations.ProofRampAndPowerGood := by
  unfold Obligations.ProofRampAndPowerGood
  intro s n h c pg r
  refine ⟨fun hs h1 hk => ?passes, fun hs h1 hk => ?fails, fun hs h2 hc => ?proof, fun us hs hg hsat he ht => ?rise,
    fun ns ht hw hg => ?fall, fun us h3 ht => ?timeout⟩
  case passes => rw [exec_precheckDone, execPrecheckDone, State.control_eq h, Core.precheckDone_passes _ _ hs h1 hk]
  case fails =>
    rw [exec_precheckDone, execPrecheckDone, State.control_eq h, Core.precheckDone_fails _ _ hs h1 hk]
    rfl
  case proof => rw [exec_prebiasDone, execPrebiasDone, State.control_eq h, Core.prebiasDone_enters _ _ hs h2 hc]
  case rise =>
    have hin : c.inPgWin n = true := (c.inPgWin_iff n).mpr ⟨hsat, he⟩
    rw [exec_pgoodRise, execPgoodRise, State.control_eq h, Core.pgRise_rises _ _ _ hs hg hin ht]
  case fall =>
    have hout : c.inPgWin n = false := Bool.eq_false_iff.mpr fun hin => by
      obtain ⟨hsat, he⟩ := (c.inPgWin_iff n).mp hin
      obtain hx | hx := hw
      · exact absurd (hsat.symm.trans hx) (by decide)
      · exact absurd he (Nat.not_le.mpr hx)
    rw [exec_pgoodFall, execPgoodFall, State.control_eq h, Core.pgLost_falls _ _ _ ht hout hg]
  case timeout =>
    rw [exec_rampfailPgtmo, execRampfailPgtmo, State.control_eq h, Core.pgTimeout_fails _ _ _ h3 ht]
    rfl

/-! ## Window samples and firings (R65 to R77, R109, R118) -/

/-- What a firing that R76 permits does to the port at the pointer, counted already: a crowbar or a trip stops it, a remote port
waits for its slot, and a port at its limit takes the limit's path (R203, R230, R233, R248). -/
def Core.portFires (c : Core) (n : Nat) (x : Slot) (lat : Nat) : Core :=
  let stopped := c.crowHeld n || c.tripped n
  if x.dev ≠ 0 then (if stopped then c else c.modRail n (fun r => { r with due := r.due ++ [⟨x.dev, x.port, c.time.toNat⟩] }))
  else if stopped then c
  else if c.limitHi x.port then c.limitedFiring x.port
  else (c.driveHigh n x).stampLatency n lat

/-- A firing that R76 permits is counted, reaches its port and moves the pointer on. -/
theorem Core.railFire_permitted (c : Core) {n since off : Nat} (lat : Nat) {x : Slot} (hx : (c.rail n).order[(c.rail n).ptr]? = some x)
    (hf : c.mayFire n since = true) (ht : x.turn = true) (ho : c.offDone n x off = true) :
    c.railFire n since off lat = ((c.incWrap (pgE (c.railEng n)) E_FIRES_COUNT 1).portFires n x lat).afterFiring n x := by
  simp only [Core.railFire, hx, hf, ht, ho, Core.portFires, Bool.and_self, Bool.not_true, Bool.false_eq_true, if_false]

theorem Core.portFires_stopped (c : Core) (n : Nat) (x : Slot) (lat : Nat) (h : c.crowHeld n = true ∨ c.tripped n = true) :
    c.portFires n x lat = c := by
  simp only [Core.portFires, Bool.or_eq_true, h, if_true, ite_self]

theorem Core.portFires_remote (c : Core) (n : Nat) (x : Slot) (lat : Nat) (hd : x.dev ≠ 0) (hc : c.crowHeld n = false)
    (ht : c.tripped n = false) :
    c.portFires n x lat = c.modRail n (fun r => { r with due := r.due ++ [⟨x.dev, x.port, c.time.toNat⟩] }) := by
  simp only [Core.portFires, hc, ht, hd, Bool.or_self, Bool.false_eq_true, if_false, ne_eq, not_false_eq_true, if_true]

theorem Core.portFires_limited (c : Core) (n : Nat) (x : Slot) (lat : Nat) (hd : x.dev = 0) (hc : c.crowHeld n = false)
    (ht : c.tripped n = false) (hl : c.limitHi x.port = true) : c.portFires n x lat = c.limitedFiring x.port := by
  simp only [Core.portFires, hc, ht, hd, hl, Bool.or_self, Bool.false_eq_true, if_false, ne_eq, not_true, if_true]

theorem Core.portFires_high (c : Core) (n : Nat) (x : Slot) (lat : Nat) (hd : x.dev = 0) (hc : c.crowHeld n = false)
    (ht : c.tripped n = false) (hl : c.limitHi x.port = false) :
    c.portFires n x lat = (c.driveHigh n x).stampLatency n lat := by
  simp only [Core.portFires, hc, ht, hd, hl, Bool.or_self, Bool.false_eq_true, if_false, ne_eq, not_true]

/-- INTG.IRST written with the rest of its register puts the integrator to 0 (R75). -/
theorem State.writeReg_irst (s : State) (n : Fin 8) {w : Word} (h : bitOf w 16 = true) :
    s.writeReg (pgV n) 0x3C w = { s with core := (s.core.putFields (pgV n) .v 0x3C w).integReset n } := by
  have e : s.writeReg (pgV n) 0x3C w = s.onCore (fun c =>
      let d := c.putFields (pgV n) .v 0x3C w
      if bitOf w 16 then d.integReset n else d) := by
    rw [State.writeReg_beyondHead _ _ _ (by decide), State.writePage_rail]; rfl
  rw [e, h]; rfl

theorem exec_integratorReset_open {s : State} (h : s.serviceRuns = true) (n : Fin 8) :
    exec (.integratorReset n) s = .next (s.wrote
      ((s.core.putFields (pgV n) .v 0x3C (setBits (s.core.wordOf (pgV n) 0x3C) 16 1 1)).integReset n)) :=
  congrArg _ (State.fieldWrite_core (f := V_INTG_IRST) h (isSome_kindOf (kindOf_pgV n)) (.inr (by decide))
    (State.writeReg_irst s n (bitOf_setBits_one _ 16 1 (by decide))))

/-- Settles O24: a sample takes the path of a rail that fires or that of one that does not, and a permitted firing that of
its port. -/
theorem windowSampleAndFiring : Obligations.WindowSampleAndFiring := by
  unfold Obligations.WindowSampleAndFiring
  intro s n h c r
  refine ⟨fun d lag2 mism => ?sample, fun since off lat x hx hf ht ho => ?fire, fun k hk => ?ends, fun k hk => ?stays, fun hs => ?irst⟩
  case sample =>
    intro q sat vc e vo c1
    rw [exec_windowSample, execWindowSample, State.control_eq h]
    refine ⟨fun hf => ?_, fun hf => ?_⟩
    · rw [Core.windowSample, if_pos hf]
    · rw [Core.windowSample, if_neg (Bool.eq_false_iff.mp hf)]
      simp only [Bool.and_eq_true, decide_eq_true_eq]
      rfl
  case fire =>
    intro c1
    have fires : exec (.railFire n since off lat) s = .next (s.after ((c1.portFires n x lat).afterFiring n x)) := by
      rw [exec_railFire, execRailFire, State.control_eq h, Core.railFire_permitted _ lat hx hf ht ho]
    refine ⟨fun hd hc hp hl => ?_, fun hd hc hp hl => ?_, fun hd hc hp => ?_, fun hc => ?_⟩
    · rw [fires, Core.portFires_high _ _ _ _ hd hc hp hl]
    · rw [fires, Core.portFires_limited _ _ _ _ hd hc hp hl]
    · rw [fires, Core.portFires_remote _ _ _ _ hd hc hp, show c1.time = c.time from Core.incWrap_time ..]
    · rw [fires, Core.portFires_stopped _ _ _ _ hc]
  case ends => rw [exec_onTimeEnd, execOnTimeEnd, State.control_eq h, Core.onTimeEnd, if_pos hk]
  case stays => rw [exec_onTimeEnd, execOnTimeEnd, State.control_eq h, Core.onTimeEnd, if_neg hk]
  case irst => exact exec_integratorReset_open hs n

/-! ## Engines (R82, R96, R99, R424, R431) -/

/-- A write of En_CTRL with SNAP at 1 takes a snapshot (R99). -/
theorem State.writePage_snap (s : State) (j : Fin 10) {w : Word} (hw : bitOf w 0 = true) :
    s.writePage (pgE j) 0x04 w = { s with core := s.core.engineSnap j } := by
  have e : s.writePage (pgE j) 0x04 w = if bitOf w 0 then s.onCore (fun c => c.engineSnap j) else s := by fin_cases j <;> rfl
  rw [e, hw]; rfl

theorem exec_engineSnapshot_open {s : State} (h : s.serviceRuns = true) (j : Fin 10) :
    exec (.engineSnapshot j) s = .next (s.wrote (s.core.engineSnap j)) :=
  congrArg _ (State.fieldWrite_ctrl (f := E_CTRL_SNAP) h (isSome_kindOf (kindOf_pgE j)) rfl (by decide)
    (State.writePage_snap s j (bitOf_setBits_one _ 0 1 (by decide))))

/-- A waiting compensation word comes into use while no phase of the rail is high (R82). -/
theorem Core.applyComp_applies (c : Core) (j : Nat) (hr : c.engRail j ≠ 15) (hn : (c.eng j).compNew = true)
    (ho : (c.rail (c.engRail j)).order.all (fun x => c.slotPwm x ≠ .high) = true) :
    c.applyComp j = c.modEng j (fun e => { e with compNew := false, comp := e.compIn }) := by
  have low : (c.rail (c.engRail j)).order.any (fun x => c.slotPwm x = .high) = false :=
    List.any_eq_false.mpr fun x hx => by simpa using List.all_eq_true.mp ho x hx
  refine if_neg ?_
  simp only [hr, hn, low, decide_false, Bool.not_true, Bool.or_self, Bool.false_eq_true, not_false_eq_true]

/-- It waits on where no rail is served, none has come or a phase of the rail is high (R82). -/
theorem Core.applyComp_waits (c : Core) (j : Nat) (h : c.engRail j = 15 ∨ (c.eng j).compNew = false ∨
    (c.rail (c.engRail j)).order.any (fun x => c.slotPwm x = .high) = true) : c.applyComp j = c :=
  if_pos (by simpa only [Bool.or_eq_true, decide_eq_true_eq, Bool.not_eq_true', or_assoc] using h)

/-- The firing boundary of a rail looks for the takeover that waits there (R96). -/
theorem exec_engineTakeover_open {s : State} (h : s.controlRuns = true) (n : Fin 8) :
    exec (.engineTakeover n) s = .next (s.after (s.core.doTakeover n)) := by
  rw [exec_engineTakeover, execEngineTakeover, State.control_eq h]

/-! ## Calibration and the phase ADC (R102, R103, R227, R281) -/

theorem State.writePage_port (s : State) (k : Fin 24) (off : Nat) (w : Word) :
    s.writePage (pgP k) off w = s.onCore (fun c => c.writeP k off w) := by
  fin_cases k <;> rfl

/-- CALSTART written alone: IDSTART reads 0 when Pk_CTRL is written back. -/
theorem Core.idstart_zero (c : Core) (k : Fin 24) : bitOf (setBits (c.wordOf (pgP k) 0x04) 1 1 1) 0 = false := by
  have reads0 : (fieldsAt .p 0x04).any (fun f => f.acc = .w1s && f.lo ≤ 0 && 0 < f.lo + f.len) = true := by decide
  rw [bitOf_setBits_other _ _ _ _ _ (by decide) (.inl (by decide)), bitOf_wordOf _ _ _ (kindOf_pgP k), reads0, Bool.not_true,
    Bool.and_false, Bool.false_and]

theorem exec_calStart_open {s : State} (h : s.serviceRuns = true) (k : Fin 24) :
    exec (.calStart k) s = .next (s.wrote (s.core.calStart k)) := by
  refine congrArg _ (State.fieldWrite_ctrl (f := P_CTRL_CALSTART) h (isSome_kindOf (kindOf_pgP k)) rfl (by decide) ?_)
  have id0 : bitOf (setBits (s.core.wordOf (pgP k) 0x04) P_CTRL_CALSTART.lo P_CTRL_CALSTART.len 1) 0 = false := s.core.idstart_zero k
  have cal1 : bitOf (setBits (s.core.wordOf (pgP k) 0x04) P_CTRL_CALSTART.lo P_CTRL_CALSTART.len 1) 1 = true :=
    bitOf_setBits_one _ 1 1 (by decide)
  simp only [State.writePage_port, State.onCore, Core.writeP, id0, cal1, Bool.false_eq_true, if_false, if_true]

/-- A calibration in its range and within its limit stores its mean and passes (R103). -/
theorem Core.calResult_passes (c : Core) (k : Nat) (mean : Int) (hm : mean.natAbs ≤ 256) :
    c.calResult k mean true = ((((c.modPort k (fun p => { p with calBusy := false })).setSfld (pgP k) P_CSCAL_OFS mean).setStat (pgP k) 1
      true).raise (pgP k) 1) := by
  simp only [Core.calResult, hm, decide_true, Bool.and_self, if_true]

/-- Any other fails; the mean of one in its range is stored all the same (R103, R227, log 27). -/
theorem Core.calResult_fails (c : Core) (k : Nat) (mean : Int) (ok : Bool) (h : ok = false ∨ 256 < mean.natAbs) :
    c.calResult k mean ok =
      (let d := c.modPort k (fun p => { p with calBusy := false })
       let d := if ok then d.setSfld (pgP k) P_CSCAL_OFS mean else d
       (((d.setStat (pgP k) 1 false).raise (pgP k) 2).send 0x11 0 (mkAddr 2 k)).holdLimits k) := by
  refine if_neg ?_
  simp only [Bool.and_eq_true, decide_eq_true_eq, not_and, Nat.not_le]
  exact fun ho => h.resolve_left (by rw [ho]; decide)

/-- Settles O26: each command through the operation of its engine or port. -/
theorem enginesAndCalibration : Obligations.EnginesAndCalibration := by
  unfold Obligations.EnginesAndCalibration
  intro s h c
  have hc : s.controlRuns = true := State.serviceRuns_control h
  refine ⟨fun j => ?engine, fun n j => ?takeover, fun k => ⟨fun hm => ?calStart, fun hm => ?rejected, fun mean ok hb => ?calDone,
    fun code hb => ?sample⟩⟩
  case engine =>
    intro pg n r
    refine ⟨fun hn => ?_, fun hn => ?_, fun hr hw ho => ?_, fun hw => ?_⟩
    · rw [exec_engineSnapshot_open h, Core.engineSnap_rail s.core j n rfl hn]
    · rw [exec_engineSnapshot_open h, Core.engineSnap_none s.core j n rfl hn]
    · rw [exec_compWordApply, execCompWordApply, State.control_eq hc, Core.applyComp_applies _ _ hr hw ho]
    · rw [exec_compWordApply, execCompWordApply, State.control_eq hc, Core.applyComp_waits _ _ hw]
  case takeover =>
    intro undue took
    have takes (e : Core) : e.takeRail n j = took e := by
      by_cases ho : e.railEng n = 15
      · rw [Core.takeRail_none _ _ _ ho]; exact (if_neg (not_not_intro ho)).symm
      · rw [Core.takeRail_some _ _ _ _ rfl ho]; exact (if_pos ho).symm
    rw [exec_engineTakeover_open hc]
    refine ⟨fun ht => ?_, fun ht hd hs => ?_, fun ht hd hs => ?_, fun ht hd => ?_⟩
    · rw [Core.doTakeover_eq _ _ _ ht, takes]
    · rw [Core.doTakeover_none _ _ ht, Core.swapRetired_spare _ _ _ hd hs, takes]
    · rw [Core.doTakeover_none _ _ ht, Core.swapRetired_none _ _ hd hs]
    · rw [Core.doTakeover_none _ _ ht, Core.swapRetired_idle _ _ hd]
  case calStart => rw [exec_calStart_open h, Core.calStart, if_pos hm]
  case rejected => rw [exec_calStart_open h, Core.calStart, if_neg hm]
  case calDone =>
    have ends : exec (.calDone k mean ok) s = .next (s.after (s.core.calResult k mean ok)) := by
      rw [exec_calDone, execCalDone, State.control_eq hc, Core.calDone, if_pos hb]
    intro d d'
    refine ⟨fun ho hm => ?_, fun hf => ?_⟩
    · subst ho
      rw [ends, Core.calResult_passes _ _ _ hm]
      rfl
    · rw [ends, Core.calResult_fails _ _ _ _ hf]
  case sample =>
    intro q i low d d'
    rw [exec_phaseAdcSample, execPhaseAdcSample, State.control_eq hc, Core.phaseSample, if_neg (Bool.eq_false_iff.mp hb)]
    rfl

end Sys2Proof.Machine

/-! PROOFS of the statements of the family of phases, firing and shedding: identification and sharing, the loop channel,
lending and broken rings. -/
namespace Sys2Proof.Machine

/-! ## Paths that are open -/

/-- A command that changes the core over a control path, once its change is known (R18). -/
theorem State.control_next {s : State} (h : s.controlRuns = true) {f : Core → Core} {d : Core} (hd : f s.core = d) :
    (.next (s.control f) : Result) = .next (s.after d) := by
  rw [State.control_eq h, hd]

/-- A frame of VC1 to VC3 that the device acts on, once what it brings is known (R193, R194). -/
theorem State.ringIn_next {s : State} (h : s.serviceRuns = true) {fh : FrameHead} {m : RingMsg} {d : Core}
    (hl : s.core.listens fh = true) (hh : s.core.heeds fh = true) (hm : ∀ id, m ≠ .enum id)
    (hd : (s.core.taken fh m).ringAct fh.src [] m = d) :
    (.next (s.ringIn (fun c => c.rxMsg fh m [])) : Result) = .next (s.after (s.core.passes fh m d)) := by
  rw [State.ringIn_eq h, Core.rxMsg_takes _ _ _ _ (State.serviceRuns_depth h) hm hl hh, hd]

/-! ## Identification and current sharing (R111, R116, R119 to R122, R206) -/

/-- IDSTART written alone: CALSTART reads 0 when Pk_CTRL is written back. -/
theorem Core.calstart_zero (c : Core) (k : Fin 24) : bitOf (setBits (c.wordOf (pgP k) 0x04) 0 1 1) 1 = false := by
  have reads0 : (fieldsAt .p 0x04).any (fun f => f.acc = .w1s && f.lo ≤ 1 && 1 < f.lo + f.len) = true := by decide
  rw [bitOf_setBits_other _ _ _ _ _ (by decide) (.inr (by decide)), bitOf_wordOf _ _ _ (kindOf_pgP k), reads0, Bool.not_true,
    Bool.and_false, Bool.false_and]

theorem exec_idStart_open {s : State} (h : s.serviceRuns = true) (k : Fin 24) :
    exec (.idStart k) s = .next (s.wrote (s.core.identStart k)) := by
  refine congrArg _ (State.fieldWrite_ctrl (f := P_CTRL_IDSTART) h (isSome_kindOf (kindOf_pgP k)) rfl (by decide) ?_)
  have id1 : bitOf (setBits (s.core.wordOf (pgP k) 0x04) P_CTRL_IDSTART.lo P_CTRL_IDSTART.len 1) 0 = true :=
    bitOf_setBits_one _ 0 1 (by decide)
  have cal0 : bitOf (setBits (s.core.wordOf (pgP k) 0x04) P_CTRL_IDSTART.lo P_CTRL_IDSTART.len 1) 1 = false := s.core.calstart_zero k
  simp only [State.writePage_port, State.onCore, Core.writeP, id1, cal0, Bool.false_eq_true, if_false, if_true]

/-- IDSTART asks the arbiter (R119). -/
theorem Core.identStart_asks (c : Core) (k : Nat) (hi : c.stat (pgP k) 3 = false) (hl : c.lentBound k = false) :
    c.identStart k = (c.requestAct ⟨actIDENT, k, 0⟩).pumpIdents := by
  rw [Core.identStart, if_neg (by rw [hi]; decide), if_neg (by rw [hl]; decide)]

/-- IDSTART of a lent port goes to the owner (R206, log 75). -/
theorem Core.identStart_lent (c : Core) (k : Nat) (hi : c.stat (pgP k) 3 = false) (hl : c.lentBound k = true) :
    c.identStart k = c.sendMsg (c.fld pgLNK (LNK_LEND_OWNER k)) (.idRequest k (some (c.idCfg k))) := by
  rw [Core.identStart, if_neg (by rw [hi]; decide), if_pos hl]

theorem Core.identStart_busy (c : Core) (k : Nat) (hi : c.stat (pgP k) 3 = true) : c.identStart k = c := if_pos hi

theorem Core.idEnd_local (c : Core) (k : Nat) (hl : c.lnk.idLent.contains k = false) : c.idEnd 0 k = c.idEndLocal k := by
  rw [Core.idEnd, if_neg (by decide), if_neg (by rw [hl]; decide)]

theorem Core.idEnd_lent (c : Core) (k : Nat) (hl : c.lnk.idLent.contains k = true) : c.idEnd 0 k = c.idEndLent k := by
  rw [Core.idEnd, if_neg (by decide), if_pos hl]

theorem Core.idEnd_remote (c : Core) {dev : Nat} (k : Nat) (hd : dev ≠ 0) :
    c.idEnd dev k = (List.range 8).foldl (fun (c : Core) n => c.idEndRemote n dev k) c := if_pos hd

/-- Results within the ranges of CAUSE 0 are good ones (R122). -/
theorem identGood_inRange {v : Option Nat × Option Nat} {l r : Nat} (hv : v = (some l, some r)) (l1 : 160 ≤ l) (l2 : l ≤ 16000)
    (r1 : 50 ≤ r) (r2 : r ≤ 4095) : identGood v = some (l, r) := by
  subst hv
  exact if_pos (by simp only [identInRange, l1, l2, r1, r2, decide_true, Bool.and_self])

/-- The raw results of a local port's identification `v` in their fields (R120). -/
def Core.rawResults (c : Core) (k : Nat) (v : Option Nat × Option Nat) : Core :=
  (c.setRawOpt (pgP k) P_IDRES_LRAW v.1).setRawOpt (pgP k) P_IDRES_RRAW v.2

section
variable {c d : Core} {k : Nat} {x : Slot} (hd : c.modPort k (fun p => { p with ident := p.ident.turn c.time.toNat }) = d)
  (hb : (d.port k).ident.busy = true) (hf : (d.port k).fit.done = true) (hn : (d.port k).ident.nrep ≤ (d.port k).ident.pairs)
  (hx : d.slotOf k = some x)
include hd hb hf hn hx

/-- Both measurements are complete with results in their ranges: the port keeps them (R120, R122). -/
theorem Core.idEndLocal_good {l r : Nat}
    (hg : identGood (d.identResult (d.portRail k) x (d.port k).ident (d.port k).fit.slope) = some (l, r)) :
    c.idEndLocal k =
      (((d.rawResults k (d.identResult (d.portRail k) x (d.port k).ident (d.port k).fit.slope)).setFld (pgP k) P_LHAT_L l).setFld
        (pgP k) P_RHAT_DCR r).endIdent k 0 := by
  subst hd
  rw [Core.idEndLocal_done c k x (by simp only [hb, hf, hn, decide_true, Bool.and_self]) hx]
  dsimp only
  rw [hg]
  rfl

/-- Both are complete, with a result out of its range or none: the raw results alone stay (R122). -/
theorem Core.idEndLocal_bad
    (hg : identGood (d.identResult (d.portRail k) x (d.port k).ident (d.port k).fit.slope) = none) :
    c.idEndLocal k =
      (d.rawResults k (d.identResult (d.portRail k) x (d.port k).ident (d.port k).fit.slope)).endIdent k 1 := by
  subst hd
  rw [Core.idEndLocal_done c k x (by simp only [hb, hf, hn, decide_true, Bool.and_self]) hx]
  dsimp only
  rw [hg]
  rfl
end

/-- A sharing deviation beyond the limit for 16 periods (R116). -/
theorem Core.shareRise_sets (c : Core) (k : Nat) {periods : Nat} (hp : 16 ≤ periods) (ha : c.portActive k = true)
    (hb : c.shareBad k = true) (hs : c.stat (pgP k) 6 = false) :
    c.shareRise k periods =
      (((c.setLevel (pgP k) 6 true).setLive 0x13 (mkAddr 2 k) true).send 0x13 0 (mkAddr 2 k)).syncShare (c.portRail k) :=
  if_pos (by simp only [hp, ha, hb, hs, decide_true, Bool.not_false, Bool.and_self])

/-- A sharing deviation within the limit for 16 periods (R116). -/
theorem Core.shareFall_clears (c : Core) (k : Nat) {periods : Nat} (hp : 16 ≤ periods) (hs : c.stat (pgP k) 6 = true)
    (hb : c.shareBad k = false) :
    c.shareFall k periods = ((c.setLevel (pgP k) 6 false).setLive 0x13 (mkAddr 2 k) false).syncShare (c.portRail k) :=
  if_pos (by simp only [hp, hb, hs, decide_true, Bool.not_false, Bool.and_self])

/-- Settles O28: IDSTART through the write of Pk_CTRL, the ends of the measurements by whose port it is, and a window by
whether the target lies below the count of active phases. -/
theorem identificationAndSharing : Obligations.IdentificationAndSharing := by
  unfold Obligations.IdentificationAndSharing
  intro s h c
  have hc : s.controlRuns = true := State.serviceRuns_control h
  refine ⟨fun k => ⟨fun hi hl => ?asks, fun hi hl => ?lent, fun hi => ?busy, ?ownPort, fun hl hf => ?lentPort,
    fun dev hd => ?remotePorts, ?remotePhase, fun periods hp ha hb hs => ?rises, fun periods hp hs hb => ?falls⟩, ?window⟩
  case asks => rw [exec_idStart_open h, Core.identStart_asks _ _ hi hl]
  case lent => rw [exec_idStart_open h, Core.identStart_lent _ _ hi hl]
  case busy => rw [exec_idStart_open h, Core.identStart_busy _ _ hi]
  case ownPort =>
    intro d p x hl hb hf hn hx v e
    refine ⟨fun l r hv l1 l2 r1 r2 => State.control_next hc ?_, fun hv => State.control_next hc ?_⟩
    · exact (c.idEnd_local k hl).trans (Core.idEndLocal_good rfl hb hf hn hx (identGood_inRange hv l1 l2 r1 r2))
    · exact (c.idEnd_local k hl).trans (Core.idEndLocal_bad rfl hb hf hn hx (identGood_none hv))
  case lentPort => exact State.control_next hc ((c.idEnd_lent k hl).trans (c.idEndLent_done k hf))
  case remotePorts => exact State.control_next hc (c.idEnd_remote k hd)
  case remotePhase =>
    intro n dev l r x q d p hq hb hn hx hv l1 l2 r1 r2
    exact c.idEndRemote_done n dev k q x hq hx (by rw [hb, decide_eq_true hn]; rfl) (identGood_inRange hv l1 l2 r1 r2)
  case rises => exact State.control_next hc (c.shareRise_sets k hp ha hb hs)
  case falls => exact State.control_next hc (c.shareFall_clears k hp hs hb)
  case window =>
    intro n count r win ht hw ha need d
    exact ⟨fun hk => State.control_next hc (c.autoWindow_kept n count ht hw ha hk),
      fun hk => State.control_next hc (c.autoWindow_below n count ht hw ha hk)⟩

/-! ## Slots and tokens (R186 to R192, R203, R235) -/

theorem Core.idleSlot_unlocked (c : Core) (prim chord : Option Nat) (ho : c.ringOn = true) (hl : c.lnk.locked = false) :
    c.idleSlot prim chord = c.slotOut false := by
  rw [Core.idleSlot, if_neg (by rw [ho]; decide), if_pos (by rw [hl]; decide)]

/-- A slot damaged in both copies (R186). -/
theorem Core.idleSlot_damaged (c : Core) (h : c.inputsOn = true) :
    c.idleSlot none none = ((c.copyError true).copyError true).slotOut false := c.idleSlot_eq none none h

/-- A slot whose serial number `v` one of its copies brings (R187). -/
theorem Core.idleSlot_numbered (c : Core) {prim chord : Option Nat} {v : Nat} (h : c.inputsOn = true)
    (hv : prim.orElse (fun _ => chord) = some v) :
    c.idleSlot prim chord =
      (let d := (c.copyError prim.isNone).copyError chord.isNone
       (if v % 256 = (d.lnk.ssnIn + 1) % 256 then d
        else { d.codeError with lnk := { d.lnk with ssnIn := (v + 255) % 256 } }).slotOut false) := by
  rw [c.idleSlot_eq prim chord h, hv]

/-- A token for a port that is not lent to that rail (R190). -/
theorem Core.lentToken_missed (c : Core) (k rail : Nat) (age : Option Nat) (safe : Bool)
    (hl : (c.lentBound k && c.fld pgLNK (LNK_LEND_ORAIL k) = rail) = false) : c.lentToken k rail age safe = c.countMiss := by
  rw [Core.lentToken, if_pos (by rw [hl]; rfl)]

section
variable (c : Core) (k rail : Nat) (age : Option Nat) (safe : Bool)
  (hl : (c.lentBound k && c.fld pgLNK (LNK_LEND_ORAIL k) = rail) = true)
include hl

/-- A lent port that may not fire now answers HELD (R203, R235). -/
theorem Core.lentToken_held (hh : c.lentHeld k safe = true) : c.lentToken k rail age safe = c.sendSummary k 4 age := by
  rw [Core.lentToken, if_neg (by rw [hl]; decide), if_pos hh]

/-- A lent port under its current limit answers MISSED (R203). -/
theorem Core.lentToken_limited (hh : c.lentHeld k safe = false) (hi : c.cmpHi (8 + k) = true) :
    c.lentToken k rail age safe = (c.limitedFiring k).sendSummary k 3 age := by
  rw [Core.lentToken, if_neg (by rw [hl]; decide), if_neg (by rw [hh]; decide), if_pos hi]

/-- A lent port without a PRELOAD answers MISSED (R203). -/
theorem Core.lentToken_unloaded (hh : c.lentHeld k safe = false) (hi : c.cmpHi (8 + k) = false)
    (hp : vget c.lnk.preloads k none = none) : c.lentToken k rail age safe = c.sendSummary k 3 age := by
  rw [Core.lentToken, if_neg (by rw [hl]; decide), if_neg (by rw [hh]; decide), if_neg (by rw [hi]; decide), hp]
end

/-! ## Orders and summaries (R192, R204, R205) -/

theorem Core.takePreload_bound (c : Core) (k ton : Nat) (hl : c.lentBound k = true) :
    c.takePreload k ton =
      { c with lnk := { c.lnk with preloads := vmod c.lnk.preloads k (fun _ => some (ton % 2 ^ 18)) } } := if_pos hl

theorem Core.takeMid_bound (c : Core) (k : Nat) (hl : c.lentBound k = true) :
    c.takeMid k =
      { c with lnk := { c.lnk with
          lentMid := vmod c.lnk.lentMid k (fun _ => true), preloads := vmod c.lnk.preloads k (fun _ => none) } } := if_pos hl

section
variable (c : Core) {dev port : Nat} (isamp : Int) {age late n : Nat} {a : Await} {rest : List Await}
  (hw : c.awaited dev port = some n) (hb : late ≤ c.fld pgLNK (LNK_CR_BUDGET n))
  (ht : takeAwait false (c.remote n dev port).awaits = some (a, rest))
include hw hb ht

/-- FIRED in time without a sample that dates the current: the failures in a row end (R205). -/
theorem Core.summary_firedOld (hg : 15 ≤ age) :
    c.summary true dev port isamp age late =
      (c.modRemote n dev port (fun y => { y with awaits := rest })).modRemote n dev port (fun y => { y with fails := 0 }) := by
  rw [Core.summary_timely c true dev port isamp age late n a rest hw hb ht]
  dsimp only
  rw [if_pos rfl, if_pos hg]

/-- FIRED in time with a sample also corrects the model of the phase (R117, R205). -/
theorem Core.summary_firedYoung (hg : age < 15) :
    c.summary true dev port isamp age late =
      (let f := (c.modRemote n dev port (fun y => { y with awaits := rest })).modRemote n dev port (fun y => { y with fails := 0 })
       f.modSlot n dev port (fun x => x.correct isamp a.edge age (f.fld (pgV n) V_MODEL_CSHIFT))) := by
  rw [Core.summary_timely c true dev port isamp age late n a rest hw hb ht]
  dsimp only
  rw [if_pos rfl, if_neg (Nat.not_le.mpr hg)]

/-- MISSED or HELD in time ends the on-time of the phase and counts MISS and a failure (R205). -/
theorem Core.summary_unfired :
    c.summary false dev port isamp age late =
      (let e := c.modRemote n dev port (fun y => { y with awaits := rest })
       (e.modSlot n dev port (fun x => x.unfired isamp a.edge e.time.toNat)).countMiss.remoteFail n dev port) := by
  rw [Core.summary_timely c false dev port isamp age late n a rest hw hb ht]
  dsimp only
  rw [if_neg Bool.false_ne_true]
end

/-- Settles O35: a slot and a token by their copies, a dispatch through `fireRemote`, and the orders and summaries as frames of
VC0 for this device. -/
theorem loopChannel : Obligations.LoopChannel := by
  unfold Obligations.LoopChannel
  intro s h c
  refine ⟨fun ho hl prim chord => ?unlocked, fun hin prim chord => ⟨fun hp hq => ?damaged, fun v hv => ?numbered⟩, ?dispatch,
    fun hin devid rail port a b age => ?token, fun fh hin hid he hs hd => ?frames⟩
  case unlocked => exact State.control_next h (c.idleSlot_unlocked prim chord ho hl)
  case damaged =>
    subst hp hq
    exact State.control_next h (c.idleSlot_damaged hin)
  case numbered => exact State.control_next h (c.idleSlot_numbered hin hv)
  case dispatch =>
    intro n d rest x hdue hcrow htrip hdev e hdue' hx hopen hown hbudget hoff
    exact State.control_next h (c.dispatch_remote n d rest x hdue hcrow htrip hdev hdue' hx hopen hown hbudget hoff)
  case token =>
    obtain ⟨both, unnamed, chordCopy, sink, sent⟩ := c.token_other devid rail port a b age (c.stat pgFLT 3 || s.pw.grave) hin
    refine ⟨fun hab => State.control_next h (both hab), fun hab => ⟨fun hid => State.control_next h (unnamed hab hid),
      fun hid hne => ⟨fun hp => State.control_next h (chordCopy hab hid hne hp),
        fun hp hk => State.control_next h (sink hab hid hne hp hk), fun hp hk => State.control_next h (sent hab hid hne hp hk)⟩,
      fun hid heq => ?mine⟩⟩
    case mine =>
      intro safe d
      have mine : c.token devid rail port a b age safe = d.lentToken port rail age safe :=
        c.token_mine devid rail port a b age safe hin hab hid heq
      refine ⟨fun hl => State.control_next h (mine.trans ?_), fun hl => ⟨fun hh => State.control_next h (mine.trans ?_),
        fun hh hi => State.control_next h (mine.trans ?_), fun hh hi hp => State.control_next h (mine.trans ?_),
        fun ton hh hi hp => State.control_next h (mine.trans ?_)⟩⟩
      · exact d.lentToken_missed port rail age safe hl
      · exact d.lentToken_held port rail age safe hl hh
      · exact d.lentToken_limited port rail age safe hl hh hi
      · exact d.lentToken_unloaded port rail age safe hl hh hi hp
      · exact d.lentToken_fires port rail age safe ton hl hh hi hp
  case frames =>
    have acts {ty port payload : Nat} {act : Core → Core} {d : Core} (ha : act c = d) :
        (.next (s.control (fun c => c.rxVC0 fh ty port payload act)) : Result) = .next (s.after (d.giveCredit 0 fh.clsB)) :=
      State.control_next h ((c.rxVC0_takes fh ty port payload act hin hid he hs hd).trans (by rw [ha]))
    refine ⟨fun k ton hl => ⟨acts (c.takePreload_bound k ton hl), acts (c.takeMid_bound k hl)⟩,
      fun dev port isamp age late n a rest hw => ⟨?late, fun hb ht => ?timely⟩⟩
    case late =>
      intro hb d ht i hi
      have counts (fired : Bool) := c.summary_late fired dev port isamp age late n a rest hw hb ht
      obtain rfl | rfl | rfl := hi
      · exact acts (counts true)
      · exact acts (counts false)
      · exact acts (counts false)
    case timely =>
      have unfired := c.summary_unfired isamp (age := age) hw hb ht
      exact ⟨fun hg => acts (c.summary_firedOld isamp hw hb ht hg), fun hg => acts (c.summary_firedYoung isamp hw hb ht hg),
        acts unfired, acts unfired⟩

/-! ## Lending (R119, R122, R206, R207) -/

/-- The owner's request begins the fit of a bound lent port (R206). -/
theorem Core.takeIdRequest_fits (c : Core) (src k : Nat) (hl : c.lentBound k = true) (ho : c.fld pgLNK (LNK_LEND_OWNER k) = src)
    (hi : c.lnk.idLent.contains k = false) :
    c.takeIdRequest src k none =
      (({ c with lnk := { c.lnk with idLent := c.lnk.idLent ++ [k] } }.modPort k (fun p => { p with fit := { on := true } })).setLevel
        (pgP k) 3 true) :=
  if_pos (by rw [hl, decide_eq_true ho, hi]; rfl)

/-- A lender's request makes the owner keep the settings and ask its arbiter (R119, R206, log 75). -/
theorem Core.takeIdRequest_asks (c : Core) (src k dith hw nrep : Nat) {n : Nat} (hn : c.railOfRemote src k = some n)
    (hi : (c.remote n src k).ident.busy = false) :
    c.takeIdRequest src k (some (dith, hw, nrep)) =
      ((c.modRemote n src k (fun y => { y with ident := {
        dith := zeroAsOne dith, hw := zeroAsOne hw, nrep := zeroAsOne nrep } })).requestAct ⟨actIDENT, 32 * src + k, 0⟩).pumpIdents := by
  rw [Core.takeIdRequest, hn]
  exact if_neg (by rw [hi]; decide)

section
variable {c e : Core} {src k n : Nat} (num : Int) (den : Nat) (hn : c.railOfRemote src k = some n)
  (he : c.modRemote n src k (fun y => { y with ident := y.ident.turn c.time.toNat }) = e)
  (hb : (e.remote n src k).ident.busy = true)
include hn he hb

/-- A lender's slope that comes after the dither has ended (R206). -/
theorem Core.takeIdResult_tooLate (ht : (e.remote n src k).ident.nrep ≤ (e.remote n src k).ident.pairs) :
    c.takeIdResult src k num den = e.endRemoteIdent n src k 3 := by
  subst he
  rw [Core.takeIdResult, hn]
  dsimp only
  rw [if_neg (by rw [hb]; decide), if_pos ht]

/-- A lender's slope for the identification that runs (R206). -/
theorem Core.takeIdResult_kept (ht : (e.remote n src k).ident.pairs < (e.remote n src k).ident.nrep) :
    c.takeIdResult src k num den =
      e.modRemote n src k (fun y => { y with ident := { y.ident with slope := some ((num : Rat) / den) } }) := by
  subst he
  rw [Core.takeIdResult, hn]
  dsimp only
  rw [if_neg (by rw [hb]; decide), if_neg (Nat.not_le.mpr ht)]
end

/-- A fired lent port that sees no token for its timeout (R207). -/
theorem Core.lendTimeout_releases (c : Core) (k : Nat) {us : Nat} (hl : c.lentBound k = true) (hf : vget c.lnk.lentFired k false = true)
    (hm : vget c.lnk.lentMid k true = false) (hr : vget c.lnk.lentLater k false = false)
    (ht : zeroAsOne (c.fld pgLNK (LNK_LEND_TMO k)) ≤ us) :
    c.lendTimeout k us = ((c.lentRelease k).raise pgLNK 7).send 0x3C 0 (mkAddr 2 k) :=
  if_pos (by simp only [hl, hf, hm, hr, ht, decide_true, Bool.not_false, Bool.and_self])

/-! ## Absences and breaks (R212 to R218) -/

theorem Core.ringUp_iff (c : Core) : c.ringUp = true ↔ c.rstate = 4 ∨ c.rstate = 5 := by
  simp only [Core.ringUp, Bool.or_eq_true, decide_eq_true_eq]

/-- The primary has returned (R216). -/
theorem Core.primaryReturn_returns (c : Core) (h : c.stat pgLNK 2 = true) :
    c.primaryReturn =
      { (c.setLevel pgLNK 2 false) with
        lnk := { c.lnk with absent := none, chordStore := [], chordSeen := [] }
        flt := { c.flt with live := c.flt.live.filter (fun p => p.1 ≠ 0x38) } } :=
  if_neg (by rw [h]; decide)

theorem Core.ringBreak_source (c : Core) (h : c.lnk.source = true) : c.ringBreak = c :=
  if_pos (by rw [h, Bool.or_true])

/-- Both inputs of a ring that has opened are invalid (R217). -/
theorem Core.ringBreak_breaks (c : Core) (hu : c.ringUp = true) (h : c.lnk.source = false) :
    c.ringBreak =
      (let d := ({ c with lnk := { c.lnk with source := true } }.incSat pgLNK LNK_CNT2_BRK 1).sendMsg 0xFF (.broken c.ringId)
       (d.send 0x39 0 (ringAddr d.ringId none)).broken) :=
  if_neg (by rw [hu, h]; decide)

/-- Settles O36: a frame through what its message does to a device that acts on it, the rest by the ring's state. -/
theorem lendingAndBrokenRings : Obligations.LendingAndBrokenRings := by
  unfold Obligations.LendingAndBrokenRings
  intro s h c broken
  have hc : s.controlRuns = true := State.serviceRuns_control h
  refine ⟨fun fh hl hh => ?frames, fun k us hl hf hm hr ht => ?timeout, fun hr hs => ?loss, fun hs => ?returns,
    fun hs => ?source, fun hr hs => ?breaks⟩
  case frames =>
    refine ⟨?fit, ?request, ?result, fun group on => ?relay, fun id => ?absent, fun id => ?broken⟩
    case fit =>
      intro k m d hb ho hi
      exact State.ringIn_next h hl hh nofun (d.takeIdRequest_fits fh.src k hb ho hi)
    case request =>
      intro k dith hw nrep n m d hn hi
      exact State.ringIn_next h hl hh nofun (d.takeIdRequest_asks fh.src k dith hw nrep hn hi)
    case result =>
      intro k num den n m d e p hn hb
      exact ⟨fun ht => State.ringIn_next h hl hh nofun (Core.takeIdResult_tooLate num den hn rfl hb ht),
        fun ht => State.ringIn_next h hl hh nofun (Core.takeIdResult_kept num den hn rfl hb ht)⟩
    case relay => exact State.ringIn_next h hl hh nofun rfl
    case absent => exact State.ringIn_next h hl hh nofun rfl
    case broken => exact State.ringIn_next h hl hh nofun rfl
  case timeout => exact State.control_next hc (c.lendTimeout_releases k hl hf hm hr ht)
  case loss => exact State.control_next hc (c.primaryLoss_eq (c.ringUp_iff.mpr hr) hs)
  case returns => exact State.control_next hc (c.primaryReturn_returns hs)
  case source => exact State.control_next hc (c.ringBreak_source hs)
  case breaks => exact State.control_next hc (c.ringBreak_breaks (c.ringUp_iff.mpr hr) hs)

end Sys2Proof.Machine

/-! PROOFS of the statements of the family of the voltage commands: the buses, the reads of items, their application, records,
polls and flushes. -/
namespace Sys2Proof.Machine

/-- A service path that runs, once what it does to the core is known (R18). -/
theorem State.service_next {s : State} (h : s.serviceRuns = true) {f : Core → Core} {d : Core} (hd : f s.core = d) :
    (.next (s.service f) : Result) = .next (s.after d) := by
  rw [State.service_eq h, hd]

/-! ## The load-side buses (R137 to R142, R153, R451) -/

theorem Core.busUp_comes (c : Core) (b : Nat) (ts : List Target) (hu : (c.bus b).up = false) (hi : c.busIdle b = true) :
    c.busUp b ts = (c.modBus b (fun x => { x with up := true })).entdaa b false ts :=
  if_neg (by rw [hu, hi]; decide)

theorem Core.busReset_departs (c : Core) (b : Nat) (hr : (c.bus b).reading = none) : c.busReset b = c.departAll b :=
  if_neg (by rw [hr]; decide)

/-- A bus reset waits for the read in progress (R140). -/
theorem Core.busReset_waits (c : Core) (b : Nat) (hr : (c.bus b).reading.isSome = true) :
    c.busReset b = c.modBus b (fun x => { x with rstDue := true }) := if_pos hr

section
variable (c : Core) (b : Nat) (ts : List Target)

theorem Core.runDaa_runs (hu : (c.bus b).up = true) (hd : c.cmd.resetDue = false) (hr : (c.bus b).reading = none) :
    c.runDaa b ts = c.entdaa b false ts :=
  (if_neg (by rw [hu, hd]; decide)).trans (if_neg (by rw [hr]; decide))

/-- A DAA waits for the read in progress (R140). -/
theorem Core.runDaa_waits (hu : (c.bus b).up = true) (hd : c.cmd.resetDue = false) (hr : (c.bus b).reading.isSome = true) :
    c.runDaa b ts = c.modBus b (fun x => { x with daaDue := some ts }) :=
  (if_neg (by rw [hu, hd]; decide)).trans (if_pos hr)

/-- No DAA runs on a bus that is down, nor while a reset of the engine waits (R140, R170). -/
theorem Core.runDaa_idle (h : (c.bus b).up = false ∨ c.cmd.resetDue = true) : c.runDaa b ts = c :=
  if_pos (by rw [Bool.or_eq_true, Bool.not_eq_true']; exact h)

theorem Core.hotJoin_joins (hu : (c.bus b).up = true) (hj : c.flag pgHST (HST_I3CCFG_HJEN b) = true) (hf : (c.freeDa b).isSome = true)
    (hi : c.busIdle b = true) : c.hotJoin b ts = c.entdaa b true ts :=
  if_pos (by rw [hu, hj, hf, hi]; decide)
end

section
variable {c : Core} {b da i : Nat} {mdb : Byte} (hu : (c.bus b).up = true) (hr : (c.bus b).reading = none)
  (he : c.flag pgHST (HST_I3CCFG_IBIEN b) = true) (hi : c.ctxOfDa b da = some i)
include hu hr he hi

/-- A data byte that is no count of items leaves PENDING and sets BADMDB (R142). -/
theorem Core.inBand_bad (h : mdb.toNat = 0 ∨ 32 ≤ mdb.toNat) : c.inBand b da mdb = c.raise pgHST (20 + b) :=
  (c.inBand_eq b da mdb i hu hr he hi).trans (if_pos (by simpa using h))

/-- A data byte of 1 to 31 is the requester's PENDING (R142). -/
theorem Core.inBand_count (h1 : 1 ≤ mdb.toNat) (h31 : mdb.toNat ≤ 31) : c.inBand b da mdb = c.setPending b i da mdb.toNat :=
  (c.inBand_eq b da mdb i hu hr he hi).trans (if_neg (by
    rw [Bool.or_eq_true, decide_eq_true_eq, decide_eq_true_eq]
    omega))
end

/-- A write of HST_I3CCFGb that clears EN takes the bus down (R451). -/
theorem Core.writeHst_disable (c : Core) (b : Fin 2) (w : Word) (he : c.flag pgHST (HST_I3CCFG_EN b) = true) (hw : bitOf w 16 = false) :
    c.writeHst (HST_I3CCFG_EN b).off w = (c.putFields pgHST .hst (HST_I3CCFG_EN b).off w).busDown b := by
  have written : c.writeHst (HST_I3CCFG_EN b).off w = if c.flag pgHST (HST_I3CCFG_EN b) && !bitOf w 16 then
      (c.putFields pgHST .hst (HST_I3CCFG_EN b).off w).busDown b else c.putFields pgHST .hst (HST_I3CCFG_EN b).off w := by
    fin_cases b <;> rfl
  rw [written, he, hw]
  rfl

/-- HST_I3CCTLb holds requests alone: a write of BUSRST stores nothing and resets the bus (R140). -/
theorem Core.writeHst_reset (c : Core) (b : Fin 2) (w : Word) (hw : bitOf w 1 = true) :
    c.writeHst (HST_I3CCTL_BUSRST b).off w = c.busReset b := by
  have written : c.writeHst (HST_I3CCTL_BUSRST b).off w = if bitOf w 1 then c.busReset b else c := by
    fin_cases b <;> rfl
  rw [written, hw]
  rfl

/-- A field of HST_I3CCFGb or HST_I3CCTLb written by a host. -/
theorem State.fieldWrite_hst {s : State} (h : s.serviceRuns = true) {f : Field} {v : Nat} {d : Core} (ho : 0x20 ≤ f.off)
    (hd : s.core.writeHst f.off (setBits (s.core.wordOf pgHST f.off) f.lo f.len v) = d) : s.fieldWrite pgHST f v = s.wrote d := by
  refine State.fieldWrite_core h rfl (.inl (by decide)) ?_
  rw [State.writeReg_beyondHead _ _ _ ho, ← hd]
  rfl

theorem exec_i3cBusDisable_open {s : State} (h : s.serviceRuns = true) (b : Fin 2) (he : s.core.flag pgHST (HST_I3CCFG_EN b) = true) :
    exec (.i3cBusDisable b) s = .next (s.wrote ((s.core.putFields pgHST .hst (HST_I3CCFG_EN b).off
      (setBits (s.core.wordOf pgHST (HST_I3CCFG_EN b).off) 16 1 0)).busDown b)) :=
  congrArg _ (State.fieldWrite_hst h (by change 0x20 ≤ 0x60 + _; omega) (s.core.writeHst_disable b _ he (bitOf_setBits_one _ 16 0 (by decide))))

theorem exec_i3cBusReset_open {s : State} (h : s.serviceRuns = true) (b : Fin 2) :
    exec (.i3cBusReset b) s = .next (s.wrote (s.core.busReset b)) :=
  congrArg _ (State.fieldWrite_hst h (by change 0x20 ≤ 0x68 + _; omega) (s.core.writeHst_reset b _ (bitOf_setBits_one _ 1 1 (by decide))))

/-- A DAA over an open path (R140). -/
theorem exec_i3cDaa_next {s : State} (h : s.serviceRuns = true) (b : Fin 2) (ts : List Target) {d : Core} (hd : s.core.runDaa b ts = d) :
    exec (.i3cDaa b ts) s = .next (s.after d) := by
  rw [exec_i3cDaa, execI3cDaa, if_pos h, ← hd]
  rfl

/-- Settles O29: each event of a bus by what the bus waits for, and a target that answers by admission. -/
theorem loadSideBuses : Obligations.LoadSideBuses := by
  unfold Obligations.LoadSideBuses
  intro s b h c en
  refine ⟨fun ts he hu hr hd => ?up, fun he => exec_i3cBusDisable_open h b he, fun hr => ?reset, fun hr => ?resetWaits,
    fun ts hu hd => ⟨fun hr => ?daa, fun hr => ?daaWaits⟩, fun ts hn => ?daaIdle, fun ts hu hj hf hr hd => ?hotJoin,
    fun da mdb i hu hr he hi => ⟨fun hm => ?badByte, fun h1 h31 => ?count⟩,
    fun hj t da hp hf => ⟨fun ht => ?refused, fun i ht hi => ?admitted⟩⟩
  case up => exact State.service_next h ((if_pos he).trans (c.busUp_comes b ts hu (Core.busIdle_of hr hd)))
  case reset => rw [exec_i3cBusReset_open h, c.busReset_departs b hr]
  case resetWaits => rw [exec_i3cBusReset_open h, c.busReset_waits b hr]
  case daa => exact exec_i3cDaa_next h b ts (c.runDaa_runs b ts hu hd hr)
  case daaWaits => exact exec_i3cDaa_next h b ts (c.runDaa_waits b ts hu hd hr)
  case daaIdle => exact exec_i3cDaa_next h b ts (c.runDaa_idle b ts hn)
  case hotJoin => exact State.service_next h (c.hotJoin_joins b ts hu hj hf (Core.busIdle_of hr hd))
  case badByte => exact State.service_next h (Core.inBand_bad hu hr he hi hm)
  case count => exact State.service_next h (Core.inBand_count hu hr he hi h1 h31)
  case refused => exact c.entdaa_refused hj t da b.isLt hp hf ht
  case admitted => exact c.entdaa_admitted hj t da i hp hf ht hi

/-- PENDING belongs to the command engine alone (R142). -/
theorem Core.setPending_only (c : Core) (b i da k : Nat) : c.setPending b i da k = { c with cmd := (c.setPending b i da k).cmd } := by
  unfold Core.setPending
  split <;> rfl

/-- PENDING of a context of its own (R142). -/
theorem Core.setPending_private (c : Core) (b da k : Nat) {i : Nat} (hi : i < 64) :
    (c.setPending b i da k).cmd.ovf = c.cmd.ovf ∧ (c.setPending b i da k).ctx i = { c.ctx i with pending := k } := by
  rw [Core.setPending, if_pos hi]
  exact ⟨rfl, vget_vmod_same _ _ _ hi⟩

/-- Settles O55: a data byte with bits [7:5] at 0 is its own count in bits [4:0]. -/
theorem interruptByteSetsPending : Obligations.InterruptByteSetsPending := by
  unfold Obligations.InterruptByteSetsPending
  intro s b da mdb i h hu hr he hi
  refine ⟨fun h0 h1 => ?count, fun hm => ?bad⟩
  case count =>
    have byte : mdb.toNat % 32 = mdb.toNat := by omega
    rw [byte] at h1 ⊢
    exact ⟨s.core.setPending b i da mdb.toNat, State.service_next h (Core.inBand_count hu hr he hi h1 (by omega)),
      Core.setPending_only .., Core.pendingOf_setPending hi _, fun j hj => Core.setPending_ctx _ _ _ _ _ hj,
      fun hp => Core.setPending_private _ _ _ _ hp⟩
  case bad =>
    exact ⟨State.service_next h (Core.inBand_bad hu hr he hi (by omega)), Core.raise_cmd .., Core.raise_stky _ _ (by omega)⟩

/-! ## Reads of items (R143 to R147, R164, R165, R169) -/

/-- A reread that waits is due before any other read (R144). -/
theorem Core.dueRead_reread (c : Core) (b : Nat) {r : Reread} (hs : c.readSlot b = true) (hn : c.nextReread b = some r)
    (hr : c.readable b r.ctx r.da = true) : c.dueRead b = some (r.ctx, r.da, true) := by
  simp only [Core.dueRead, hs, hn, hr, Bool.not_true, Bool.false_eq_true, if_false, if_true]

/-- The requester of the rotation is due where no reread waits (R144, R145). -/
theorem Core.dueRead_rotation (c : Core) (b : Nat) {i da : Nat} (hs : c.readSlot b = true) (hn : c.nextReread b = none)
    (hr : c.nextRead b = some (i, da)) : c.dueRead b = some (i, da, false) := by
  simp only [Core.dueRead, hs, hn, hr, Bool.not_true, Bool.false_eq_true, if_false, Option.map_some]

theorem Core.itemRead_reread (c : Core) (b : Nat) {i da : Nat} (h : c.dueRead b = some (i, da, true)) :
    c.itemRead b = (c.modBus b (fun x => { x with reading := some (i, da, true) })).incSat pgHST (HST_I3CCNT_RERDCNT b) 1 := by
  rw [Core.itemRead, h]

theorem Core.itemRead_rotation (c : Core) (b : Nat) {i da : Nat} (h : c.dueRead b = some (i, da, false)) :
    c.itemRead b = c.modBus b (fun x => { x with
      reading := some (i, da, false), lastCtx := i, lastOvf := if i = 64 then da else x.lastOvf }) := by
  rw [Core.itemRead, h]

/-- The longest waiting NACK is read again once no reread waits (R144). -/
theorem Core.itemReadRetry_reads (c : Core) (b : Nat) {i da k : Nat} {rest : List (Nat × Nat × Nat)} (hs : c.readSlot b = true)
    (hl : (c.bus b).nackReads = (i, da, k) :: rest) (hn : c.nextReread b = none) (hr : c.readable b i da = true) :
    c.itemReadRetry b = c.modBus b (fun x => { x with
      reading := some (i, da, (c.bus b).rereads.any (fun r => r.ctx = i && r.da = da)) }) := by
  rw [Core.itemReadRetry, hl]
  exact if_neg (by rw [hs, hn, hr]; decide)

/-- A NACK ends the read in progress (R144, R165). -/
theorem State.itemReceived_nack (s : State) (b : Nat) {ctx da : Nat} {re : Bool} (hr : (s.core.bus b).reading = some (ctx, da, re)) :
    s.itemReceived b none =
      { s with core := ((s.core.modBus b (fun x => { x with reading := none })).readNacked b ctx da).afterRead b } := by
  rw [State.itemReceived, hr]

/-- The reply to a read over an open path, short of full freeze's step 4 (R19, R144). -/
theorem exec_itemReceived_next {s t : State} (h : s.serviceRuns = true) (hh : s.core.rpr.halted = false) (b : Fin 2)
    {reply : Option (List Byte)} (ht : s.itemReceived b reply = t) : exec (.itemReceived b reply) s = .next t.rest := by
  rw [exec_itemReceived, execItemReceived, if_pos (by rw [State.serviceRuns_booted h, hh]; rfl), ht]

/-! ## The checks of an item (R147, R149, R150, R173) -/

section
variable {s : State} {t : Nat} {l : List Byte}

theorem State.checkItem_badFormat (hb : badFormat l = true) :
    s.checkItem t l = { s with core := s.core.failItem t stFAILED cdBADFMT true } := if_pos hb

theorem State.checkItem_badOpcode (hb : badFormat l = false) (ho : opKnown (s.core.item t).opc = false) :
    s.checkItem t l = { s with core := s.core.failItem t stFAILED cdBADOPC true } :=
  (if_neg (by rw [hb]; decide)).trans (if_pos (by rw [ho]; rfl))

variable (hb : badFormat l = false) (ho : opKnown (s.core.item t).opc = true) {d : Core}
include hb ho

/-- Authentication comes before the arguments (R149, R173). -/
theorem State.checkItem_unauthentic {code : Nat} (ha : s.authCheck t l = (some code, d)) :
    s.checkItem t l = { s with core := d.failItem t stREFUSED code true } := by
  simp only [State.checkItem, hb, ho, ha, Bool.not_true, Bool.false_eq_true, if_false]

theorem State.checkItem_badArgs {st code : Nat} (ha : s.authCheck t l = (none, d)) (hf : d.argFails (s.core.item t) = some (st, code)) :
    s.checkItem t l = { s with core := d.failItem t st code true } := by
  simp only [State.checkItem, hb, ho, ha, hf, Bool.not_true, Bool.false_eq_true, if_false]

/-- An item that passes every check waits to be applied (R152). -/
theorem State.checkItem_passes (ha : s.authCheck t l = (none, d)) (hf : d.argFails (s.core.item t) = none) :
    s.checkItem t l = { s with core := d.modItem t (fun y => { y with phase := 2 }) } := by
  simp only [State.checkItem, hb, ho, ha, hf, Bool.not_true, Bool.false_eq_true, if_false]
end

/-- Settles O30: a read by what the bus has due, its reply by what the bytes show, and a whole item by its checks in order. -/
theorem itemReads : Obligations.ItemReads := by
  unfold Obligations.ItemReads
  intro s b h c
  refine ⟨fun hs => ⟨fun r hn hr => ?reread, fun i da hn hr => ?rotation, fun i da k rest hl hn hr => ?retry⟩,
    fun ctx da re hr hh => ⟨?nack, fun l => ⟨fun h0 => ?empty, fun h0 hm => ?marked, fun h0 hf hd => ?item⟩⟩, fun t l => ?checks⟩
  case reread => exact State.service_next h (c.itemRead_reread b (c.dueRead_reread b hs hn hr))
  case rotation => exact State.service_next h (c.itemRead_rotation b (c.dueRead_rotation b hs hn hr))
  case retry => exact State.service_next h (c.itemReadRetry_reads b hs hl hn hr)
  case nack => exact exec_itemReceived_next h hh b (s.itemReceived_nack b hr)
  case empty => exact exec_itemReceived_next h hh b (s.itemReceived_empty b ctx da re l hr h0)
  case marked => exact exec_itemReceived_next h hh b (s.itemReceived_marked b ctx da re l hr h0 hm (State.serviceRuns_depth h))
  case item =>
    have item := s.itemReceived_item b ctx da re l hr h0 hf hd (State.serviceRuns_depth h)
    refine ⟨fun hb ht => ?again, fun hb ht => ?spent, fun hlen hcrc => ?whole⟩
    case again =>
      exact exec_itemReceived_next h hh b (item.trans ((if_pos (by rwa [Bool.or_eq_true, decide_eq_true_eq])).trans (if_pos ht)))
    case spent =>
      exact exec_itemReceived_next h hh b
        (item.trans ((if_pos (by rwa [Bool.or_eq_true, decide_eq_true_eq])).trans (if_neg (Nat.not_lt.mpr ht))))
    case whole =>
      exact exec_itemReceived_next h hh b (item.trans (if_neg (by rw [Bool.or_eq_true, decide_eq_true_eq, hlen]; simpa using hcrc)))
  case checks =>
    exact ⟨State.checkItem_badFormat, State.checkItem_badOpcode, fun hb ho => ⟨fun code d ha => State.checkItem_unauthentic hb ho ha,
      fun d st code ha hf => State.checkItem_badArgs hb ho ha hf, fun d ha hf => State.checkItem_passes hb ho ha hf⟩⟩

/-! ## Items applied (R132, R148, R152 to R159, R395) -/

theorem Core.applyNow_completes (c : Core) {t opc : Nat} (h : c.turnOf t opc = true) : c.applyNow t opc = c.completeItem t stDONE 0 :=
  if_pos h

/-- The three voltage opcodes differ in their number alone (R154, R156). -/
theorem exec_voltage_next {s : State} (h : s.serviceRuns = true) (t : Fin 128) {opc : Nat} {i : Instr} {d : Core}
    (hi : opc = 0x01 ∧ i = .vset t ∨ opc = 0x02 ∧ i = .vrel t ∨ opc = 0x11 ∧ i = .vseta t) (hd : s.core.applyVolt t opc = d) :
    exec i s = .next (s.after d) := by
  obtain ⟨rfl, rfl⟩ | ⟨rfl, rfl⟩ | ⟨rfl, rfl⟩ := hi
  · exact State.service_next h hd
  · exact State.service_next h hd
  · exact State.service_next h hd

/-- An AUWR over an open path (R148). -/
theorem exec_auwr_next {s u : State} (h : s.serviceRuns = true) (t : Fin 128) (hu : s.applyAuwr t = u) :
    exec (.auwr t) s = .next u.rest := by
  rw [exec_auwr, execAuwr, if_pos h, hu]

/-- Settles O31: each opcode through what it does on its turn. -/
theorem itemsApplied : Obligations.ItemsApplied := by
  unfold Obligations.ItemsApplied
  intro s t h c x
  refine ⟨fun ht => ?nop, fun ht => ?vquery, fun ht => ?tlmrd, fun opc i hi ht => ?voltage, fun ht => ?phreq, fun ht => ?auwr⟩
  case nop => exact State.service_next h (c.applyNow_completes ht)
  case vquery => exact State.service_next h (c.applyNow_completes ht)
  case tlmrd => exact State.service_next h (c.applyNow_completes ht)
  case voltage =>
    exact ⟨fun hdone => exec_voltage_next h t hi (c.applyVolt_done t opc ht hdone),
      fun hw hsafe => exec_voltage_next h t hi (c.applyVolt_safe t opc ht hw hsafe),
      fun hw hruns => exec_voltage_next h t hi (c.applyVolt_waits t opc ht hw hruns)⟩
  case phreq =>
    obtain ⟨off, safe, met, waits⟩ := c.applyPhreq_cases t ht _ rfl rfl
    exact ⟨fun hs => State.service_next h (off hs), fun hs => State.service_next h (safe hs),
      fun hs hm => State.service_next h (met hs hm), fun hs hm => State.service_next h (waits hs hm)⟩
  case auwr =>
    exact ⟨fun ha => exec_auwr_next h t (s.applyAuwr_revoke t ht ha), fun ha => exec_auwr_next h t (s.applyAuwr_minver t ht ha),
      fun ha => exec_auwr_next h t (s.applyAuwr_erase t ht ha)⟩

/-! ## Records, polls and flushes (R154, R161 to R169) -/

/-- A first attempt and a retry are one operation (R164). -/
theorem exec_record_next {s u : State} (h : s.serviceRuns = true) (b : Fin 2) (first ack : Bool) (hu : s.recordWrite b first ack = u) :
    exec (if first then .recordWrite b ack else .recordRetry b ack) s = .next u.rest := by
  cases first with
  | true => rw [if_pos rfl, exec_recordWrite, execRecordWrite, if_pos h, hu]
  | false => rw [if_neg (by decide), exec_recordRetry, execRecordRetry, if_pos h, hu]

/-- A poll and its retry are one operation (R165). -/
theorem exec_poll_next {s : State} (h : s.serviceRuns = true) (b : Fin 2) (da : Nat) (reply : Option Word) (again : Bool) {d : Core}
    (hd : s.core.poll b da reply again = d) :
    exec (if again then .getstatusRetry b da reply else .getstatusPoll b da reply) s = .next (s.after d) := by
  cases again with
  | true => exact State.service_next h hd
  | false => exact State.service_next h hd

/-- A vote of CTX_OVF whose hold has run out (R154). -/
theorem Core.ovfExpire_ends (c : Core) (n : Nat) {v : Vote} {ends : Nat} (hv : vget c.cmd.ovfVotes n none = some (v, ends))
    (ht : ends ≤ c.absTime) :
    c.ovfExpire n = ({ c with cmd := { c.cmd with ovfVotes := vmod c.cmd.ovfVotes n (fun _ => none) } }).rearb n 0 := by
  rw [Core.ovfExpire, hv]
  exact if_neg (Nat.not_lt.mpr ht)

/-- A vote of CTX_OVF that has been refreshed meanwhile (R154). -/
theorem Core.ovfExpire_stays (c : Core) (n : Nat) {v : Vote} {ends : Nat} (hv : vget c.cmd.ovfVotes n none = some (v, ends))
    (ht : c.absTime < ends) : c.ovfExpire n = c := by
  rw [Core.ovfExpire, hv]
  exact if_pos ht

/-- CMD_FLUSH holds the context in bits [6:0] below GO (R169). -/
theorem flushWord_fields (ctx : Nat) :
    bitOf (BitVec.ofNat 32 (ctx % 128 + 256)) 8 = true ∧ getBits (BitVec.ofNat 32 (ctx % 128 + 256)) 0 7 = ctx % 128 := by
  have read (lo len : Nat) : getBits (BitVec.ofNat 32 (ctx % 128 + 256)) lo len = (ctx % 128 + 256) / 2 ^ lo % 2 ^ len := by
    rw [getBits, BitVec.toNat_ofNat, Nat.mod_eq_of_lt (show ctx % 128 + 256 < 2 ^ 32 by omega)]
  rw [bitOf_getBits, read, read, decide_eq_true_eq]
  omega

/-- A write of CMD_FLUSH with GO (R169). -/
theorem Core.writeCmd_flush (c : Core) (w : Word) (hg : bitOf w 8 = true) :
    c.writeCmd 0x28 w = (c.putFields pgCMD .cmd 0x28 w).flushGo (getBits w 0 7) := if_pos hg

/-- A write of CMD_CTRL with FLUSHALL (R169). -/
theorem Core.writeCmd_flushAll (c : Core) (w : Word) (hg : bitOf w 1 = true) :
    c.writeCmd 0x04 w = (c.putFields pgCMD .cmd 0x04 w).flushAll := if_pos hg

theorem exec_cmdFlush_open {s : State} (h : s.serviceRuns = true) (ctx : Nat) :
    exec (.cmdFlush ctx) s =
      .next (s.wrote ((s.core.putFields pgCMD .cmd 0x28 (BitVec.ofNat 32 (ctx % 128 + 256))).flushGo (ctx % 128))) := by
  obtain ⟨hgo, hctx⟩ := flushWord_fields ctx
  refine congrArg _ (State.regWrite_core h rfl (.inl (by decide)) ?_)
  rw [State.writeReg_beyondHead _ _ _ (by decide)]
  have flush := s.core.writeCmd_flush _ hgo
  rw [hctx] at flush
  exact congrArg (fun d => { s with core := d }) flush

theorem exec_flushall_open {s : State} (h : s.serviceRuns = true) :
    exec .flushall s = .next (s.wrote (s.core.putFields pgCMD .cmd 0x04 (setBits (s.core.wordOf pgCMD 0x04) 1 1 1)).flushAll) :=
  congrArg _ (State.fieldWrite_ctrl (f := CMD_CTRL_FLUSHALL) h rfl rfl (by decide)
    (congrArg (fun d => { s with core := d }) (s.core.writeCmd_flushAll _ (bitOf_setBits_one _ 1 1 (by decide)))))

/-- ORP_POP.POP written alone takes the head of the orphan queue (R167). -/
theorem exec_orpPop_open {s : State} (h : s.serviceRuns = true) : exec .orpPop s = .next (s.wrote s.core.orpPop) := by
  refine congrArg _ (State.fieldWrite_core h rfl (.inl (by decide)) ?_)
  rw [State.writeReg_beyondHead _ _ _ (by decide)]
  exact if_pos (Bool.and_eq_true_iff.mpr ⟨rfl, bitOf_setBits_one _ 0 1 (by decide)⟩)

/-- Settles O32: an attempt and a poll by their answer, a hold by the time, and a flush through the write of its register. -/
theorem recordsPollsAndFlushes : Obligations.RecordsPollsAndFlushes := by
  unfold Obligations.RecordsPollsAndFlushes
  intro s b h c
  refine ⟨fun t rest first hu hr hd hq hf => ?record, fun da ctx again hc hu hr hd ha hp hw hn => ?poll,
    fun n v ends hv => ⟨fun ht => ?ends, fun ht => ?stays⟩, fun ctx => exec_cmdFlush_open h ctx, exec_flushall_open h, exec_orpPop_open h⟩
  case record =>
    have attempt (ack : Bool) := s.recordWrite_eq b t rest first ack hu (Core.busIdle_of hr hd) hq hf
    simp only [Bool.and_eq_true] at attempt
    exact ⟨exec_record_next h b first true (attempt true), exec_record_next h b first false (attempt false)⟩
  case poll =>
    have polled (reply : Option Word) := c.poll_eq b da ctx reply again hc hu (Core.busIdle_of hr hd) ha hp hw hn
    exact ⟨fun w => exec_poll_next h b da (some w) again (polled (some w)), exec_poll_next h b da none again (polled none)⟩
  case ends => exact State.service_next h (c.ovfExpire_ends n hv ht)
  case stays => exact State.service_next h (c.ovfExpire_stays n hv ht)

end Sys2Proof.Machine

/-! PROOFS of the statements of the family of the ring and its cascade: the frames of the remote drain, the course of a frame on
the D lane, and the opening of the ring. -/
namespace Sys2Proof.Machine

/-! ## Remote drain (R302 to R306) -/

theorem Core.takeSync_drained (c : Core) (src : Nat) (h : c.drained = true) : c.takeSync src = c.sendResync src := if_pos h

/-- A RESYNC of the selected device (R305). -/
theorem Core.takeResync_restarts (c : Core) {src : Nat} (wp rp : Nat) (h : c.drains = true) (hs : src = c.fld pgCRB CRB_RSEL_ID) :
    c.takeResync src wp rp =
      ({ c with crb := { c.crb with rbuf := [], rrp := rp, rfp := rp, syncWait := false, reqWait := false } } : Core).setFld
        pgCRB CRB_RPTR_WPLAST wp := by
  subst hs
  exact if_neg (by rw [h, decide_eq_false (not_not_intro rfl)]; decide)

/-- Settles O42: a frame through what its message does to the drained or the draining device, and a request by its due time. -/
theorem remoteDrainFrames : Obligations.RemoteDrainFrames := by
  unfold Obligations.RemoteDrainFrames
  intro s h c
  refine ⟨fun fh hl hh => ⟨?sync, ?req, ?data, ?resync⟩,
    fun hd => ⟨fun us ho hi hr hw hb hdue => ?request, fun us ht => ⟨fun hs => ?sentAgain, fun hr hs => ?askedAgain⟩⟩⟩
  case sync =>
    intro nmax m d hd
    exact State.ringIn_next h hl hh nofun (d.takeSync_drained fh.src hd)
  case req =>
    intro rp fp nmax m d occ free skip hd
    exact ⟨fun hu => State.ringIn_next h hl hh nofun (d.takeReq_unfit fh.src _ _ nmax hd hu),
      fun hf hp hk => State.ringIn_next h hl hh nofun (d.takeReq_fits fh.src _ _ nmax hd hf hp hk)⟩
  case data =>
    intro wp fp words m d fits hd
    exact ⟨fun hf => State.ringIn_next h hl hh nofun (d.takeData_fits fh.src _ _ words hd hf),
      fun hu => State.ringIn_next h hl hh nofun (d.takeData_unfit fh.src _ _ words hd hu)⟩
  case resync =>
    intro wp rp m d hd hs
    exact State.ringIn_next h hl hh nofun (d.takeResync_restarts _ _ hd hs)
  case request => exact State.service_next h (c.drainRequest_due us hd ho hi hr hw hb hdue)
  case sentAgain => exact State.service_next h (c.drainTimeout_sync us hd ht hs)
  case askedAgain => exact State.service_next h (c.drainTimeout_req us hd ht hs hr)

/-! ## Frames of VC1 to VC3 at the input (R186, R192, R214) -/

theorem Core.selected_iff (c : Core) (h : FrameHead) : c.selected h = true ↔ h.chord = c.stat pgLNK 2 := by
  rw [Core.selected, decide_eq_true_iff]

theorem Core.taken_depth (c : Core) (h : FrameHead) (m : RingMsg) : (c.taken h m).rpr.depth = c.rpr.depth := by
  obtain ⟨a, b, e⟩ := c.taken_is h m
  rw [e]

section
variable (c : Core) (h : FrameHead) (m : RingMsg) (bound : List (Nat × Nat × Nat)) (hin : c.inputsOn = true)
include hin

theorem Core.rxMsg_codeError (he : h.err = .code) :
    c.rxMsg h m bound = if h.chord = c.stat pgLNK 2 then c.codeError.giveCredit m.vc h.clsB else c.codeError := by
  simp only [Core.rxMsg, hin, he, Bool.not_true, Bool.false_eq_true, if_false, c.selected_iff]

theorem Core.rxMsg_crcError (he : h.err = .crc) :
    c.rxMsg h m bound = if h.chord = c.stat pgLNK 2 then c.frameLost.giveCredit m.vc h.clsB else c := by
  simp only [Core.rxMsg, hin, he, Bool.not_true, Bool.false_eq_true, if_false, c.selected_iff]

/-- A sound copy on the input that is not taken (R214). -/
theorem Core.rxMsg_otherCopy (he : h.err = .none) (hs : h.chord ≠ c.stat pgLNK 2) :
    c.rxMsg h m bound = if h.chord then c.keepChord (.msg h.clsB h.dest h.src h.fn m) else c := by
  simp only [Core.rxMsg, hin, he, Bool.not_true, Bool.false_eq_true, if_false, c.selected_iff, hs]

/-- A sound copy that is taken, at a device with or without an ID (R193, R196). -/
theorem Core.rxMsg_takenCopy (he : h.err = .none) (hs : h.chord = c.stat pgLNK 2) :
    c.rxMsg h m bound =
      if (c.taken h m).ringId = 0 then (c.taken h m).repeats m.vc (.msg h.clsB h.dest h.src h.fn m)
      else (c.taken h m).takeFrame ⟨h, m, bound, false⟩ := by
  rw [Core.rxMsg, if_neg (by rw [hin]; decide), he]
  exact if_pos ((c.selected_iff h).mpr hs)
end

/-! ## Frames that are taken (R193, R194, R439) -/

/-- Outside a freeze a frame other than ENUM is processed as it comes (R194, R439). -/
theorem Core.takeFrame_runs (d : Core) (h : FrameHead) (m : RingMsg) (bound : List (Nat × Nat × Nat)) (own : Bool)
    (hd : d.rpr.depth = 0) (hm : ∀ id, m ≠ .enum id) : d.takeFrame ⟨h, m, bound, own⟩ = d.process h m bound := by
  rw [Core.takeFrame]
  dsimp only
  rw [if_neg (not_not_intro hd)]
  cases m with
  | enum id => exact absurd rfl (hm id)
  | _ => rfl

/-- In a freeze the input holds up to four frames of each channel and class (R439, log 101). -/
theorem Core.takeFrame_frozen (d : Core) (h : FrameHead) (m : RingMsg) (bound : List (Nat × Nat × Nat)) (own : Bool)
    (hd : d.rpr.depth ≠ 0) :
    d.takeFrame ⟨h, m, bound, own⟩ =
      if (d.lnk.inq.filter (fun y => y.msg.vc = m.vc && y.head.clsB = h.clsB)).length < 4
      then { d with lnk := { d.lnk with inq := d.lnk.inq ++ [⟨h, m, bound, own⟩] } } else d.frameLost := if_pos hd

section
variable (d : Core) (h : FrameHead) (m : RingMsg) (bound : List (Nat × Nat × Nat))

theorem Core.process_ownBroadcast (hd : h.dest = 0xFF) (hs : h.src = d.ringId) :
    d.process h m bound = (if d.isMaster then d.ringAct h.src bound m else d).giveCredit m.vc h.clsB :=
  if_pos (by rw [decide_eq_true hd, decide_eq_true hs]; rfl)

variable (hb : ¬(h.dest = 0xFF ∧ h.src = d.ringId))
include hb

/-- What becomes of a frame that is not this device's own broadcast (R193, R194). -/
theorem Core.process_notOwn :
    d.process h m bound =
      if d.isFor h.dest then (d.ringAct h.src bound m).giveCredit m.vc h.clsB
      else if d.standsIn h.dest then d.giveCredit m.vc h.clsB
      else if d.classChanger && h.clsB then d.frameLost.giveCredit m.vc h.clsB
      else if d.classChanger && !d.onRing h.dest then d.giveCredit m.vc h.clsB
      else (if h.dest = 0xFF then d.ringAct h.src bound m else d).forwardMsg h m := by
  rw [apply_ite (fun e : Core => e.forwardMsg h m)]
  exact if_neg (by simpa only [Bool.and_eq_true, decide_eq_true_eq] using hb)
end

section
variable {α : Type} (d : Core) {clsB : Bool} {dest : Nat} {lost discarded sent : α}

/-- A device that changes classes takes what comes back in class B as lost (R194). -/
theorem Core.pass_classB (hk : d.classChanger = true) (hB : clsB = true) :
    (if d.classChanger && clsB then lost else if d.classChanger && !d.onRing dest then discarded else sent) = lost :=
  if_pos (by rw [hk, hB]; rfl)

/-- A device that changes classes discards what is not for the ring (R194). -/
theorem Core.pass_offRing (hk : d.classChanger = true) (hA : clsB = false) (ho : d.onRing dest = false) :
    (if d.classChanger && clsB then lost else if d.classChanger && !d.onRing dest then discarded else sent) = discarded := by
  rw [hk, hA, ho]
  rfl

/-- Any other frame goes on (R193, R194). -/
theorem Core.pass_goesOn (hg : d.classChanger = false ∨ (clsB = false ∧ d.onRing dest = true)) :
    (if d.classChanger && clsB then lost else if d.classChanger && !d.onRing dest then discarded else sent) = sent := by
  rcases hg with hk | ⟨hA, ho⟩
  · simp only [hk, Bool.false_and, Bool.false_eq_true, if_false]
  · simp only [hA, ho, Bool.and_false, Bool.not_true, Bool.false_eq_true, if_false]
end

/-! ## Commands that bring a frame -/

/-- A command that brings a frame of VC1 to VC3 brings it to the input. -/
theorem exec_ringMessage {i : Instr} {h : FrameHead} {m : RingMsg} {act : Core → Core} (hi : ringMessage i = some (h, m, act)) :
    ∃ bound, act = (fun e => e.ringAct h.src bound m) ∧ (∀ id, m ≠ .enum id) ∧
      ∀ s : State, exec i s = .next (s.ringIn (fun c => c.rxMsg h m bound)) := by
  unfold ringMessage at hi
  split at hi <;> cases hi <;> exact ⟨_, rfl, nofun, fun _ => rfl⟩

/-- A command that brings a VC0 frame brings it to the input. -/
theorem exec_orderFrame {i : Instr} {h : FrameHead} {ty port p : Nat} {act : Core → Core}
    (hi : orderFrame i = some (h, ty, port, p, act)) (s : State) :
    exec i s = .next (s.control (fun c => c.rxVC0 h ty port p act)) := by
  unfold orderFrame at hi
  split at hi <;> cases hi <;> rfl

/-- A frame of VC1 to VC3 comes in after BOOT until full freeze, in observe freeze too (R439, R440). -/
theorem State.ringIn_open {s : State} (hb : s.booted = true) (hd : s.core.rpr.depth ≠ 2) (f : Core → Core) :
    s.ringIn f = s.after (f s.core) := if_pos (by rw [hb, decide_eq_true hd]; rfl)

/-! ## VC0 frames and credit frames (R192 to R194) -/

section
variable (c : Core) (h : FrameHead) (ty port p : Nat) (act : Core → Core) (hin : c.inputsOn = true)
include hin

theorem Core.rxVC0_codeError (he : h.err = .code) :
    c.rxVC0 h ty port p act = if h.chord = c.stat pgLNK 2 then c.codeError.giveCredit 0 h.clsB else c.codeError := by
  simp only [Core.rxVC0, hin, he, Bool.not_true, Bool.false_eq_true, if_false, if_true, c.selected_iff]

theorem Core.rxVC0_otherCopy (he : h.err ≠ .code) (hs : h.chord ≠ c.stat pgLNK 2) : c.rxVC0 h ty port p act = c := by
  simp only [Core.rxVC0, hin, he, Bool.not_true, Bool.false_eq_true, if_false, Bool.not_eq_true', ← Bool.not_eq_true,
    c.selected_iff, hs, not_false_eq_true, if_true]

/-- What becomes of the copy of a VC0 frame that is taken (R193, R194). -/
theorem Core.rxVC0_takenCopy (he : h.err ≠ .code) (hs : h.chord = c.stat pgLNK 2) :
    c.rxVC0 h ty port p act =
      (let f : Frame := .vc0 h.dest ty port (p % 2 ^ 24)
       if c.ringId = 0 then c.repeats 0 f
       else if h.dest = c.ringId then (act c).giveCredit 0 h.clsB
       else if c.lnk.absent = some h.dest then c.giveCredit 0 h.clsB
       else if c.classChanger && h.clsB then c.frameLost.giveCredit 0 h.clsB
       else if c.classChanger && !c.onRing h.dest then c.giveCredit 0 h.clsB
       else c.forward 0 h.clsB f) := by
  rw [Core.rxVC0, if_neg (by rw [hin]; decide), if_neg he, if_neg (by rw [(c.selected_iff h).mpr hs]; decide)]
end

section
variable (c : Core) (h : FrameHead) (vc cls count : Nat) (hin : c.inputsOn = true)
include hin

theorem Core.rxCredit_codeError (he : h.err = .code) : c.rxCredit h vc cls count = c.codeError := by
  rw [Core.rxCredit, if_neg (by rw [hin]; decide), if_pos he]

theorem Core.rxCredit_otherCopy (he : h.err ≠ .code) (hs : h.chord ≠ c.stat pgLNK 2) : c.rxCredit h vc cls count = c := by
  rw [Core.rxCredit, if_neg (by rw [hin]; decide), if_neg he, if_pos]
  rwa [Bool.not_eq_true', ← Bool.not_eq_true, c.selected_iff]

/-- What becomes of the copy of a credit frame that is taken (R193, R194). -/
theorem Core.rxCredit_takenCopy (he : h.err ≠ .code) (hs : h.chord = c.stat pgLNK 2) :
    c.rxCredit h vc cls count =
      if c.ringId ≠ 0 ∧ h.dest = c.ringId then c.takeCredit vc cls count
      else if c.lnk.absent = some h.dest ∨ (c.classChanger = true ∧ c.onRing h.dest = false) then c
      else c.repeats 4 (.credit h.dest vc cls count) := by
  rw [Core.rxCredit, if_neg (by rw [hin]; decide), if_neg he, if_neg (by rw [(c.selected_iff h).mpr hs]; decide)]
  simp only [Bool.and_eq_true, Bool.or_eq_true, decide_eq_true_eq, Bool.not_eq_true']
end

/-- Settles O33: a frame by its soundness and its copy, and the copy that is taken by the branches that say where it goes. -/
theorem framesOnTheRing : Obligations.FramesOnTheRing := by
  unfold Obligations.FramesOnTheRing
  intro s i hin c
  refine ⟨?messages, ?frozen, ?orders, ?credits⟩
  case messages =>
    intro h m act hi hs
    obtain ⟨bound, rfl, hm, hx⟩ := exec_ringMessage hi
    have next {d : Core} (hd : c.rxMsg h m bound = d) : exec i s = .next (s.after d) := by rw [hx, State.ringIn_eq hs, hd]
    refine ⟨fun he => next (c.rxMsg_codeError h m bound hin he), fun he => next (c.rxMsg_crcError h m bound hin he),
      fun he hc => next (c.rxMsg_otherCopy h m bound hin he hc), fun he hc => ?messageTaken⟩
    intro d
    have takes := c.rxMsg_takenCopy h m bound hin he hc
    refine ⟨fun h0 => next (takes.trans (if_pos h0)), fun hid => ?processed⟩
    have h0 : d.rpr.depth = 0 := (c.taken_depth h m).trans (State.serviceRuns_depth hs)
    have processed := (takes.trans (if_neg hid)).trans (d.takeFrame_runs h m bound false h0 hm)
    refine ⟨fun hd hs => next (processed.trans (d.process_ownBroadcast h m bound hd hs)), fun hb => ?other⟩
    have other := processed.trans (d.process_notOwn h m bound hb)
    refine ⟨fun hf => next (other.trans (if_pos hf)),
      fun hf ha => next (other.trans ((if_neg (Bool.eq_false_iff.mp hf)).trans (if_pos ha))), fun hf ha => ?messagePassing⟩
    have passing := other.trans ((if_neg (Bool.eq_false_iff.mp hf)).trans (if_neg (Bool.eq_false_iff.mp ha)))
    exact ⟨fun hk hB => next ((passing.trans (d.pass_classB hk hB)).trans (by rw [hB]; rfl)),
      fun hk hA ho => next ((passing.trans (d.pass_offRing hk hA ho)).trans (by rw [hA])),
      fun hg => next (passing.trans (d.pass_goesOn hg))⟩
  case frozen =>
    intro h m act hi hb h1 he hc d hid n
    obtain ⟨bound, rfl, -, hx⟩ := exec_ringMessage hi
    have hd : d.rpr.depth ≠ 0 := by rw [Core.taken_depth, show s.core.rpr.depth = 1 from h1]; decide
    have waits := ((c.rxMsg_takenCopy h m bound hin he hc).trans (if_neg hid)).trans (d.takeFrame_frozen h m bound false hd)
    have next {e : Core} (hd : c.rxMsg h m bound = e) : exec i s = .next (s.after e) := by
      rw [hx, State.ringIn_open hb (by rw [show s.core.rpr.depth = 1 from h1]; decide), hd]
    exact ⟨fun hn => ⟨bound, rfl, next (waits.trans (if_pos hn))⟩, fun hn => next (waits.trans (if_neg (Nat.not_lt.mpr hn)))⟩
  case orders =>
    intro h ty port p act hi hs f
    have next {d : Core} (hd : c.rxVC0 h ty port p act = d) : exec i s = .next (s.after d) := by
      rw [exec_orderFrame hi, State.control_eq hs, hd]
    refine ⟨fun he => next (c.rxVC0_codeError h ty port p act hin he),
      fun he hc => next (c.rxVC0_otherCopy h ty port p act hin he hc), fun he hc => ?orderTaken⟩
    have takes := c.rxVC0_takenCopy h ty port p act hin he hc
    refine ⟨fun h0 => next (takes.trans (if_pos h0)), fun h0 hd => next (takes.trans ((if_neg h0).trans (if_pos hd))),
      fun h0 hd ha => next (takes.trans ((if_neg h0).trans ((if_neg hd).trans (if_pos ha)))), fun h0 hd ha => ?orderPassing⟩
    have passing := takes.trans ((if_neg h0).trans ((if_neg hd).trans (if_neg ha)))
    exact ⟨fun hk hB => next ((passing.trans (c.pass_classB hk hB)).trans (by rw [hB]; rfl)),
      fun hk hA ho => next ((passing.trans (c.pass_offRing hk hA ho)).trans (by rw [hA])),
      fun hg => next (passing.trans (c.pass_goesOn hg))⟩
  case credits =>
    rintro h vc cls count rfl hs
    have next {d : Core} (hd : c.rxCredit h vc cls count = d) : exec (.creditFrame h vc cls count) s = .next (s.after d) :=
      State.control_next hs hd
    refine ⟨fun he => next (c.rxCredit_codeError h vc cls count hin he),
      fun he hc => next (c.rxCredit_otherCopy h vc cls count hin he hc), fun he hc => ?creditTaken⟩
    have takes := c.rxCredit_takenCopy h vc cls count hin he hc
    exact ⟨fun h0 hd => next (takes.trans (if_pos ⟨h0, hd⟩)),
      fun hn => ⟨fun ha => next (takes.trans ((if_neg hn).trans (if_pos ha))), fun ha => next (takes.trans ((if_neg hn).trans (if_neg ha)))⟩⟩

/-! ## Writes of LNK_CTRL (R196) -/

theorem State.writePage_lnk (s : State) (off : Nat) (w : Word) : s.writePage pgLNK off w = { s with core := s.core.writeLnk off w } := rfl

/-- EN written alone: OPEN reads 0 when LNK_CTRL is written back. -/
theorem Core.ringOpen_zero (c : Core) (v : Nat) : bitOf (setBits (c.wordOf pgLNK 0x04) 0 1 v) 1 = false := by
  have reads0 : (fieldsAt .lnk 0x04).any (fun f => f.acc = .w1s && f.lo ≤ 1 && 1 < f.lo + f.len) = true := by decide
  rw [bitOf_setBits_other _ _ _ _ _ (by decide) (.inr (by decide)), bitOf_wordOf _ _ _ (show kindOf pgLNK = some .lnk from rfl), reads0,
    Bool.not_true, Bool.and_false, Bool.false_and]

/-- OPEN written alone: EN goes back as it stands. -/
theorem Core.ringEn_kept (c : Core) : bitOf (setBits (c.wordOf pgLNK 0x04) 1 1 1) 0 = c.ringOn := by
  have reads : (fieldsAt .lnk 0x04).any (fun f => f.acc = .w1s && f.lo ≤ 0 && 0 < f.lo + f.len) = false := by decide
  rw [bitOf_setBits_other _ _ _ _ _ (by decide) (.inl (by decide)), bitOf_wordOf _ _ _ (show kindOf pgLNK = some .lnk from rfl), reads,
    Bool.not_false, Bool.and_true,
    show (decide ((4 : Nat) = 4) && decide ((0 : Nat) = 31)) = false from rfl, Bool.not_false, Bool.and_true,
    bitOf_getBits]
  rfl

theorem exec_lnkEnable_open {s : State} (h : s.serviceRuns = true) (en : Bool) :
    exec (.lnkEnable en) s = .next (s.wrote (s.core.ringEnable en)) := by
  refine congrArg _ (State.fieldWrite_ctrl (f := LNK_CTRL_EN) h rfl rfl (by decide) ?_)
  have hen : bitOf (setBits (s.core.wordOf pgLNK 0x04) LNK_CTRL_EN.lo LNK_CTRL_EN.len (b2n en)) 0 = en :=
    (bitOf_setBits_one _ 0 _ (by decide)).trans (by cases en <;> rfl)
  have hop : bitOf (setBits (s.core.wordOf pgLNK 0x04) LNK_CTRL_EN.lo LNK_CTRL_EN.len (b2n en)) 1 = false := s.core.ringOpen_zero _
  rw [State.writePage_lnk, Core.writeLnk_ctrl, hen, hop, if_neg Bool.false_ne_true]

/-- A write of OPEN on a device that is on the ring (R196). -/
theorem exec_ringOpen_open {s : State} (h : s.serviceRuns = true) (ho : s.core.ringOn = true) :
    exec .ringOpen s = .next (s.wrote (s.core.setFld pgLNK LNK_CTRL_EN 1).ringOpen) := by
  refine congrArg _ (State.fieldWrite_ctrl (f := LNK_CTRL_OPEN) h rfl rfl (by decide) ?_)
  have hen : bitOf (setBits (s.core.wordOf pgLNK 0x04) LNK_CTRL_OPEN.lo LNK_CTRL_OPEN.len 1) 0 = true := s.core.ringEn_kept.trans ho
  have hop : bitOf (setBits (s.core.wordOf pgLNK 0x04) LNK_CTRL_OPEN.lo LNK_CTRL_OPEN.len 1) 1 = true :=
    bitOf_setBits_one _ 1 1 (by decide)
  rw [State.writePage_lnk, Core.writeLnk_ctrl, hen, hop, if_pos rfl, Core.ringEnable_same _ true ho]
  rfl

theorem Core.inputLock_locks (c : Core) (ho : c.ringOn = true) (hd : c.lnk.openDue = false) :
    c.inputLock = { c with lnk := { c.lnk with locked := true } } := by
  rw [Core.inputLock, if_neg (by rw [ho]; decide)]
  exact if_neg (by rw [hd]; decide)

/-! ## Opening and enumeration (R195 to R198) -/

/-- OPEN on a master with no second one (R195, R196, R198). -/
theorem Core.ringOpen_master (c : Core) (hm : c.isMaster = true) (h2 : c.stat pgLNK 12 = false) (ho : c.ringOn = true) :
    c.ringOpen =
      if c.cascBusy then c.raise pgLNK 13
      else if c.lnk.locked then c.startEnum
      else { c with lnk := { c.lnk with openDue := true } }.setFld pgLNK LNK_CTRL_OPEN 1 :=
  if_neg (by rw [hm, h2, ho]; decide)

/-- A sound ENUM that is taken outside a freeze (R196). -/
theorem Core.rxEnum_takes (c : Core) (h : FrameHead) (id : Nat) (own : Bool) (hd : c.rpr.depth = 0) (hin : c.inputsOn = true)
    (he : h.err = .none) (hs : h.chord = c.stat pgLNK 2) : c.rxEnum h id own = c.passEnum h id own := by
  rw [Core.rxEnum, if_neg (by rw [hin]; decide), he]
  dsimp only
  rw [if_neg (by rw [Core.selected, decide_eq_true hs]; decide), Core.takeFrame]
  exact if_neg (not_not_intro hd)

theorem Core.passEnum_device (c : Core) (h : FrameHead) (id : Nat) (own : Bool) (hm : c.isMaster = false) :
    c.passEnum h id own =
      (c.takeEnum id own).queueFrame { vc := 3, frame := .msg h.clsB h.dest h.src h.fn (.enum (id + 1)), free := true } :=
  if_neg (by rw [hm]; decide)

theorem Core.passEnum_master (c : Core) (h : FrameHead) (id : Nat) (own : Bool) (hm : c.isMaster = true) :
    c.passEnum h id own = c.takeEnum id own := if_pos hm

/-- A device keeps the ID that ENUM brings (R196). -/
theorem Core.takeEnum_device (c : Core) (id : Nat) (own : Bool) (hm : c.isMaster = false) :
    c.takeEnum id own =
      (let d : Core := { c.openBegins with lnk := { c.openBegins.lnk with credits := fullCredits } }
       if id < 256 then (d.setFld pgLNK LNK_ID_DEVID id).setRstate 2 else d) := if_neg (by rw [hm]; decide)

/-- A master reports another master's ENUM and goes no further (R195). -/
theorem Core.takeEnum_foreign (c : Core) (id : Nat) (hm : c.isMaster = true) :
    c.takeEnum id false =
      (let d := { c with lnk := { c.lnk with failed := true, openDue := false } }
       ((d.setLevel pgLNK 12 true).setLive 0x3E (ringAddr d.ringId none) true).send 0x3E 0 (ringAddr d.ringId none)) := if_pos hm

/-- The master's own ENUM gives the count of devices, or ends the bring-up (R196, R197). -/
theorem Core.takeEnum_own (c : Core) (id : Nat) (hm : c.isMaster = true) (hr : c.rstate = 2) (hf : c.lnk.failed = false) :
    c.takeEnum id true =
      (let d := { c with lnk := { c.lnk with credits := fullCredits } }
       if 256 < id then (d.setRstate 3).openStops 5 else (d.setFld pgLNK LNK_ID_NDEV (id - 1)).setRstate 3) := by
  rw [Core.takeEnum, if_pos hm, if_neg (by decide)]
  exact if_neg (by rw [hr, hf]; decide)

/-! ## Messages of the bring-up (R196 to R201) -/

/-- A device's results that reach the master during the measurement (R196 step 4, R197). -/
theorem Core.collect_eq (c : Core) (id fwd : Nat) (chofs : Int) (hm : c.isMaster = true) (hr : c.rstate = 3) (hf : c.lnk.failed = false) :
    c.collect id fwd chofs =
      if !chofsOk chofs then c.openStops 1
      else ({ c with lnk := { c.lnk with meas := c.lnk.meas.filter (fun (p : Nat × Nat) => p.1 ≠ id) ++ [(id, fwd)] } }).sendMap :=
  if_neg (by rw [hm, hr, hf]; decide)

theorem Core.bindCheck_eq (c : Core) (src k rail : Nat) (confirm : Bool) (hr : c.rstate = 3) :
    c.bindCheck src k rail confirm =
      (let ok := k < 24 && c.flag pgLNK (LNK_LEND_EN k) && c.fld pgLNK (LNK_LEND_OWNER k) = src && c.fld pgLNK (LNK_LEND_ORAIL k) = rail
       if confirm then (if ok then c.setFld pgLNK (LNK_LEND_BOUND k) 1 else c) else c.sendMsg src (.bindAnswer k rail ok)) :=
  if_neg (not_not_intro hr)

/-- OPEN or its refusal on a device of the bring-up (R196 step 6, R198). -/
theorem Core.opened_eq (c : Core) (refused : Bool) (ho : c.ringOn = true) (hi : c.ringId ≠ 0) (hr : c.rstate = 3)
    (hf : c.lnk.failed = false) :
    c.opened refused =
      if refused then c.openRefused
      else ({ c with lnk := { c.lnk with
        prior := none, lentFired := Vector.replicate 24 false
        lentLater := Vector.replicate 24 true, preloads := Vector.replicate 24 none } }).setRstate 4 :=
  if_neg (by rw [ho, hr, hf, decide_eq_false hi]; decide)

/-- A slot map that the device acts on, with the answers `bound` to its binding checks (R196, R201, log 25). -/
theorem exec_slotmapFrame_acts {s : State} (h : s.serviceRuns = true) {fh : FrameHead} {ndev : Nat} {map : List Nat}
    {hops : List (Nat × Nat)} {bound : List (Nat × Nat × Nat)} {d : Core} (hl : s.core.listens fh = true) (hh : s.core.heeds fh = true)
    (hd : (s.core.taken fh (.slotMap ndev map hops)).slotMap ndev map hops bound = d) :
    exec (.slotmapFrame fh ndev map hops bound) s = .next (s.after (s.core.passes fh (.slotMap ndev map hops) d)) := by
  have other : ∀ id, RingMsg.slotMap ndev map hops ≠ .enum id := nofun
  rw [exec_slotmapFrame, execSlotmapFrame, State.ringIn_eq h, Core.rxMsg_takes _ _ _ _ (State.serviceRuns_depth h) other hl hh,
    Core.ringAct, hd]

/-- Settles O34: the writes of LNK_CTRL, ENUM, this device's measurement, and the messages of the bring-up. -/
theorem ringOpening : Obligations.RingOpening := by
  unfold Obligations.RingOpening
  intro s h c on
  refine ⟨fun ho => ?on, fun ho => ?stays, fun ho => ?off, fun ho => ?leaves, fun ho hd => ?locks, fun ho hm h2 hon => ?opens,
    fun fh id own hin he hs => ?enum, fun id fwd chofs rtt ho hi hr hf => ?measured,
    fun fh hl hh => ⟨?results, ?map, ?bind, ?answer, ?opened⟩⟩
  case on => rw [exec_lnkEnable_open h, Core.ringEnable_on _ ho]
  case stays => rw [exec_lnkEnable_open h, Core.ringEnable_same _ true ho]; rfl
  case off => rw [exec_lnkEnable_open h, Core.ringEnable_same _ false ho]; rfl
  case leaves => rw [exec_lnkEnable_open h, Core.ringEnable_off _ ho]
  case locks => exact State.control_next (State.serviceRuns_control h) (c.inputLock_locks ho hd)
  case opens =>
    rw [exec_ringOpen_open h ho, Core.ringOpen_master _ hm h2 hon]
    exact ⟨fun hb => by rw [if_pos hb], fun hb hk => by rw [if_neg (Bool.eq_false_iff.mp hb), if_neg (Bool.eq_false_iff.mp hk)],
      fun hb hk => by rw [if_neg (Bool.eq_false_iff.mp hb), if_pos hk]; rfl⟩
  case enum =>
    intro full
    have takes {d : Core} (hd : c.passEnum fh id own = d) : exec (.enumFrame fh id own) s = .next (s.after d) := by
      rw [exec_enumFrame, execEnumFrame, State.ringIn_eq h, c.rxEnum_takes fh id own (State.serviceRuns_depth h) hin he hs, hd]
    refine ⟨fun hm => takes ?_, fun hm hown => takes ?_, fun hm hown hr hf => ⟨fun hid => takes ?_, fun hid => takes ?_⟩⟩
    · rw [c.passEnum_device fh id own hm, c.takeEnum_device id own hm]
    · rw [c.passEnum_master fh id own hm, hown, c.takeEnum_foreign id hm]
    · rw [c.passEnum_master fh id own hm, hown, c.takeEnum_own id hm hr hf]
      exact if_neg (Nat.not_lt.mpr hid)
    · rw [c.passEnum_master fh id own hm, hown, c.takeEnum_own id hm hr hf]
      exact if_pos hid
  case measured =>
    have own : c.measureDone none id fwd chofs rtt = c.measured fwd chofs rtt := if_pos (State.serviceRuns_depth h)
    rw [exec_ringMeasureDone, execRingMeasureDone, State.ringIn_eq h, own, c.measured_eq fwd chofs rtt ho hi hr hf]
    rfl
  case results =>
    intro id fwd chofs rtt m d hm hr hf
    exact State.ringIn_next h hl hh nofun (d.collect_eq id fwd chofs hm hr hf)
  case map =>
    intro ndev map hops bound m d ho hi hr hf
    exact exec_slotmapFrame_acts h hl hh (d.slotMap_eq ndev map hops bound ho hi hr hf)
  case bind =>
    intro k rail confirm m d ok hr
    exact State.ringIn_next h hl hh nofun (d.bindCheck_eq fh.src k rail confirm hr)
  case answer =>
    intro id busy m d a e hm hr hf
    exact State.ringIn_next h hl hh nofun (d.cascAnswer_eq id busy hm hr hf)
  case opened =>
    intro refused m d ho hi hr hf
    exact State.ringIn_next h hl hh nofun (d.opened_eq refused ho hi hr hf)

end Sys2Proof.Machine

/-! PROOFS of the statements of the family of protection and comparators: the crowbar, limits, hiccups, undervoltage and the
trip matrix. -/
namespace Sys2Proof.Machine

/-- A protection path outside reset, once what it does to the core is known (R18). -/
theorem State.protect_next {s : State} (h : s.alive = true) {f : Core → Core} {d : Core} (hd : f s.core = d) :
    (.next (s.protect f) : Result) = .next (s.after d) := by
  rw [State.protect_eq h, hd]

/-! ## Hiccup and undervoltage (R237, R239) -/

theorem Core.hiccupRestart_enables (c : Core) (n : Nat) (h : c.flag pgTRP (TRP_RST_HICW n) = true) :
    c.hiccupRestart n = (c.hicCancel n).writeEn n true (vget c.prot.keptSoft n true) false := if_pos h

theorem Core.hiccupClear_good (c : Core) (n : Nat) (h : c.stat (pgV n) 0 = true) :
    c.hiccupClear n = c.setFld pgTRP (TRP_RST_HCNT n) 0 := if_pos h

theorem Core.uvArm_arms (c : Core) (n : Nat) (h : (c.rail n).rstate = .hold ∨ (c.rail n).rstate = .slew) :
    c.uvArm n = c.setFld pgTRP (TRP_RST_UVARM n) 1 :=
  if_pos (by simpa only [Bool.or_eq_true, decide_eq_true_eq] using h)

theorem Core.uvFault_sends (c : Core) (n : Nat) (hlo : c.cmpLo n = true) (harm : c.flag pgTRP (TRP_RST_UVARM n) = true)
    (hlim : c.flag pgTRP (TRP_RST_PCLACT n) = false) (hnew : c.stat pgCMP (8 + n) = false) :
    c.uvFault n = (((c.setStat pgCMP (8 + n) true).raise pgCMP (8 + n)).setLive 0x01 (mkAddr 1 n) true).send 0x01 0 (mkAddr 1 n) :=
  if_pos (by rw [hlo, harm, hlim, hnew]; decide)

/-! ## The crowbar and the trip matrix (R231, R246, R250) -/

/-- CROW_CLEAR over an open port. -/
theorem exec_crowClear_open {s : State} (h : s.serviceRuns = true) (n : Fin 8) :
    exec (.crowClear n) s = .next (s.wrote (s.core.crowClear n false)) :=
  congrArg _ (State.regWrite_core h rfl (.inl (by decide)) (State.clearCrow s n))

/-- TRIP_CLEAR over an open port. -/
theorem exec_tripClear_open {s : State} (h : s.serviceRuns = true) (g : Fin 12) :
    exec (.tripClear g) s = .next (s.wrote (s.core.tripClear g false)) :=
  congrArg _ (State.regWrite_core h rfl (.inl (by decide)) (State.clearTrip s g))

/-- A crowbar that stands is cleared, or refused while its HI side is asserted (R231). -/
theorem Core.crowClear_held (c : Core) (n : Nat) (h : c.crowHeld n = true) :
    c.crowClear n false =
      if c.cmpHi n then (c.clearSticky pgTRP (16 + n) false).raise pgTRP 12
      else ((c.setStat pgTRP (16 + n) false).clearSticky pgTRP (16 + n) false).rejoinRemotes n := by
  have stands : c.stky pgTRP (16 + n) = true := h
  rw [Core.crowClear, if_neg (by rw [stands]; decide), Bool.or_false]

/-- A trip that stands is cleared, or refused while a line of its group is active (R250). -/
theorem Core.tripClear_stands (c : Core) (g : Nat) (h : c.stky pgTRP g = true) :
    c.tripClear g false =
      if c.groupLines g ≠ [] then (c.clearSticky pgTRP g false).raise pgTRP 12
      else
        let d := c.setReg pgTRP 0x0C (putBit (c.reg pgTRP 0x0C) g false)
        ({ d with prot := { d.prot with forced := d.prot.forced &&& ~~~(1#12 <<< g) } }).syncTrip g := by
  rw [Core.tripClear, if_neg (by rw [h]; decide)]
  simp only [Bool.or_false, decide_eq_true_eq]

/-- A change of a trip line's filtered level is one command, named for its direction. -/
theorem exec_tripLine (l : Nat) (b : Bool) (s : State) :
    (if b then exec (.tripLineActive l) s else exec (.tripLineInactive l) s) = .next (s.protect (fun c => c.setLine l b)) := by
  cases b <;> rfl

/-- A line takes a new level that the device itself does not contradict (R245, R246). -/
theorem Core.setLine_changes (c : Core) {l : Nat} {b : Bool} (hl : l < 16) (hon : c.lineOn l = !b) (hs : c.lineSignal l ≠ some (!b)) :
    c.setLine l b =
      (let d := c.setReg pgTRP 0x98 (putBit (c.reg pgTRP 0x98) l b)
       let d := if b then d.setReg pgTRP 0x98 (putBit (d.reg pgTRP 0x98) (16 + l) true) else d
       d.syncTrips) := by
  refine if_neg ?_
  simp only [Bool.or_eq_true, decide_eq_true_eq, hon, hs, Nat.not_le.mpr hl, Bool.not_eq_self, or_self, not_false_eq_true]

/-- Settles O38: the protection paths by what each changes outside reset, then the paths of service and the two clears. -/
theorem crowbarHiccupAndTrips : Obligations.CrowbarHiccupAndTrips := by
  unfold Obligations.CrowbarHiccupAndTrips
  intro s ha c
  refine ⟨fun n => State.protect_next ha rfl, fun n byRoc count hc => ?hiccup,
    fun n hr => State.protect_next ha (c.uvArm_arms n hr),
    fun n hlo harm hlim hnew => State.protect_next ha (c.uvFault_sends n hlo harm hlim hnew),
    fun l b hl hon hs => ?line, fun h => ⟨fun n hw => ?restart, fun n hg => ?countClear, fun n hk => ?crow, fun g hk => ?trip⟩⟩
  case hiccup =>
    exact ⟨fun hk => State.protect_next ha (c.hiccup_waits n byRoc count hc hk),
      fun hk => State.protect_next ha (c.hiccup_gives_up n byRoc count hc hk)⟩
  case line => rw [exec_tripLine, State.protect_eq ha, c.setLine_changes hl hon hs]
  case restart => exact State.control_next (State.serviceRuns_control h) (c.hiccupRestart_enables n hw)
  case countClear => exact State.control_next (State.serviceRuns_control h) (c.hiccupClear_good n hg)
  case crow =>
    rw [exec_crowClear_open h, c.crowClear_held n hk]
    exact ⟨fun hi => by rw [if_pos hi], fun hi => by rw [if_neg (Bool.eq_false_iff.mp hi)]⟩
  case trip =>
    rw [exec_tripClear_open h, c.tripClear_stands g hk]
    exact ⟨fun hg => by rw [if_pos hg], fun hg => by rw [if_neg (not_not_intro hg)]⟩

end Sys2Proof.Machine

/-! PROOFS of the statements of the family of auxiliary channels: writes and forces, periods, limits and the fan. -/
namespace Sys2Proof.Machine

/-! ## AUX_CTRL (R264, R266, R277) -/

/-- FANEN of `d` written as it stands in `c`: while it is 0 the fan's stall ends (R277, R278). -/
def Core.fanKept (c d : Core) : Core :=
  let e := d.setFld pgAUX AUX_CTRL_FANEN (c.fld pgAUX AUX_CTRL_FANEN)
  if c.flag pgAUX AUX_CTRL_FANEN then e else e.fanUnstall

/-- The enables `en` written to the channels, with the reload requests `rld` (R264, R266). -/
def Core.writeChannels (c : Core) (en rld : Nat → Bool) : Core :=
  (List.range 4).foldl (fun (d : Core) m =>
    if rld m then (d.xWriteEn m (en m)).setFld pgAUX (AUX_CTRL_RLD m) 1 else d.xWriteEn m (en m)) c

/-- Only the bits of the four channels matter. -/
theorem Core.writeChannels_congr (c : Core) {en en' rld rld' : Nat → Bool} (hen : ∀ m < 4, en m = en' m) (hrld : ∀ m < 4, rld m = rld' m) :
    c.writeChannels en rld = c.writeChannels en' rld' :=
  List.foldl_ext _ _ c fun _ m hm => by rw [hen m (List.mem_range.mp hm), hrld m (List.mem_range.mp hm)]

/-- A write of AUX_CTRL, by the enables and the reload requests that its word carries. -/
theorem Core.auxCtrl_bits (c : Core) (w : Word) {en rld : Nat → Bool} (hen : ∀ m < 4, bitOf w m = en m)
    (hrld : ∀ m < 4, bitOf w (4 + m) = rld m) (hfan : getBits w 8 1 = c.fld pgAUX AUX_CTRL_FANEN) :
    c.auxCtrl w = c.fanKept (c.writeChannels en rld) := by
  have fan : bitOf w 8 = c.flag pgAUX AUX_CTRL_FANEN := by rw [bitOf_getBits, hfan]; rfl
  rw [Core.auxCtrl_eq, fan, hfan, ← c.writeChannels_congr hen hrld]
  rfl

/-- An enable of the word that a write of bit `i` of AUX_CTRL carries: as it stands, unless it is the one written (log 5). -/
theorem Core.auxCtrl_word_en (c : Core) {i m : Nat} (v : Nat) (hi : i < 8) (hm : m < 4) :
    bitOf (setBits (c.wordOf pgAUX 4) i 1 v) m = if m = i then decide (v % 2 = 1) else c.flag pgAUX (AUX_CTRL_EN m) := by
  have stands : bitOf (c.reg pgAUX 4) m = c.flag pgAUX (AUX_CTRL_EN m) := bitOf_getBits ..
  rw [c.aux_ctrl_write i v m hi (by omega), if_neg (show ¬ (4 ≤ m ∧ m < 8) by omega), stands]

/-- A reload request of that word: 0, unless it is the one written (log 5). -/
theorem Core.auxCtrl_word_rld (c : Core) {i m : Nat} (v : Nat) (hi : i < 8) (hm : m < 4) :
    bitOf (setBits (c.wordOf pgAUX 4) i 1 v) (4 + m) = if 4 + m = i then decide (v % 2 = 1) else false := by
  rw [c.aux_ctrl_write i v (4 + m) hi (by omega), if_pos (show 4 ≤ 4 + m ∧ 4 + m < 8 by omega)]

/-- A write of one enable writes the others as they stand and asks for no reload (R264, R266). -/
theorem State.writeEn_aux {s : State} (hs : s.serviceRuns = true) (n : Fin 4) (v : Nat) :
    s.fieldWrite pgAUX (AUX_CTRL_EN n) v = s.wrote (s.core.fanKept (s.core.writeChannels
      (fun m => if m = n.val then decide (v % 2 = 1) else s.core.flag pgAUX (AUX_CTRL_EN m)) (fun _ => false))) := by
  have hn : n.val < 8 := by omega
  rw [State.auxCtrl_write hs (AUX_CTRL_EN n) v rfl rfl hn]
  exact congrArg s.wrote (s.core.auxCtrl_bits _ (fun m hm => s.core.auxCtrl_word_en v hn hm)
    (fun m hm => (s.core.auxCtrl_word_rld v hn hm).trans (if_neg (show ¬ 4 + m = n.val by omega))) (s.core.aux_fan_write n v hn))

/-- A reload request writes every enable as it stands (R264). -/
theorem State.writeRld_aux {s : State} (hs : s.serviceRuns = true) (n : Fin 4) :
    s.fieldWrite pgAUX (AUX_CTRL_RLD n) 1 = s.wrote (s.core.fanKept (s.core.writeChannels
      (fun m => s.core.flag pgAUX (AUX_CTRL_EN m)) (fun m => m = n.val))) := by
  have hn : 4 + n.val < 8 := by omega
  have asked (m : Nat) : (if 4 + m = 4 + n.val then decide (1 % 2 = 1) else false) = decide (m = n.val) := by simp
  rw [State.auxCtrl_write hs (AUX_CTRL_RLD n) 1 rfl rfl hn]
  exact congrArg s.wrote (s.core.auxCtrl_bits _
    (fun m hm => (s.core.auxCtrl_word_en 1 hn hm).trans (if_neg (show ¬ m = 4 + n.val by omega)))
    (fun m hm => (s.core.auxCtrl_word_rld 1 hn hm).trans (asked m)) (s.core.aux_fan_write (4 + n) 1 hn))

/-! ## Forces (R276) -/

/-- AUX_FORCE over an open port, once what it does to the core is known. -/
theorem exec_auxForce_open {s : State} (hs : s.serviceRuns = true) (n : Fin 4) (v : Word) {d : Core} (hd : s.core.xWriteForce n v = d) :
    exec (.auxForce n v) s = .next (s.wrote d) :=
  congrArg _ ((State.regWrite_core hs rfl (.inl (by decide)) (State.writeAux_force s n v)).trans (congrArg s.wrote hd))

theorem Core.xWriteForce_rejects (c : Core) (n : Nat) (v : Word) (h : getBits v 0 3 = 7) : c.xWriteForce n v = c.raise pgAUX 25 := if_pos h

/-- A force that is stored and waits for its instant. -/
def Core.xForceStored (c : Core) (n : Nat) (v : Word) : Core :=
  (c.setReg pgAUX (0x38 + 32 * n) (BitVec.ofNat 32 (getBits v 0 3))).modXch n (fun x => { x with forcePend := true })

theorem Core.xWriteForce_waits (c : Core) (n : Nat) (v : Word) (h : getBits v 0 3 ≠ 7) (hst : ((c.xForceStored n v).xch n).st ≠ .off) :
    c.xWriteForce n v = c.xForceStored n v := (if_neg h).trans (if_neg hst)

/-- In OFF the instant of a force is now. -/
theorem Core.xWriteForce_acts (c : Core) (n : Nat) (v : Word) (h : getBits v 0 3 ≠ 7) (hst : ((c.xForceStored n v).xch n).st = .off) :
    c.xWriteForce n v =
      (let e := ((c.xForceStored n v).xTakeForce n).xRow n
       if (e.xch n).forced then e.xForceGates n else e) := (if_neg h).trans (if_pos hst)

/-- Settles O39: the three writes through the word of AUX_CTRL, each enable by the state of its channel, and a force by
whether its three bits are all set. -/
theorem auxiliaryWritesAndForces : Obligations.AuxiliaryWritesAndForces := by
  unfold Obligations.AuxiliaryWritesAndForces
  intro s n hs c fan on
  refine ⟨?enable, ?disable, ?reload, fun d => ?channel, fun v => ?force⟩
  case enable =>
    rw [exec_auxEnable, execAuxEnable, State.writeEn_aux hs]
    simp only [Nat.one_mod, decide_true, Bool.if_true_left]
    rfl
  case disable =>
    rw [exec_auxDisable, execAuxDisable, State.writeEn_aux hs]
    simp only [Nat.zero_mod, Nat.zero_ne_one, decide_false, Bool.if_false_left]
    rfl
  case reload =>
    rw [exec_auxReload, execAuxReload, State.writeRld_aux hs]
    simp only [Core.writeChannels, decide_eq_true_eq]
    rfl
  case channel =>
    exact ⟨d.xWriteEn_start n, d.xWriteEn_end n, d.xWriteEn_same n, d.xWriteEn_stored n true, d.xWriteEn_stored n false⟩
  case force =>
    exact ⟨fun h7 => exec_auxForce_open hs n v (c.xWriteForce_rejects n v h7),
      fun h7 => ⟨fun hst => exec_auxForce_open hs n v (c.xWriteForce_waits n v h7 hst),
        fun hst => exec_auxForce_open hs n v (c.xWriteForce_acts n v h7 hst)⟩⟩

/-! ## Capture points and limits (R262 to R265, R267, R270) -/

/-- A capture point, once what it takes from the written values is known. -/
theorem exec_auxCapture_takes {s : State} (ha : s.alive = true) (n : Fin 4) (vfb ns : Nat) {d : Core} (hd : s.core.xReload n = d) :
    exec (.auxCapture n vfb ns) s = .next (s.after ((d.xShow n vfb ns).xNext n)) :=
  State.protect_next ha (congrArg (fun d => (d.xShow n vfb ns).xNext n) hd)

theorem Core.xDeadEnd_high (c : Core) (n : Nat) (h : (c.xch n).dead = 1) : c.xDeadEnd n = c.xRise n := if_pos h

theorem Core.xDeadEnd_low (c : Core) (n : Nat) (h : (c.xch n).dead = 2) :
    c.xDeadEnd n = (c.modXch n (fun x => { x with xl := true, dead := 0 })).xReverse n :=
  (if_neg (by rw [h]; decide)).trans (if_pos h)

theorem Core.xGood_rises (c : Core) (n us : Nat) (hr : (c.xch n).st = .run) (ht : 16 ≤ us) (hhi : c.cmpHi (42 + n) = false)
    (hlo : c.cmpLo (42 + n) = false) : c.xGood n us = c.setLevel pgAUX n true :=
  if_pos (by rw [hr, hhi, hlo, decide_eq_true ht]; decide)

theorem Core.xUnder_sends (c : Core) (n us : Nat) (hr : (c.xch n).st = .run) (hlo : c.cmpLo (42 + n) = true)
    (ht : c.fld pgAUX (AUX_XCFG_UVDLY n) ≤ us) (hnew : c.stat pgAUX (8 + n) = false) :
    c.xUnder n us = (((c.setStat pgAUX (8 + n) true).raise pgAUX (8 + n)).setLive 0x1A (mkAddr 7 n) true).send 0x1A 0 (mkAddr 7 n) :=
  if_pos (by rw [hr, hlo, hnew, decide_eq_true ht]; decide)

/-- A fan period outside reset (R277). -/
theorem exec_fanPeriod_alive {s : State} (ha : s.alive = true) : exec .fanPeriod s = .next s.fanPeriod.rest := congrArg _ (if_pos ha)

/-- Settles O40: a capture point by what it takes of the written values, and every other instant through the operation of the
channel or the fan. -/
theorem auxiliaryPeriodsAndFan : Obligations.AuxiliaryPeriodsAndFan := by
  unfold Obligations.AuxiliaryPeriodsAndFan
  intro s ha c
  refine ⟨fun n vfb ns => ?capture, fun n => ?boundary, fun n hr => ?duty, fun n => ⟨fun hd hlim => ?rise, fun hd hlim => ?limits, fun hd => ?low⟩,
    fun n us hr => ⟨fun ht hhi hlo => ?good, fun hlo ht hnew => ?under⟩, fun n hr hk hrow => ?trips, ?fanPeriod,
    ⟨fun hfirst => ?firstEdge, fun t ht hus => ?edge⟩, fun ms hen hcur ht hms hnew => ?stall⟩
  case capture =>
    have takes {d : Core} := exec_auxCapture_takes ha n vfb ns (d := d)
    exact ⟨fun hrld => takes (c.xReload_asked n hrld), fun hrld hmode => takes (c.xReload_direct n hrld hmode),
      fun hrld hmode => ⟨fun hnew hmiss => takes (c.xReload_missed n hrld hmode hnew hmiss),
        fun hwait => takes (c.xReload_waits n hrld hmode hwait)⟩⟩
  case boundary => exact State.protect_next ha (c.xBoundary_eq n)
  case duty => exact State.protect_next ha (c.xDutyInstant_eq n hr)
  case rise => exact State.protect_next ha ((c.xDeadEnd_high n hd).trans (c.xRise_free n hlim))
  case limits => exact State.protect_next ha ((c.xDeadEnd_high n hd).trans (c.xRise_limited n hlim))
  case low => exact State.protect_next ha (c.xDeadEnd_low n hd)
  case good => exact State.protect_next ha (c.xGood_rises n us hr ht hhi hlo)
  case under => exact State.protect_next ha (c.xUnder_sends n us hr hlo ht hnew)
  case trips => exact fun hd => State.protect_next ha (c.xOver_eq n hr hk hrow hd)
  case fanPeriod => exact exec_fanPeriod_alive ha
  case firstEdge => exact State.protect_next ha (c.fanTach_first hfirst)
  case edge => exact State.protect_next ha (c.fanTach_eq t ht hus)
  case stall => exact State.protect_next ha (c.fanStall_eq ms hen hcur ht hms hnew)

end Sys2Proof.Machine

/-! PROOFS of the statements of the family of telemetry and the crumb stream, and of the housekeeping round. -/
namespace Sys2Proof.Machine

/-! ## Base samples and the crumb stream (R281, R290 to R299, R305) -/

/-- A base interval over a control path, with the bus conversions from the end of phase A on alone (R281, R282). -/
theorem exec_tlmBaseSample_open {s : State} (h : s.controlRuns = true) (vin : Option (Vector Nat 2)) :
    exec (.tlmBaseSample vin) s = .next (s.after (s.core.baseSample (if s.thmRuns then vin else none) s.booted)) :=
  State.control_next h rfl

/-- A flush that no slot meets, with nothing in the merge stage, by whether a word is pushed at its instant (R298, R299). -/
theorem exec_crbFlush_empty {s : State} (h : s.serviceRuns = true) {d : Core} (hd : s.core.crumbFlush = d) (hm : s.core.crb.merge = []) :
    exec (.crbFlush false false) s = .next (s.wrote d) ∧
      (s.core.crb.openw ≠ [] → s.core.crb.closing = false → exec (.crbFlush true false) s =
        .next (((s.wrote d).onCore (fun e => (e.pushWord (packWord s.core.crb.openw)).judgeLevel 0)).rest)) := by
  subst hd
  exact ⟨State.crbFlush_plain h, fun ho hc => State.crbFlush_push h hm ho hc⟩

/-- A write of CRB_RSEL takes its ID byte (R305). -/
theorem exec_crbRselWrite_open {s : State} (h : s.serviceRuns = true) (v : Word) :
    exec (.crbRselWrite v) s = .next (s.wrote (s.core.writeRsel (getBits v 0 8))) :=
  congrArg _ (State.regWrite_core h rfl (.inl (by decide)) rfl)

/-- Settles O41: a base interval over the control path, the requests of page TLM through their fields, and each event of the
crumb stream by what waits in the merge stage and in the packer. -/
theorem telemetryAndTheCrumbStream : Obligations.TelemetryAndTheCrumbStream := by
  unfold Obligations.TelemetryAndTheCrumbStream
  intro s
  refine ⟨fun h vin0 => ?sample, fun h => ?service⟩
  case sample => exact exec_tlmBaseSample_open h vin0
  case service =>
    intro c
    refine ⟨?swap, ?peaks, ?selected, ?merge, fun us ht hdue ho hc => ⟨?timeout, fun hroom => ?closed⟩, fun hm => ?flush, fun v => ?rsel⟩
    case swap => exact congrArg _ (State.tlmCtrl_swap h)
    case peaks => exact congrArg _ (State.tlmCtrl_peaks h)
    case selected => exact congrArg _ (State.tlmPeak_clear h)
    case merge =>
      intro x t p hm hc hp d lost
      exact ⟨fun hplain => State.service_next h (c.merge_plain hm hc hp hplain),
        fun tm hstamp => State.service_next h (c.merge_stamped hm hc hp hstamp)⟩
    case timeout => exact State.service_next h (c.packTimeout_due us ht hdue ho hc)
    case closed => exact c.closeWord_room ho hroom
    case flush => exact exec_crbFlush_empty h (c.flush_empty hm) hm
    case rsel => exact exec_crbRselWrite_open h v

/-! ## The housekeeping round (R311 to R325) -/

/-- From the end of phase A on a round starts where none is under way (R311). -/
theorem exec_hkRoundStart_idle {s : State} (h : s.thmRuns = true) (ha : s.core.thm.active = false) {d : Core} (hd : s.core.thmStart = d) :
    exec .hkRoundStart s = .next (s.after d) := by
  subst hd
  exact congrArg _ (if_pos (by rw [h, ha]; rfl))

/-- A round that is under way is abandoned (R313). -/
theorem exec_hkRoundAbandon_active {s : State} (h : s.thmRuns = true) (ha : s.core.thm.active = true) :
    exec .hkRoundAbandon s = .next (s.after s.core.thmAbandon) := congrArg _ (if_pos (by rw [h, ha]; rfl))

/-- The end of a round that is under way: its evaluation, with compensation words outside full freeze, and then the samples of
the temperature channels (R281, R312, R325). -/
theorem exec_hkRoundEnd_active {s : State} (h : s.thmRuns = true) (ha : s.core.thm.active = true)
    (temps : Vector Int 6) (tmon : Vector Nat 3) (sup : Vector Nat 5) (refs : Vector Int 4) :
    exec (.hkRoundEnd temps tmon sup refs) s = .next (s.after
      ((s.core.thmEvaluate (fun i => vget temps i 0) (fun i => vget tmon i 0) (fun i => vget sup i 0) (fun i => vget refs i 0)
        (s.core.rpr.depth ≠ 2)).tempChannels s.booted)) :=
  congrArg _ (if_pos (by rw [h, ha]; rfl))

/-- A round with an unchanged period keeps the history (R311, R322). -/
theorem Core.thmStart_same (c : Core) (h : c.thm.per = c.thmPer) : c.thmStart = { c with thm := { c.thm with active := true } } := by
  rw [Core.thmStart, if_pos h, ← h]

/-- A change of the period restarts the history (R311, R322). -/
theorem Core.thmStart_changed (c : Core) (h : c.thm.per ≠ c.thmPer) :
    c.thmStart = { c with thm := { c.thm with active := true, per := c.thmPer, hist := [] } } := by
  rw [Core.thmStart, if_neg h]

/-- Settles O43: a start by whether the period has changed, and the end and the abandonment of a round that is under way. -/
theorem housekeepingRounds : Obligations.HousekeepingRounds := by
  unfold Obligations.HousekeepingRounds
  intro s h c
  refine ⟨fun ha => ⟨fun hper => ?same, fun hper => ?changed⟩, fun ha => ⟨?abandon, fun temps tmon sup refs => ?finish⟩⟩
  case same => exact exec_hkRoundStart_idle h ha (c.thmStart_same hper)
  case changed => exact exec_hkRoundStart_idle h ha (c.thmStart_changed hper)
  case abandon => exact exec_hkRoundAbandon_active h ha
  case finish => exact exec_hkRoundEnd_active h ha temps tmon sup refs

end Sys2Proof.Machine

/-! PROOFS of the statements of the family of the fault collector: the GRAVE latch, messages and their check, classes and
forcing, releases, supplies and resets. -/
namespace Sys2Proof.Machine

/-! ## The GRAVE latch (R338, R400) -/

theorem Soft.trans {p q r : Power} (h : Soft p q) (h' : Soft q r) : Soft p r := by
  obtain ⟨good, latchD, latchV, kept⟩ := h
  obtain ⟨good', latchD', latchV', kept'⟩ := h'
  refine ⟨good'.trans good, latchD' ∘ latchD, latchV' ∘ latchV, fun set => ?_⟩
  obtain ⟨msg, time⟩ := kept set
  obtain ⟨msg', time'⟩ := kept' (set.imp latchD latchV)
  exact ⟨msg'.trans msg, time'.trans time⟩

/-- To stand in a `Soft` relation to a given always-on domain is kept by every primitive change: changes of the core and
of the memories leave the domain alone, and the others compose. -/
theorem closed_soft (p : Power) : Closed (fun t => Soft p t.pw) where
  upd _ _ _ h h' := h.trans h'
  put _ _ _ h := h
  erase _ _ h := h
  bad _ _ h := h
  burn _ _ _ h := h

/-- What a command that is not of the supplies does to the supplies and the always-on domain. -/
theorem exec_soft {i : Instr} {s t : State} (hi : ofSupply i = false) (e : exec i s = .next t) : Soft s.pw t.pw :=
  exec_holds (closed_soft s.pw) i hi (Soft.refl s.pw) e

/-- Settles O7: each command is made of primitive changes that keep the latch, so the whole command keeps it. -/
theorem graveLatchSurvivesCommands : Obligations.GraveLatchSurvivesCommands := by
  unfold Obligations.GraveLatchSurvivesCommands
  intro i s t hi e
  obtain ⟨good, latchD, latchV, kept⟩ := exec_soft hi e
  exact ⟨good, latchD, latchV, fun set => kept ((Bool.or_eq_true ..).mp set)⟩

/-! ## Coded messages and their check (R328, R331) -/

/-- The number that a coded message is: its three fields side by side, and the check bits below them. -/
theorem mkMsg_toNat (src kind addr : Nat) : ∃ e < 4,
    (mkMsg src kind addr).toNat = src % 256 * 2 ^ 24 + kind % 64 * 2 ^ 18 + addr % 65536 * 4 + e := by
  have hs : src % 256 < 256 := Nat.mod_lt _ (by decide)
  have hk : kind % 64 < 64 := Nat.mod_lt _ (by decide)
  have ha : addr % 65536 < 65536 := Nat.mod_lt _ (by decide)
  simp only [mkMsg, BitVec.toNat_ofNat]
  generalize oddParity 15 _ = p
  generalize oddParity 15 _ = q
  refine ⟨(if p then 2 else 0) + (if q then 1 else 0), by cases p <;> cases q <;> decide, ?_⟩
  rw [Nat.mod_eq_of_lt (by split <;> split <;> omega), Nat.add_assoc]

theorem msgSrc_mkMsg (src kind addr : Nat) : msgSrc (mkMsg src kind addr) = src % 256 := by
  obtain ⟨e, he, h⟩ := mkMsg_toNat src kind addr
  rw [msgSrc, getBits, h]
  omega

theorem msgKind_mkMsg (src kind addr : Nat) : msgKind (mkMsg src kind addr) = kind % 64 := by
  obtain ⟨e, he, h⟩ := mkMsg_toNat src kind addr
  rw [msgKind, getBits, h]
  omega

theorem msgAddr_mkMsg (src kind addr : Nat) : msgAddr (mkMsg src kind addr) = addr % 65536 := by
  obtain ⟨e, he, h⟩ := mkMsg_toNat src kind addr
  rw [msgAddr, getBits, h]
  omega

/-- The check of R331, as the two equations of its check bits. -/
theorem msgOk_iff (w : Word) : msgOk w = true ↔
    bitOf w 1 = (List.range 15).foldl (fun a i => xor a (bitOf w (17 + i))) false ∧
    bitOf w 0 = (List.range 15).foldl (fun a i => xor a (bitOf w (2 + i))) false := by
  rw [msgOk_eq, Bool.and_eq_true, beq_iff_eq, beq_iff_eq]
  exact and_congr eq_comm eq_comm

/-- Outside reset the collector takes a message and the machine comes to rest. -/
theorem exec_faultMessage_alive {s : State} (h : s.alive = true) : exec .faultMessage s = .next s.takeMessage.rest := by
  rw [exec_faultMessage, execFaultMessage, if_pos h]

/-- An event leaves the fields of its page outside STKY and EVC. -/
theorem Core.raise_fld (c : Core) (pg bit : Nat) {f : Field} (h : f.off < 256) (hevc : f.off ≠ 0x1C) (hstky : f.off ≠ 0x0C) :
    (c.raise pg bit).fld pg f = c.fld pg f := by
  rw [Core.fld, Core.raise_reg c pg bit h hevc hstky]; rfl

/-- A wrong message counts in FLT_CNT.MSGERR, which saturates (R331). -/
theorem Core.msgErr_counted (c : Core) :
    ((c.incSat pgFLT FLT_CNT_MSGERR 1).raise pgFLT 6).fld pgFLT FLT_CNT_MSGERR = min 65535 (c.fld pgFLT FLT_CNT_MSGERR + 1) := by
  rw [Core.raise_fld _ _ _ (by decide) (by decide) (by decide), Core.incSat, Core.fld_setFld_same _ _ _ _ (by decide)]
  exact Nat.mod_eq_of_lt (Nat.lt_succ_of_le (Nat.min_le_left ..))

/-- Settles O58: the three outcomes of the check, and the mark and the count of a wrong message. -/
theorem messagesAreChecked : Obligations.MessagesAreChecked := by
  unfold Obligations.MessagesAreChecked
  intro s w t h hl
  dsimp only
  rw [exec_faultMessage_alive h, ← msgOk_iff]
  refine ⟨fun ok hs => ?right, fun bad => ⟨mkMsg 0x5E 0 0, msgSrc_mkMsg .., msgKind_mkMsg .., msgAddr_mkMsg .., msgOk_mkMsg .., ?wrong⟩,
    fun ok hs => ⟨mkMsg 0x5E 1 0, msgSrc_mkMsg .., msgKind_mkMsg .., msgAddr_mkMsg .., msgOk_mkMsg .., ?range⟩,
    Core.raise_stky _ _ (by decide), Core.msgErr_counted _⟩
  case right => rw [State.takeMessage_good s hl ok hs]
  case wrong => rw [State.takeMessage_bad s hl (Bool.eq_false_iff.mpr bad)]
  case range => rw [State.takeMessage_range s hl ok hs]

/-- Settles O59: the fields lie side by side, and each wrong bit changes one check bit against its half. -/
theorem oneWrongBitIsNeverTakenForAMessage : Obligations.OneWrongBitIsNeverTakenForAMessage := by
  unfold Obligations.OneWrongBitIsNeverTakenForAMessage
  intro src kind addr
  refine ⟨(msgSrc_mkMsg ..).trans (Nat.mod_eq_of_lt src.isLt), (msgKind_mkMsg ..).trans (Nat.mod_eq_of_lt kind.isLt),
    (msgAddr_mkMsg ..).trans (Nat.mod_eq_of_lt addr.isLt), msgOk_mkMsg .., fun i s t h hl => ?_⟩
  rw [exec_faultMessage_alive h, State.takeMessage_bad s hl (msgOk_flip _ (msgOk_mkMsg ..) i i.isLt)]

/-! ## Classes and forcing (R334, R341) -/

theorem State.writeClasses_open (s : State) (i : Nat) (w : Word) (h : s.core.locked pgFSV (FSV_CLS_CLASS (8 * i)) = false) :
    s.writeClasses i w =
      (s.onCore (fun c => (List.range 8).foldl (fun (c : Core) j => c.writeClass (8 * i + j) (getBits w (4 * j) 3)) c)).syncFlt :=
  if_neg (by rw [h]; decide)

theorem State.writeClasses_locked (s : State) (i : Nat) (w : Word) (h : s.core.locked pgFSV (FSV_CLS_CLASS (8 * i)) = true) :
    s.writeClasses i w = s := if_pos h

/-- CLASS_WRITE over an open port. -/
theorem exec_classWrite_open {s : State} (h : s.serviceRuns = true) (i : Fin 12) (v : Word) :
    exec (.classWrite i v) s = .next (s.writeClasses i v).rest.frameEnd := by
  rw [exec_classWrite, execClassWrite, State.regWrite_eq h _ v rfl, State.writeNow_eq s v (.inl (by decide)), State.writeFsv_class]

/-- FAULT_FORCE over an open port. -/
theorem exec_faultForce_open {s : State} (h : s.serviceRuns = true) (i : Fin 3) (v : Word) :
    exec (.faultForce i v) s = .next (s.wrote (s.core.forceFaults i v)) :=
  congrArg _ (State.regWrite_core h rfl (.inl (by decide)) (State.writeFsv_force s i v))

theorem Core.forceFaults_locked (c : Core) (i : Nat) (w : Word) (h : bitOf (c.reg pgFSV 0x18) 4 = true) : c.forceFaults i w = c := if_pos h

theorem Core.forceFaults_open (c : Core) (i : Nat) (w : Word) (h : bitOf (c.reg pgFSV 0x18) 4 = false) :
    c.forceFaults i w = (bitsOf w).foldl (fun (c : Core) b =>
      if srcListed (32 * i + b) then c.send (32 * i + b) 0x3F (c.fld pgFSV FSV_FRCADDR_ADDR) else c) c :=
  if_neg (by rw [h]; decide)

/-- Settles O44: a message acts by its class, and classes and forces go to page FSV through their lock groups. -/
theorem faultMessagesAct : Obligations.FaultMessagesAct := by
  unfold Obligations.FaultMessagesAct
  intro s
  refine ⟨fun s1 w => ⟨s1.classify_note w, s1.classify_rail w, s1.classify_device w, s1.classify_grave w⟩,
    fun h => ⟨?fixed, fun w t hl => ?message⟩,
    fun h => ⟨fun i v hk => ?stored, fun i v hk => ?locked,
      fun c src k hs => ⟨fun h5F h5 h2 => c.writeClass_ok src k hs h5F h5 h2, fun bad => c.writeClass_refused src k hs bad⟩,
      fun i v => ?force⟩⟩
  case fixed => rw [exec_fltreg, execFltreg, if_pos h, State.fltReg]
  case message =>
    rw [exec_faultMessage_alive h]
    exact ⟨fun ok hs => by rw [State.takeMessage_good s hl ok hs], fun bad => by rw [State.takeMessage_bad s hl bad]⟩
  case stored => rw [exec_classWrite_open h, State.writeClasses_open s i v hk]
  case locked => rw [exec_classWrite_open h, State.writeClasses_locked s i v hk]; rfl
  case force =>
    rw [exec_faultForce_open h]
    exact ⟨fun hk => by rw [Core.forceFaults_locked _ _ _ hk], fun hk => by rw [Core.forceFaults_open _ _ _ hk]⟩

/-! ## Releases (R340, R345) -/

/-- FAULT_RELEASE over an open port. -/
theorem exec_faultRelease_open {s : State} (h : s.serviceRuns = true) (v : Word) :
    exec (.faultRelease v) s = .next (s.writeRel v).rest.frameEnd := by
  rw [exec_faultRelease, execFaultRelease, State.regWrite_eq h _ v rfl, State.writeNow_eq s v (.inl (by decide))]
  rfl

theorem State.relRefused_iff (s : State) (tgt count : Nat) : s.relRefused tgt count = true ↔
    s.pw.grave = true ∨ (12 ≤ tgt ∧ tgt ≠ 15) ∨ s.core.holdBusy tgt = true ∨ count ≠ (s.core.holdSet tgt).count ∨
      (tgt ≠ 15 ∧ s.core.stat pgFLT 3 = true) := by
  simp only [State.relRefused, Bool.or_eq_true, Bool.and_eq_true, decide_eq_true_eq, or_assoc]

theorem State.release_refused (s : State) (tgt count : Nat) (h : s.relRefused tgt count = true) :
    s.release tgt count = s.onCore (fun c => c.raise pgFLT 7) := if_pos h

theorem State.release_target (s : State) {tgt count : Nat} (h : s.relRefused tgt count ≠ true) (ht : tgt ≠ 15) :
    s.release tgt count = (s.onCore (fun c => c.freeTarget tgt)).syncFlt := by
  rw [State.release, if_neg h, if_neg ht]

theorem State.release_device (s : State) {tgt count : Nat} (h : s.relRefused tgt count ≠ true) (ht : tgt = 15) :
    s.release tgt count = s.freeDevice.syncFlt := by
  rw [State.release, if_neg h, if_pos ht]

/-- Settles O45: FLT_REL keeps its fields, and with GO its release is refused, of one target, or of the device. -/
theorem releasesOfHolds : Obligations.ReleasesOfHolds := by
  unfold Obligations.ReleasesOfHolds
  intro s v h tgt count c s1
  have refused_iff := s1.relRefused_iff tgt count
  rw [exec_faultRelease_open h]
  dsimp only
  refine ⟨fun hg => ?kept, fun hg hr => ?refused, fun hg hr ht => ?target, fun hg hr ht => ?device⟩
  case kept => rw [State.writeRel_kept s v hg]; rfl
  case refused => rw [State.writeRel_go s v hg, State.release_refused _ _ _ (refused_iff.mpr hr)]; rfl
  case target => rw [State.writeRel_go s v hg, State.release_target _ (mt refused_iff.mp hr) ht]
  case device => rw [State.writeRel_go s v hg, State.release_device _ (mt refused_iff.mp hr) ht]; rfl

/-! ## Supplies and resets (R400 to R418) -/

theorem exec_vkeepPowerOn_low {s : State} (h : s.pw.isGood 4 = false) : exec .vkeepPowerOn s = .next s.vkeepOn := by
  rw [exec_vkeepPowerOn, execVkeepPowerOn, if_neg (by rw [h]; decide)]

theorem exec_vkeepLoss_good {s : State} (h : s.pw.isGood 4 = true) : exec .vkeepLoss s = .next s.vkeepLoss := by
  rw [exec_vkeepLoss, execVkeepLoss, if_pos h]

theorem exec_supplyRise_low {s : State} {i : Fin 4} (h : s.pw.isGood i = false) :
    exec (.supplyRise i) s = .next ({ s with pw := s.pw.setGood i true } : State).suppliesUp := by
  rw [exec_supplyRise, execSupplyRise, if_neg (by rw [h]; decide)]

theorem exec_supplyFall_good {s : State} {i : Fin 4} (h : s.pw.isGood i = true) : exec (.supplyFall i) s = .next (s.supplyFall i) := by
  rw [exec_supplyFall, execSupplyFall, if_pos h]

/-- With every supply good the detectors wake a PARKED device (R404). -/
theorem State.suppliesUp_wakes {s : State} (hp : s.pw.pstate = .parked) (hg : s.pw.coreGood = true) (hlo : s.pw.lo50 = false)
    (h4 : s.pw.isGood 4 = true) : s.suppliesUp = s.toWaking 1 false :=
  if_pos (by rw [hp, hg, hlo, h4]; decide)

theorem State.suppliesUp_stays {s : State} (h : s.pw.pstate ≠ .parked ∨ s.pw.coreGood = false) : s.suppliesUp = s := by
  refine if_neg ?_
  simp only [Bool.and_eq_true, decide_eq_true_eq]
  rintro ⟨⟨⟨hp, hg⟩, -⟩, -⟩
  exact h.elim (· hp) (by simp [hg])

/-- Filtered supplies open BOOT in WAKING unless RST_N is low (R404, R405). -/
theorem State.supplyGood_opens {s : State} (hw : s.pw.pstate = .waking) (hg : s.pw.coreGood = true) (h4 : s.pw.isGood 4 = true) :
    s.supplyGood = { s with pw := { s.pw with filtered := true, pstate := if s.pw.rstn then .boot else .waking } } :=
  if_pos (by rw [hw, hg, h4]; decide)

/-- Without them WAKING ends in PARKED, and the failed wake is counted (R404, R409). -/
theorem State.wakeTimeout_parks {s : State} (hw : s.pw.pstate = .waking) (hf : s.pw.filtered = false) :
    s.wakeTimeout = { s with pw := { s.pw with pstate := .parked, mainen := false, wakeFails := satAdd 8 s.pw.wakeFails 1 } } :=
  if_pos (by rw [hw, hf]; decide)

/-- A pulse of RST_N under 0.5 µs does nothing (R416). -/
theorem State.rstLow_short (s : State) {ns : Nat} (h : ns < 500) :
    s.rstLow ns = { s with core := { s.core with free := s.core.free + 1 } } := by
  have h1 : ¬ 2000 ≤ ns := by omega
  have h2 : ¬ 500 ≤ ns := by omega
  simp [State.rstLow, h1, h2]

/-- A pulse of RST_N from 2 µs on resets a device past WAKING (R416). -/
theorem State.rstLow_long (s : State) {ns : Nat} (h : 2000 ≤ ns) :
    s.rstLow ns = (let t : State := { s with pw := { s.pw with rstn := false } }
      if 2 ≤ s.pw.pstate.code then t.deviceReset 3 else t) := by
  simp [State.rstLow, h]

/-- SWRST over an open port. -/
theorem exec_swrst_open {s : State} (h : s.serviceRuns = true) : exec .swrst s = .next s.softReset.rest.frameEnd :=
  congrArg _ (State.devCtrl_swrst h)

theorem State.softReset_enabled {s : State} (h : s.pw.swren = true) :
    s.softReset = s.onCore (fun c => { c with hst := { c.hst with swrstDue := true } }) := if_pos h

theorem State.softReset_disabled {s : State} (h : s.pw.swren = false) : s.softReset = s := if_neg (by rw [h]; decide)

/-- A software reset that is due takes effect once no frame is in progress (R416). -/
theorem State.frameEnd_swrst {s : State} (hs : s.core.hst.stream = none) (hr : s.core.hst.resetDue = false)
    (hd : s.core.hst.swrstDue = true) : s.frameEnd = s.deviceReset 4 := by
  simp [State.frameEnd, hs, hr, hd]

/-- Settles O50: each supply, reset pin and reset request through what it does to the power state. -/
theorem suppliesAndResets : Obligations.SuppliesAndResets := by
  unfold Obligations.SuppliesAndResets
  intro s
  refine ⟨fun h => exec_vkeepPowerOn_low h, fun h => exec_vkeepLoss_good h,
    fun i h => ⟨fun hp hg hlo h4 => ?wake, fun hn => ?risen⟩, fun i h => ⟨fun hp => ?fallParked, fun hp => ?fall⟩,
    fun hw => ⟨fun hg h4 => congrArg _ (State.supplyGood_opens hw hg h4), fun hf => congrArg _ (State.wakeTimeout_parks hw hf)⟩,
    fun ns => ⟨fun h => congrArg _ (s.rstLow_short h), fun h => ⟨fun hc => ?low, fun hc => ?reset⟩⟩, rfl,
    fun h => ⟨congrArg _ (State.devCtrl_cold h), fun he => ?soft, fun he => ?disabled⟩,
    fun hs hr hd => State.frameEnd_swrst hs hr hd⟩
  case wake => rw [exec_supplyRise_low h, State.suppliesUp_wakes (s := { s with pw := s.pw.setGood i true }) hp hg hlo h4]; rfl
  case risen => rw [exec_supplyRise_low h, State.suppliesUp_stays hn]
  case fallParked => rw [exec_supplyFall_good h]; exact congrArg _ (if_pos hp)
  case fall => rw [exec_supplyFall_good h]; exact congrArg _ (if_neg hp)
  case low => exact congrArg _ ((s.rstLow_long h).trans (if_neg (Nat.not_le.mpr hc)))
  case reset => exact congrArg _ ((s.rstLow_long h).trans (if_pos hc))
  case soft => rw [exec_swrst_open h, State.softReset_enabled he]; rfl
  case disabled => rw [exec_swrst_open h, State.softReset_disabled he]; rfl

end Sys2Proof.Machine

/-! PROOFS of what every command and every step keeps: the queue, the burned bits of the OTP memory, and the canonical form
of the flash. -/
namespace Sys2Proof.Machine

/-! ## The queue (log 2) -/

/-- Settles O1: with a command at its front the queue's match takes that command. -/
theorem stepRunsTheFrontCommand : Obligations.StepRunsTheFrontCommand := by
  unfold Obligations.StepRunsTheFrontCommand
  intro s i l h
  rw [step, h]

/-- To hold a given queue is kept by every primitive change: they change the core, the supplies and the memories alone. -/
theorem closedAll_pending (l : List Instr) : ClosedAll (fun t => t.pending = l) where
  upd _ _ _ h := h
  put _ _ _ h := h
  erase _ _ h := h
  bad _ _ h := h
  burn _ _ _ h := h

/-- Settles O4: each command is made of primitive changes, and none of them is of the queue. -/
theorem commandsKeepTheQueue : Obligations.CommandsKeepTheQueue := by
  unfold Obligations.CommandsKeepTheQueue
  intro i s t e
  exact exec_holds_all (closedAll_pending s.pending) i rfl e

/-! ## Burned bits of the OTP memory (R386) -/

/-- A burn leaves each word of OTP as it was, or with more bits at 1. -/
theorem State.otp_otpBurn (s : State) (k : Nat) (w : Word) (i : Nat) :
    (s.otpBurn k w).otp i = s.otp i ∨ (s.otpBurn k w).otp i = s.otp i ||| w := by
  by_cases hk : k = i
  · subst hk
    by_cases hi : k < 64
    · exact .inr (vget_vmod_same _ _ _ hi)
    · exact .inl (by simp [State.otp, State.otpBurn, vmod, hi])
  · exact .inl (vget_vmod_other _ _ _ hk)

/-- A bit of a given word that stands in a word of OTP stands there after a burn. -/
theorem State.otpBurn_keeps (s : State) (k : Nat) (w : Word) {i : Nat} {x : Word} (h : x &&& s.otp i = x) :
    x &&& (s.otpBurn k w).otp i = x := by
  obtain e | e := s.otp_otpBurn k w i
  · rw [e, h]
  · rw [e, BitVec.and_or_distrib_left, h]
    ext j
    simpa using fun bit _ => bit

/-- That a word of OTP holds given bits is kept by every primitive change: only a burn reaches the OTP memory. -/
theorem closedAll_otp (i : Nat) (x : Word) : ClosedAll (fun t => x &&& t.otp i = x) where
  upd _ _ _ h := h
  put _ _ _ h := h
  erase _ _ h := h
  bad _ _ h := h
  burn s k w h := s.otpBurn_keeps k w h

/-- Settles O5: the bits that a word holds before the step stand in it after every primitive change. -/
theorem burnedOtpBitsStayBurned : Obligations.BurnedOtpBitsStayBurned := by
  unfold Obligations.BurnedOtpBitsStayBurned
  intro s t i e
  exact step_holds (closedAll_otp i (s.otp i)) (fun _ _ h => h) (BitVec.and_self ..) e

/-! ## The canonical form of the flash (R371) -/

/-- The canonical form of a sparse table: no value that an unlisted key reads as, and keys strictly rising. -/
theorem Sparse.wf_iff {α : Type} [DecidableEq α] (d : Nat → α) (l : List (Nat × α)) :
    Sparse.wf d l = true ↔ (∀ p ∈ l, p.2 ≠ d p.1) ∧ l.Pairwise (fun p q => p.1 < q.1) := by
  induction l with
  | nil => simp [Sparse.wf]
  | cons p t ih =>
    simp only [Sparse.wf, Sparse.above, Bool.and_eq_true, decide_eq_true_eq, List.all_eq_true, ih, List.forall_mem_cons,
      List.pairwise_cons]
    tauto

/-- Entries taken out leave the canonical form. -/
theorem Sparse.wf_filter {α : Type} [DecidableEq α] (d : Nat → α) {l : List (Nat × α)} (q : Nat × α → Bool)
    (h : Sparse.wf d l = true) : Sparse.wf d (l.filter q) = true := by
  rw [Sparse.wf_iff] at h ⊢
  obtain ⟨written, rising⟩ := h
  exact ⟨fun p hp => written p (List.mem_of_mem_filter hp), rising.filter q⟩

/-- The canonical form of the flash is kept by every primitive change: a byte programmed goes to its place in the order,
and an erase takes entries out. -/
theorem closedAll_flashWf : ClosedAll (fun t => t.st.flashWf = true) where
  upd _ _ _ h := h
  put _ a b h := State.flashPut_wf a b h
  erase _ _ h := Sparse.wf_filter erasedByte _ h
  bad _ _ h := h
  burn _ _ _ h := h

/-- Settles O6: every step is made of changes that keep the canonical form. -/
theorem flashStaysCanonical : Obligations.FlashStaysCanonical := by
  unfold Obligations.FlashStaysCanonical
  intro s t h e
  exact step_holds closedAll_flashWf (fun _ _ h => h) h e

end Sys2Proof.Machine

/-! PROOFS of the statements of the family of the Bakehouse: the steps of a program; requests, waits and parking. -/
namespace Sys2Proof.Machine

variable {s : State} {w : BitVec 64}

/-! ## Changes of the core -/

/-- A change of the core is the core that it gives. -/
theorem State.onCore_const (s : State) (f : Core → Core) : s.onCore f = s.onCore (fun _ => f s.core) := by
  rw [State.onCore, State.onCore]

theorem State.onCore_onCore (s : State) (f g : Core → Core) : (s.onCore f).onCore g = s.onCore (fun c => g (f c)) := rfl

/-! ## Steps of a program (R350 to R354) -/

/-- An ENABLE that releases a hold (R351, R353). -/
theorem State.stepRelease_taken (s : State) {t tgt cnt : Nat} (ht : (if t = 0x4F then 15 else t - 0x40) = tgt)
    (hc : (s.core.holdSet tgt).count = cnt) (h : s.relRefused tgt cnt = false) :
    s.stepRelease t = s.writeRel (BitVec.ofNat 32 (tgt + 256 * cnt + 65536)) := by
  subst ht hc
  exact if_neg (by rw [h]; decide)

/-- An ENABLE whose release is refused (R351, R353). -/
theorem State.stepRelease_refused (s : State) {t tgt cnt : Nat} (ht : (if t = 0x4F then 15 else t - 0x40) = tgt)
    (hc : (s.core.holdSet tgt).count = cnt) (h : s.relRefused tgt cnt = true) :
    s.stepRelease t = (s.writeRel (BitVec.ofNat 32 (tgt + 256 * cnt + 65536))).onCore Core.stepRefused := by
  subst ht hc
  exact if_pos h

/-- DELAY begins (R350). -/
theorem State.stepDelay_waits (h : s.atStep 4 = some w) :
    s.stepDelay = s.onCore (fun c => { c with bkh := { c.bkh with wait := .delay } }) := by
  rw [State.stepDelay, h]

/-- CHECK compares the chosen half of its register (R354). -/
theorem State.stepCheck_eq (h : s.atStep 5 = some w) :
    s.stepCheck = (let half := getBits (s.peek (stArg w / 256) (stArg w % 256)) (if stFlg w % 2 = 1 then 16 else 0) 16
      let eq := decide ((half &&& (stDat w / 65536)) = stDat w % 65536)
      s.onCore (fun c => (c.setFld pgBKH BKH_PROG_CF (b2n (xor eq (2 ≤ stFlg w)))).nextStep)) := by
  rw [State.stepCheck, h]

/-- BRFAULT moves to its step or to the next one (R350). -/
theorem State.stepBranch_eq (h : s.atStep 6 = some w) :
    s.stepBranch = s.onCore (fun c => if c.branchCond (stFlg w) then c.goStep (stArg w % 64) else c.nextStep) := by
  rw [State.stepBranch, h]

/-- Settles O46: the step at the pointer, by its OP and by what decides its outcome. -/
theorem programStepsRun : Obligations.ProgramStepsRun := by
  unfold Obligations.ProgramStepsRun
  intro s w
  dsimp only
  refine ⟨fun h => ⟨fun pass => ?ends, fun fail => ?fails⟩,
    fun h => ⟨fun ht => ?rail, fun lo hi => ⟨fun out => ?pin, fun other => ?pinRefused⟩,
      fun ht => ⟨fun taken => ?release, fun refused => ?releaseRefused⟩⟩,
    fun h => ⟨fun past => ?goesOn, fun past => ?waits⟩, fun h => ?delay, fun h => ?check,
    fun h => ⟨fun jumps => ?jump, fun stays => ?next⟩, fun h => ⟨fun crumb => ?report, fun record => ?reportRecord⟩⟩
  case ends => rw [exec_endStep, execEndStep, State.stepEnd_ends h pass]
  case fails => rw [exec_endStep, execEndStep, State.stepEnd_fails h fail]
  case rail => rw [exec_enable, execEnable, State.stepEnable_rail h ht, State.onCore, Core.stepOn_eq]; rfl
  case pin => rw [exec_enable, execEnable, State.stepEnable_pin h lo hi, State.onCore, Core.stepPin_out _ _ _ out]; rfl
  case pinRefused => rw [exec_enable, execEnable, State.stepEnable_pin h lo hi, State.onCore, Core.stepPin_other _ _ _ other]; rfl
  case release => rw [exec_enable, execEnable, State.stepEnable_release h ht, s.stepRelease_taken rfl rfl taken]
  case releaseRefused => rw [exec_enable, execEnable, State.stepEnable_release h ht, s.stepRelease_refused rfl rfl refused, State.onCore_onCore]; rfl
  case goesOn => rw [exec_waitgood, execWaitgood, State.stepWait_past h past]; rfl
  case waits => rw [exec_waitgood, execWaitgood, State.stepWait_waits h past]; rfl
  case delay => rw [exec_delay, execDelay, State.stepDelay_waits h]; rfl
  case check => rw [exec_check, execCheck, State.stepCheck_eq h]; rfl
  case jump => rw [exec_brfault, execBrfault, State.stepBranch_eq h, State.onCore, if_pos jumps]; rfl
  case next => rw [exec_brfault, execBrfault, State.stepBranch_eq h, State.onCore, if_neg (by rw [stays]; decide)]; rfl
  case report => rw [exec_report, execReport, State.stepReport_eq h]; dsimp only; rw [if_neg (by omega)]; rfl
  case reportRecord => rw [exec_report, execReport, State.stepReport_eq h]; dsimp only; rw [if_pos record]

/-! ## Requests, waits and parking (R353 to R361) -/

/-- RUNSVC while a program runs is refused (R355). -/
theorem Core.runSvc_running {c : Core} (h : c.bkh.running = true) : c.runSvc = c.raise pgBKH 5 := if_pos h

/-- RUNSVC starts a present SVC (R355). -/
theorem Core.runSvc_idle {c : Core} (h : c.bkh.running = false) (hp : c.progPresent 3 = true) : c.runSvc = c.startProg 3 false := by
  rw [Core.runSvc, if_neg (by rw [h]; decide), if_pos hp]

/-- ABORT of a running program (R355). -/
theorem State.abortProg_running (s : State) (h : s.core.bkh.running = true) :
    s.abortProg = (s.onCore Core.stopProg).afterProg s.core.bkh.prog true := if_pos h

/-- A change at a SEQ pin while the core is out of reset (R357). -/
theorem exec_seqInputChange_alive (h : s.alive = true) (i : Fin 16) (b : Bool) :
    exec (.seqInputChange i b) s = .next (s.after (s.core.seqInput i b)) := by
  rw [exec_seqInputChange, execSeqInputChange, if_pos h]; rfl

/-- WAKE low for SLEEPDLY asks to park in RUN, SAFE and GRAVE (R361). -/
theorem State.sleepTimeout_asks (h : s.serviceRuns = true) (hw : s.core.flag pgBKH BKH_WAKE_WAKEEN = true) (hl : s.core.cmpLo 51 = true)
    (hp : s.pw.pstate = .run ∨ s.pw.pstate = .safe ∨ s.pw.pstate = .grave) : s.sleepTimeout = s.onCore Core.parkRequest :=
  if_pos (by rw [h, hw, hl]; simpa [or_assoc] using hp)

/-- A DELAY ends (R350). -/
theorem State.delayEnd_ends (h : s.serviceRuns = true) (hr : s.core.bkh.running = true) (hw : s.core.bkh.wait = .delay) :
    s.delayEnd = s.onCore Core.nextStep :=
  if_pos (by rw [h, hr, hw]; decide)

/-- A device that has run DOWN parks once its records are committed, or late (R361). -/
theorem exec_mainenRelease_parks (h : s.serviceRuns = true) (hp : s.core.bkh.parking = true) (late : Bool)
    (hq : late = true ∨ (s.core.bkh.queue = [] ∧ s.core.nvm.write.any (fun w => w.kind = .log) = false)) :
    exec (.mainenRelease late) s = .next s.toParked := by
  rw [exec_mainenRelease, execMainenRelease, if_pos h]
  refine congrArg _ (if_pos ?_)
  rw [State.serviceRuns_booted h, hp]
  rcases hq with rfl | ⟨hq, hw⟩
  · rfl
  · rw [hq, hw]; simp

/-- A fleet report that is due is formed (R368). -/
theorem exec_fleetReportForm_due (h : s.serviceRuns = true) (hd : s.core.bkh.reportDue = true) :
    exec .fleetReportForm s = .next s.formReport.rest :=
  congrArg _ (if_pos (by rw [h, hd]; rfl))

/-- Settles O47: the requests of BKH_CTRL, the ends of the waits, and parking, each through what it does to the program. -/
theorem programsStartWaitAndPark : Obligations.ProgramsStartWaitAndPark := by
  unfold Obligations.ProgramsStartWaitAndPark
  intro s
  refine ⟨fun h i b => exec_seqInputChange_alive h i b, fun h => ?_⟩
  dsimp only
  have park (h1 : s.core.bkh.park = false) (h2 : s.core.bkh.parking = false) := s.core.parkRequest_eq h1 h2
  refine ⟨fun hr => ?busy, fun hr hp => ?svc, fun h1 h2 => ⟨?park, fun hw hl hp => ?sleep⟩, fun hr => ?abort,
    fun t want hw hr => ⟨fun hg => ⟨fun pin wanted => ?watched, fun other => ?good⟩, fun hg => ?timeout⟩, fun hr hw => ?delay,
    fun hr hw => ?channels, fun hr hw i hi => ⟨fun more => ?nextPin, fun last => ?lastPin⟩,
    fun hp => ⟨fun quiet => exec_mainenRelease_parks h hp false (.inr quiet), exec_mainenRelease_parks h hp true (.inl rfl)⟩,
    fun hd => exec_fleetReportForm_due h hd⟩
  case busy => rw [exec_runsvc, execRunsvc, State.bkh_runSvc h, Core.runSvc_running hr]
  case svc => rw [exec_runsvc, execRunsvc, State.bkh_runSvc h, Core.runSvc_idle hr hp]
  case park => rw [exec_park, execPark, State.bkh_park h, park h1 h2]
  case sleep => rw [exec_sleepTimeout, execSleepTimeout, State.sleepTimeout_asks h hw hl hp, State.onCore, park h1 h2]; rfl
  case abort => rw [exec_abort, execAbort, State.bkh_abort h, s.abortProg_running hr]
  case watched =>
    rw [exec_waitgoodSatisfied, execWaitgoodSatisfied, State.waitSatisfied_eq h hw hr hg]
    dsimp only
    rw [pin, wanted]; rfl
  case good =>
    have hn : (tgtSeq t && want) = false := by rcases other with e | e <;> simp [e]
    rw [exec_waitgoodSatisfied, execWaitgoodSatisfied, State.waitSatisfied_eq h hw hr hg]
    dsimp only
    rw [hn]; rfl
  case timeout => rw [exec_bkhtmo, execBkhtmo, State.waitTimeout_eq h hw hr hg]; rfl
  case delay => rw [exec_delayEnd, execDelayEnd, State.delayEnd_ends h hr hw]; rfl
  case channels => rw [exec_defaultDownWaitEnd, execDefaultDownWaitEnd, State.defaultWaitEnd_rails h hw hr, State.channelsOff]
  case nextPin => rw [exec_defaultDownWaitEnd, execDefaultDownWaitEnd, State.defaultWaitEnd_pin h hw hr, s.releaseNext_more hi more]; rfl
  case lastPin =>
    rw [exec_defaultDownWaitEnd, execDefaultDownWaitEnd, State.defaultWaitEnd_pin h hw hr, s.releaseNext_last hi last, State.onCore_const]

end Sys2Proof.Machine

/-! PROOFS of the statements of the family of the nonvolatile store and security: records, erases, scrubs and holds; host
operations, keys, burns and the failure rate limit. -/
namespace Sys2Proof.Machine

variable {s : State}

/-! ## Record writes (R378, R384, R426) -/

theorem Core.beginLog_eq (c : Core) {r : BRec} {t : List BRec} (h : c.bkh.queue = r :: t) :
    c.beginLog = (({ c with bkh := { c.bkh with queue := { r with begun := true } :: t } } : Core).beginWrite .log (logAddr c.nvm.head)
      (slotBytes (recBody r c.nvm.recseq))).syncPend := by
  rw [Core.beginLog, h]

/-- The record at the head of the queue begins to be written once its BBWRITE runs (R378, R382). -/
theorem exec_bbRecordWrite_begins (h : s.serviceRuns = true) (hf : s.core.flashFree = true) (hh : s.core.held = false)
    (hc : s.core.ctlWaits = false) (hb : s.core.headBusy = false) (ha : s.core.actRuns actBBWRITE 0 = true) :
    exec .bbRecordWrite s = .next (s.after s.core.beginLog) :=
  congrArg _ (if_pos (by rw [h, hf, hh, hc, hb, ha]; rfl))

/-- A control record that is wanted begins to be written (R384). -/
theorem exec_ctlRecordWrite_begins (h : s.serviceRuns = true) (hf : s.core.flashFree = true) (hh : s.core.held = false)
    (hw : s.core.nvm.ctlWant = true) (hb : s.core.ctlBusy = false) : exec .ctlRecordWrite s = .next s.beginCtl.rest :=
  congrArg _ (if_pos (by rw [h, hf, hh, hw, hb]; rfl))

/-- The copy of a map to be written is the second one where the first one stands (R426). -/
theorem mapCopy_eq (half : Bool) : (if (if half then RecKind.map2 else RecKind.map1) = .map1 then 0 else 1) = b2n half := by
  cases half <;> rfl

/-- A page program ends while the core is out of reset (R378). -/
theorem exec_flashProgramDone_alive (h : s.alive = true) : exec .flashProgramDone s = .next s.recordStep.rest := congrArg _ (if_pos h)

/-- The run of bytes that a step of a record write programs (R378). -/
theorem State.programStep_eq (s : State) (w : RecWrite) : s.programStep w =
    s.flashWrite (w.addr + (stepRun w.steps).1) ((w.bytes.drop (stepRun w.steps).1).take (stepRun w.steps).2) := rfl

/-! ## Erases, the log scan and scrubs (R371 to R382) -/

/-- Only a log erase waits for a control record (R395). -/
theorem Core.eraseWaits_none (c : Core) {l : Nat} {why : EraseWhy} {t : List (Nat × EraseWhy)} (h : c.nvm.erases = (l, why) :: t)
    (hw : why = .bb → c.nvm.ctlWant = false) : c.eraseWaits = false := by
  rw [Core.eraseWaits, h]
  cases why with
  | bb => exact hw rfl
  | _ => rfl

/-- An erase under way ends where no program and no hold suspends it (R371, R379, R381). -/
theorem exec_flashEraseDone_ends (h : s.booted = true) (hf : s.core.flashFree = true) (hh : s.core.held = false)
    (hs : s.core.nvm.eraseStop = false) {l : Nat} {why : EraseWhy} {t : List (Nat × EraseWhy)} (he : s.core.nvm.erases = (l, why) :: t)
    (hw : why = .bb → s.core.nvm.ctlWant = false) (ok : Bool) :
    exec (.flashEraseDone ok) s =
      .next ((s.eraseDone ok).onCore (fun c => { c with nvm := { c.nvm with eraseStop := c.rpr.depth ≠ 0 } })).rest :=
  congrArg _ (if_pos (by rw [h, hf, hh, hs, he, s.core.eraseWaits_none he hw]; rfl))

/-- The log scan ends (R380). -/
theorem exec_logScanDone_ends (h : s.serviceRuns = true) (hs : s.core.bkh.scanned = false) (hh : s.core.held = false) :
    exec .logScanDone s = .next s.scanLog.rest := by
  rw [exec_logScanDone, execLogScanDone, if_pos (by rw [h, hs, hh]; rfl)]

/-- A scrub outside full freeze, while its sector's run does not stand granted, is asked of the arbiter (R382, R435). -/
theorem exec_scrub_asks (h : s.booted = true) (hd : s.core.rpr.depth ≠ 2) {p : Fin 64} (hr : s.core.actRuns actSCRUB p = false)
    (hp : s.core.fld pgNVM NVM_CFG_SCRUBP ≠ 0) (corr : Nat) (words : List Nat) :
    exec (.scrub p corr words) s = .next (s.after (s.core.requestAct ⟨actSCRUB, p, 0⟩)) := by
  rw [exec_scrub, execScrub, if_neg (by simp [h, hd]), if_neg (by rw [hr]; decide), if_neg hp]
  rfl

/-- A scrub run that stands granted ends while the flash is free (R382). -/
theorem exec_scrub_ends (h : s.booted = true) (hd : s.core.rpr.depth ≠ 2) {p : Fin 64} (hr : s.core.actRuns actSCRUB p = true)
    (hf : s.core.flashFree = true) (hc : s.core.ctlWaits = false) (corr : Nat) (words : List Nat) :
    exec (.scrub p corr words) s = .next (s.scrubDone p corr words).rest := by
  rw [exec_scrub, execScrub, if_neg (by simp [h, hd]), if_pos hr, if_pos (by rw [hf, hc]; rfl)]

/-! ## The end of a hold (R381) -/

/-- The hold ends once nothing causes it. -/
theorem exec_nvmHoldEnd_ends {t : State} (h : s.alive = true) (hs : s.core.stat pgNVM 8 = true) (hc : s.core.holdCause = false)
    (e : s.endHold = t) : exec .nvmHoldEnd s = .next t.revokeNext.rest := by
  rw [← e]
  exact congrArg _ (if_pos (by rw [h, hs, hc]; rfl))

/-- Settles O48: the record writes, erases, scans, scrubs and holds, each through its own operation of the store. -/
theorem recordsErasesAndScrubs : Obligations.RecordsErasesAndScrubs := by
  unfold Obligations.RecordsErasesAndScrubs
  intro s
  dsimp only
  refine ⟨fun h hf hh => ⟨fun r t hq hc hb ha => ?log, fun hw hb => ?ctl, fun m t hq => ⟨fun i hi => ?map, fun hi => ?mapErased⟩⟩,
    fun h w hw hg => ⟨fun h2 => ?step, fun h2 => ⟨fun hk => ?logCommit, fun hk => ?ctlCommit, fun m t hk hq hd hh => ?secondCopy,
      fun hk => ?mapCommit⟩⟩,
    fun h hf hh hs ok l why t he hw => ?erase,
    fun l failed => ⟨fun p hp => s.retireSector_spare failed hp, fun hp => s.retireSector_none failed hp,
      fun hl => s.skipSector_ahead hl, fun hl => s.skipSector_head hl⟩,
    fun h hs hh => ?scan,
    fun h hd p corr words => ⟨fun hr hp => exec_scrub_asks h hd hr hp corr words, fun hr hf hc => ?scrub, fun h0 hp few => ?few⟩,
    fun h hs hc => ⟨fun hw => ?idle, fun w hw hd => ?frozen, fun w hw hd hg => ⟨fun h2 => ?commit, fun h2 hk => ?logAgain,
      fun h2 hk => ?ctlAgain, fun h2 hk => ?mapAgain⟩⟩⟩
  case log => rw [exec_bbRecordWrite_begins h hf hh hc hb ha, s.core.beginLog_eq hq, Core.beginWrite]
  case ctl => rw [exec_ctlRecordWrite_begins h hf hh hw hb]; rfl
  case map => rw [exec_repairMapWrite, s.mapWrite_eq h hf hh hq, s.beginMap_free m (mapCopy_eq _) hi]; rfl
  case mapErased => rw [exec_repairMapWrite, s.mapWrite_eq h hf hh hq, s.beginMap_full m (mapCopy_eq _) hi]; rfl
  case step => rw [exec_flashProgramDone_alive h, s.recordStep_next hw hg h2, State.programStep_eq]
  case logCommit => rw [exec_flashProgramDone_alive h, s.recordStep_log hw hg h2 hk, State.programStep_eq]
  case ctlCommit => rw [exec_flashProgramDone_alive h, s.recordStep_ctl hw hg h2 hk, State.programStep_eq]
  case secondCopy => rw [exec_flashProgramDone_alive h, s.recordStep_map1 hw hg h2 hk hq hd hh, State.programStep_eq]
  case mapCommit => rw [exec_flashProgramDone_alive h, s.recordStep_map2 hw hg h2 hk, State.programStep_eq]
  case erase => rw [exec_flashEraseDone_ends h hf hh hs he hw, s.eraseDone_eq ok he]
  case scan => rw [exec_logScanDone_ends h hs hh, State.scanLog]
  case scrub => rw [exec_scrub_ends h hd hr hf hc, State.scrubDone, State.setBad]
  case few => exact s.core.scrub_few p corr h0 few (fun e => hp (Fin.ext e))
  case idle => exact exec_nvmHoldEnd_ends h hs hc ((s.endHold_idle hw).trans (s.onCore_const _))
  case frozen => exact exec_nvmHoldEnd_ends h hs hc ((s.endHold_full hw hd).trans (s.onCore_const _))
  case commit =>
    refine exec_nvmHoldEnd_ends h hs hc ?_
    rw [s.endHold_commit hw hd hg h2, State.onCore_onCore, State.onCore_const]
  case logAgain =>
    refine exec_nvmHoldEnd_ends h hs hc ?_
    rw [s.endHold_rewrite hw hd hg h2, State.rewrite_log _ hk, State.onCore_onCore, State.onCore_const]
    rfl
  case ctlAgain =>
    refine exec_nvmHoldEnd_ends h hs hc ?_
    rw [s.endHold_rewrite hw hd hg h2, State.rewrite_ctl _ hk, State.onCore_onCore, State.onCore_const]
    rfl
  case mapAgain =>
    refine exec_nvmHoldEnd_ends h hs hc ?_
    rw [s.endHold_rewrite hw hd hg h2, State.rewrite_map _ hk, State.onCore_const]

/-! ## Host operations (R377) -/

/-- A write through a port whose whole effect is a change of the core. -/
theorem State.onCore_wrote (s : State) (f : Core → Core) : (s.onCore f).rest.frameEnd = s.wrote (f s.core) := rfl

/-! ## Keys and burns (R386) -/

theorem exec_keyProvision_open (h : s.serviceRuns = true) (k : Fin 4) : exec (.keyProvision k) s =
    .next (((s.onCore (fun c => c.putFields pgSEC .sec 0x38 (BitVec.ofNat 32 (k.val + 0x100)))).keyGo k).rest).frameEnd := by
  rw [exec_keyProvision, execKeyProvision, State.regWrite_eq h _ _ rfl, State.writeNow_eq _ _ (.inl (by decide)), State.kprog_go]

theorem exec_keyImgauth_open (h : s.serviceRuns = true) (k : Fin 4) : exec (.keyImgauth k) s =
    .next (((s.onCore (fun c => c.putFields pgSEC .sec 0x38 (BitVec.ofNat 32 (k.val + 0x400)))).imgAuthGo k).rest).frameEnd := by
  rw [exec_keyImgauth, execKeyImgauth, State.regWrite_eq h _ _ rfl, State.writeNow_eq _ _ (.inl (by decide)), State.kprog_img]

/-! What a change of the core leaves of the OTP memory's flags (R386, R387). -/

@[simp] theorem State.onCore_provClosed (s : State) (f : Core → Core) : (s.onCore f).provClosed = s.provClosed := rfl
@[simp] theorem State.onCore_keyProv (s : State) (f : Core → Core) (k : Nat) : (s.onCore f).keyProv k = s.keyProv k := rfl
@[simp] theorem State.onCore_keyRev (s : State) (f : Core → Core) (k : Nat) : (s.onCore f).keyRev k = s.keyRev k := rfl
@[simp] theorem State.onCore_keyDamaged (s : State) (f : Core → Core) (k : Nat) : (s.onCore f).keyDamaged k = s.keyDamaged k := rfl

/-- What refuses to provision slot `k` (R386). -/
theorem keyGo_cond (s : State) (f : Core → Core) (k : Nat) :
    ((s.onCore f).provClosed || (s.onCore f).keyProv k || (s.onCore f).keyRev k || (s.onCore f).keyDamaged k ||
      (s.onCore f).core.sec.burn.isSome) = true ↔
      s.provClosed = true ∨ s.keyProv k = true ∨ s.keyRev k = true ∨ s.keyDamaged k = true ∨ (f s.core).sec.burn.isSome = true := by
  simp only [State.onCore_provClosed, State.onCore_keyProv, State.onCore_keyRev, State.onCore_keyDamaged, State.onCore_core,
    Bool.or_eq_true, or_assoc]

/-- What refuses to burn slot `k` as the image key (R386). -/
theorem imgAuthGo_cond (s : State) (f : Core → Core) (k : Nat) :
    ((s.onCore f).provClosed || !(s.onCore f).keyProv k || (s.onCore f).core.sec.burn.isSome) = true ↔
      s.provClosed = true ∨ s.keyProv k = false ∨ (f s.core).sec.burn.isSome = true := by
  simp only [State.onCore_provClosed, State.onCore_keyProv, State.onCore_core, Bool.or_eq_true, Bool.not_eq_true', or_assoc]

/-- What refuses to close provisioning (R386). -/
theorem closeGo_cond (s : State) (f : Core → Core) :
    ((s.onCore f).provClosed || (s.onCore f).core.sec.burn.isSome) = true ↔
      s.provClosed = true ∨ (f s.core).sec.burn.isSome = true := by
  simp only [State.onCore_provClosed, State.onCore_core, Bool.or_eq_true]

/-- A request written to SEC_KPROG that is refused (R386). -/
theorem exec_kprog_refused {i : Instr} {w : Word} {t : State} (hi : exec i s = .next t.rest.frameEnd)
    (e : t = (s.onCore (fun c => c.putFields pgSEC .sec 0x38 w)).onCore Core.provRej) :
    exec i s = .next (s.wrote ((s.core.putFields pgSEC .sec 0x38 w).raise pgSEC 4)) := by
  rw [hi, e]; rfl

/-- A request written to SEC_KPROG whose burn begins (R386). -/
theorem exec_kprog_begins {i : Instr} {w : Word} {t : State} (h : s.serviceRuns = true) (hi : exec i s = .next t.rest.frameEnd)
    (b : Core → Burn) (e : t = (s.onCore (fun c => c.putFields pgSEC .sec 0x38 w)).onCore (fun c => c.beginBurn (b c))) :
    exec i s = .next (s.wrote (let c := s.core.putFields pgSEC .sec 0x38 w
      ({ c with sec := { c.sec with burn := some (b c), burnOn := !c.held } } : Core).setFld pgSEC SEC_KPROG_BUSY 1)) := by
  have depth : (s.core.putFields pgSEC .sec 0x38 w).rpr.depth = 0 := by rw [Core.putFields_rpr, State.serviceRuns_depth h]
  rw [hi, e, State.onCore_onCore, State.onCore_wrote, Core.beginBurn_eq _ _ depth]

/-- A burn that has begun ends after BOOT (R381, R386). -/
theorem exec_otpBurnDone_ends (h : s.booted = true) (hb : s.core.sec.burnOn = true) : exec .otpBurnDone s = .next s.burnDone.rest :=
  congrArg _ (if_pos (by rw [h, hb]; rfl))

/-- A hold-off ends (R394). -/
theorem exec_secHoldoffEnd_ends (h : s.booted = true) (hs : s.core.stat pgSEC 0 = true) :
    exec .secHoldoffEnd s = .next (s.after s.core.endHoldoff) :=
  congrArg _ (if_pos (by rw [h, hs]; rfl))

/-- Settles O49: a host operation from its request to its end, the burns, and the failure rate limit. -/
theorem hostFlashOperationsAndKeys : Obligations.HostFlashOperationsAndKeys := by
  unfold Obligations.HostFlashOperationsAndKeys
  intro s
  refine ⟨fun h p => ?requests, fun d x sec n hx h0 ha => ⟨fun hr => d.letHost_waits hx hr, fun hr => d.letHost_begins hx h0 hr ha⟩,
    fun h x sec n hx ha hb => ?ends, fun h => ⟨fun k => ?keys, ?close⟩, fun h hb => ?burns,
    fun h => ⟨?decay, fun hs => exec_secHoldoffEnd_ends h hs⟩⟩
  case requests =>
    intro ready begins
    have request (op : Nat) (i : Instr) (h1 : 1 ≤ op) (h4 : op < 4)
        (hi : exec i s = .next (s.portWrite p pgNVM 0x34 (BitVec.ofNat 32 (0x100 + op)))) : begins op i := by
      rw [State.portWrite_nvm h p op h4] at hi
      refine ⟨hi, fun sec n ha hop hn hoff hlt harea hpage => ?_⟩
      rw [hi, (ready op).nvmGo_starts ha hop hn h1 hoff hlt harea hpage]
      rfl
    exact ⟨request 1 _ (by decide) (by decide) rfl, request 2 _ (by decide) (by decide) rfl, request 3 _ (by decide) (by decide) rfl⟩
  case ends =>
    dsimp only
    refine ⟨fun hop => ?_, fun hop he => ?_, fun hop => ?_⟩
    · rw [exec_nvmOpDone, State.opDone_eq h hx hb (.inl (by omega)), s.nvmDone_eq hx ha, if_pos hop, State.hostProgram]
    · rw [exec_nvmOpDone, State.opDone_eq h hx hb (.inr he), s.nvmDone_eq hx ha, if_neg (by omega), if_neg (by omega)]
    · rw [exec_nvmOpDone, State.opDone_eq h hx hb (.inl (by omega)), s.nvmDone_eq hx ha, if_neg (by omega), if_pos hop]
  case keys =>
    have go := exec_keyProvision_open h k
    have img := exec_keyImgauth_open h k
    exact ⟨fun bad => exec_kprog_refused go (if_pos ((keyGo_cond s _ k).mpr bad)),
      fun ok => exec_kprog_begins h go (fun c => .slot k c.keyLoad) (if_neg (mt (keyGo_cond s _ k).mp ok)),
      fun bad => exec_kprog_refused img (if_pos ((imgAuthGo_cond s _ k).mpr bad)),
      fun ok => exec_kprog_begins h img (fun _ => .imgauth k) (if_neg (mt (imgAuthGo_cond s _ k).mp ok))⟩
  case close =>
    have go : exec .provClose s = _ := congrArg Host.Outcome.next (State.provClose_write h)
    exact ⟨fun bad => exec_kprog_refused go (if_pos ((closeGo_cond s _).mpr bad)),
      fun ok hb => exec_kprog_begins h go (fun _ => .close) (if_neg (mt (closeGo_cond s _).mp (by rw [ok, hb]; decide)))⟩
  case burns =>
    dsimp only
    refine ⟨fun k key e => ?_, fun k e => ?_, fun e => ?_, fun m e => ?_⟩ <;> rw [exec_otpBurnDone_ends h hb, s.burnDone_eq e] <;> rfl
  case decay => exact congrArg _ (if_pos h)

end Sys2Proof.Machine

/-! PROOFS of the statements of the family of self-repair and the freeze: shadows, retests, passes and compares; freezes
and the test access port. -/
namespace Sys2Proof.Machine

variable {s : State}

/-! ## Self-repair and maintenance (R428 to R437) -/

/-- A shadow passes (R430). -/
theorem Core.shadowPass_passes (c : Core) (h : c.fld pgRPR RPR_SHADOW_ENGINE ≠ 0xF) (ht : c.rpr.takeover = none)
    (hn : 65536 ≤ c.fld pgRPR RPR_SHADOW_SAMPLES) : c.shadowPass = (c.incSat pgRPR RPR_SHCNT_PASSES 1).endShadow 1 :=
  if_pos (by rw [ht, decide_eq_true h, decide_eq_true hn]; rfl)

/-- A background pass is due (R428). -/
theorem Core.backgroundRun_due (c : Core) (min : Nat)
    (h : (c.flag pgRPR RPR_BIST_BGDONE = false ∧ c.flag pgRPR RPR_BIST_FULLB = false) ∨
      (c.fld pgRPR RPR_CFG_BGP ≠ 0 ∧ c.fld pgRPR RPR_CFG_BGP ≤ min)) : c.backgroundRun min = c.background :=
  if_pos (by simpa using h)

/-- A background pass begins where none is under way (R428, R445). -/
theorem Core.background_begins (c : Core) (h : c.rpr.bgLeft = []) :
    c.background = (({ c with rpr := { c.rpr with bgLeft := c.idleUnits } } : Core).setFld pgRPR RPR_BIST_FAILS 0).backgroundNext :=
  if_neg (not_not_intro h)

/-- Settles O52: the commands of the repair block, each through its own operation. -/
theorem shadowsRetestsAndPasses : Obligations.ShadowsRetestsAndPasses := by
  unfold Obligations.ShadowsRetestsAndPasses
  intro s
  dsimp only
  refine ⟨fun h hd => ?_, fun h => ⟨?grants, fun d a ha => d.grant_eq ha, ?bgnow⟩⟩
  case grants => rw [exec_maintGrant, execMaintGrant, State.service_eq h, Core.grantAll]
  case bgnow => rw [exec_bgnow, execBgnow, State.rprCtrl_bgnow h]
  have repair (f : Core → Core) : s.repair f = s.after (f s.core) := State.repair_eq h hd
  refine ⟨fun n ms j hj he hb hn hg => ?shadow, fun hp a j ha hj => ⟨fun hs => ?shadowEnds, fun hs => ?shadowStarts⟩,
    fun h1 h2 h3 => ?passes, fun u ok hr => ⟨fun hu => ?engine, fun hu hok => ?sound, fun hu hok => ?retired⟩, fun u ok hr => ?unit,
    fun r fails hr => ?region, fun i t u hq hc hu he => ?compare,
    fun i a ha => ⟨?same, fun hi => ?window, fun hi hp => ?phase⟩, fun min due => ?background, fun hb => s.core.background_begins hb,
    fun secs hl due => ?recal⟩
  case shadow => rw [exec_shadowRequest, execShadowRequest, repair, s.core.shadowRequest_eq ms hj he hb hn hg]
  case shadowEnds => rw [exec_shadowStart, execShadowStart, repair, s.core.shadowStart_ends hp ha hj hs]
  case shadowStarts => rw [exec_shadowStart, execShadowStart, repair, s.core.shadowStart_starts hp ha hj hs]
  case passes => rw [exec_shadowPass, execShadowPass, repair, s.core.shadowPass_passes h1 h2 h3]
  case engine => rw [exec_retestDone, execRetestDone, repair, s.core.retestDone_eq u ok hr, if_pos hu]
  case sound => rw [exec_retestDone, execRetestDone, repair, s.core.retestDone_eq u ok hr, if_neg (by omega), if_pos hok]
  case retired => rw [exec_retestDone, execRetestDone, repair, s.core.retestDone_eq u ok hr, if_neg (by omega), if_neg (by simp [hok])]
  case unit => rw [exec_bistbgDone, execBistbgDone, repair, s.core.backgroundDone_eq u ok hr]; rfl
  case region =>
    rw [exec_recalDone, execRecalDone, repair]
    exact congrArg (fun c => Host.Outcome.next (s.after c)) (s.core.recalDone_eq r fails hr)
  case compare => rw [exec_slcmpRequest, execSlcmpRequest, repair, s.core.compareRequest_eq hq hc hu he]
  case same => rw [exec_slcmpDone, execSlcmpDone, repair, s.core.compareDone_eq i false ha]; rfl
  case window => rw [exec_slcmpDone, execSlcmpDone, repair, s.core.compareDone_eq i true ha, if_neg (by decide), if_pos hi]
  case phase =>
    rw [exec_slcmpDone, execSlcmpDone, repair, s.core.compareDone_eq i true ha, if_neg (by decide), if_neg (by omega),
      if_neg (by rw [hp]; decide)]
  case background => rw [exec_bistbgRun, execBistbgRun, repair, s.core.backgroundRun_due min due]
  case recal => rw [exec_recalRequest, execRecalRequest, repair, s.core.recalRequest_due secs hl due]

/-! ## Freezes (R438 to R442) -/

/-- A change at the FRZ pin of a core that is out of reset (R438). -/
theorem exec_frzPinChange_alive (h : s.alive = true) (b : Bool) :
    exec (.frzPinChange b) s = .next (s.after { s.core with rpr := { s.core.rpr with pin := b } }) := congrArg _ (if_pos h)

/-- A change at the FRZ pin of a core in reset is only seen (R438). -/
theorem exec_frzPinChange_inReset (h : s.alive = false) (b : Bool) :
    exec (.frzPinChange b) s = .next { s with core := { s.core with rpr := { s.core.rpr with pin := b } } } :=
  congrArg _ (if_neg (by rw [h]; decide))

/-- Step 3 of full freeze (R440). -/
theorem Core.freezeAllMid_done (c : Core) (hd : c.rpr.depth = 2) (ha : c.rpr.allMid = false) (hm : ∀ k < 24, (c.port k).pwm = .mid) :
    c.freezeAllMid = { c with rpr := { c.rpr with allMid := true } } := by
  have mid : (List.range 24).all (fun k => (c.port k).pwm = .mid) = true := by
    rw [List.all_eq_true]
    exact fun k hk => decide_eq_true (hm k (List.mem_range.mp hk))
  exact if_pos (by rw [hd, ha, mid]; rfl)

/-- Step 4 of full freeze (R440). -/
theorem State.freezeHalt_halts (ha : s.core.rpr.allMid = true) (hh : s.core.rpr.halted = false) :
    s.freezeHalt = (s.onCore (fun c => { c with rpr := { c.rpr with halted := true } })).captureRack :=
  if_pos (by rw [ha, hh]; rfl)

/-! ## The test access port (R443) -/

/-- A code that is not listed selects the bypass bit. -/
theorem exec_bypass_unlisted {code : Fin 64} (h : tapListed code = false) : exec (.bypass code) s = .next (s.tap code [0#8] id) :=
  congrArg _ (if_neg (by rw [h]; decide))

theorem exec_bypass_listed {code : Fin 64} (h : tapListed code = true) : exec (.bypass code) s = .next s := congrArg _ (if_pos h)

/-- A register read over an open port, without a side effect. -/
theorem exec_regacc_read (h : s.tapOpen = true) {pg off : Nat} (ha : addrOk pg off = true) (hr : s.regOpen = true) (v : Word) :
    exec (.regacc false pg off v) s = .next (s.tap 0x10 (wordBytes (s.peek pg off) ++ [1]) id) := by
  rw [exec_regacc, execRegacc, if_neg (by rw [ha]; decide), if_neg (by rw [h]; decide), if_neg (by rw [hr]; decide), if_neg (by decide)]

/-- A register write over an open port returns DONE and free data (log 65). -/
theorem exec_regacc_write (h : s.tapOpen = true) {pg off : Nat} (ha : addrOk pg off = true) (hr : s.regOpen = true) (v : Word) :
    exec (.regacc true pg off v) s = (let t := s.portWrite .jtag pg off v
      .next (({ t with core := t.core.takeWord.2 } : State).tap 0x10 (wordBytes t.core.takeWord.1 ++ [1]) id)) := by
  rw [exec_regacc, execRegacc, if_neg (by rw [ha]; decide), if_neg (by rw [h]; decide), if_neg (by rw [hr]; decide), if_pos rfl]

/-- While the registers are closed an access returns DONE 0 and free data (log 65). -/
theorem exec_regacc_closed (h : s.tapOpen = true) {pg off : Nat} (ha : addrOk pg off = true) (hr : s.regOpen = false) (wr : Bool) (v : Word) :
    exec (.regacc wr pg off v) s =
      .next (({ s with core := s.core.takeWord.2 } : State).tap 0x10 (wordBytes s.core.takeWord.1 ++ [0]) id) := by
  rw [exec_regacc, execRegacc, if_neg (by rw [ha]; decide), if_neg (by rw [h]; decide), if_pos (by rw [hr]; rfl)]

/-- Settles O53: the freeze by its levels and steps, and each instruction of the test access port by what it loads. -/
theorem freezesAndTheTestPort : Obligations.FreezesAndTheTestPort := by
  unfold Obligations.FreezesAndTheTestPort
  intro s
  dsimp only
  refine ⟨fun b => ⟨fun h => exec_frzPinChange_alive h b, fun h => exec_frzPinChange_inReset h b⟩,
    fun h hb => ⟨fun b => ?obs, ?full, fun hd => ?recap⟩, fun h => ⟨fun hd ha hm => ?allMid, fun ha hh => ?halt⟩, fun h => ?_⟩
  case obs => rw [exec_obs, execObs, State.frz_obs h hb]
  case full => rw [exec_full, execFull, State.frz_full h hb]
  case recap => rw [exec_recap, execRecap, State.frz_recap h hb hd]
  case allMid => rw [exec_freezeAllMid, execFreezeAllMid, State.protect_eq h, s.core.freezeAllMid_done hd ha hm]
  case halt => rw [exec_freezeHalt, execFreezeHalt, if_pos h, State.freezeHalt_halts ha hh]
  refine ⟨?reset, ?idcode, fun code => ⟨fun hc => ?bypass, fun hc => exec_bypass_listed hc⟩, ?scan, fun addr => ?read,
    fun bits => ⟨?preload, ?extest, rfl⟩,
    fun pg off v ha => ⟨fun hr => ⟨?regRead, exec_regacc_write h ha hr v⟩, fun hr wr => ?regClosed⟩⟩
  case reset => rw [exec_tapReset, execTapReset, State.tapLoad_eq h, State.onCore]; rfl
  case idcode => rw [exec_idcode, execIdcode, State.tap_eq h, State.onCore]; rfl
  case bypass => rw [exec_bypass_unlisted hc, State.tap_eq h, State.onCore]; rfl
  case scan => rw [exec_frzScan, execFrzScan, State.tap_eq h, State.onCore]
  case read => rw [exec_frzRead, execFrzRead, State.tap_eq h, State.onCore]
  case preload => rw [exec_samplePreload, execSamplePreload, State.boundary_eq h, State.tap_eq h, Core.scanned]; rfl
  case extest => rw [exec_extest, execExtest, State.boundary_eq h, State.tap_eq h, Core.scanned]; rfl
  case regRead => rw [exec_regacc_read h ha hr, State.tap_eq h, State.onCore]
  case regClosed => rw [exec_regacc_closed h ha hr, State.tap_eq (s := { s with core := s.core.takeWord.2 }) h, State.onCore]

end Sys2Proof.Machine
